-- ==== Sys2Proof/Word.lean ====
section
/-! DEFINITION. The word types and the sparse map type every file uses. -/

namespace Sys2Proof

/-- One byte. -/
abbrev Byte := BitVec 8
/-- One 32-bit register word. -/
abbrev W32 := BitVec 32
/-- One 64-bit word. -/
abbrev W64 := BitVec 64
/-- One instruction word (R83). -/
abbrev W128 := BitVec 128

/-- A sparse map from numbers, kept in rising key order; what an absent key reads as is given where it is read. -/
abbrev SMap (α : Type) := List (Nat × α)

end Sys2Proof
end

