-- ==== Sys2Proof/Syntax.lean ====
section
/-! DEFINITION. The commands the block takes, and the data they carry. -/

namespace Sys2Proof

/-- A memory error that an access or a scrub meets (R216, R217, R237, R240). -/
inductive MemErr where
  /-- Word `word` (offset div 8) of core `core`'s scratchpad with `bits` of its bits wrong: one is corrected, two are not
(R216, R217). -/
  | spad (core word bits : Nat)
  /-- Code line `line` (byte offset div 64) of pseudo-channel `pc` with symbols of its codeword changed: the place of each
among the 72 and the difference (R236). -/
  | line (pc line : Nat) (syms : List (Nat × Nat))
  /-- Word `word` (offset div 8) of the accumulation store with `bits` of its bits wrong (R370, R475). -/
  | acc (word bits : Nat)
  /-- A word of the stream store that holds the stream to node `peer`, with `bits` of its bits wrong (R475). -/
  | stream (peer bits : Nat)
  deriving DecidableEq, Repr

/-- What a command acts on, with the errors that its reads of memory meet. -/
structure Meets (α : Type) where
  it : α
  errs : List MemErr
  deriving DecidableEq, Repr

/-- A point of a calibration sweep and the eye there, in thousandths of a UI (R415, R422). -/
structure SweepPoint where
  step : Nat
  eye : Nat
  deriving DecidableEq, Repr

/-- What a ring's monitor reads, in per cent of the calibrated peak, and the power a filter receives, in hundredths of a dBm
(R410, R415). -/
structure RingSample where
  monitor : Nat
  pwr : Int
  deriving DecidableEq, Repr

/-- The heater powers, in microwatts, at which a relock found its two rings (R418). -/
structure RingHeat where
  tx : Nat
  rx : Nat
  deriving DecidableEq, Repr

/-- An engine's temperature in °C and its rate in °C/ms (R418, R438). -/
structure EngineTemp where
  temp : Nat
  rate : Int
  deriving DecidableEq, Repr

/-- A fabric packet (R286): header fields and its 256 payload bytes. -/
structure Packet where
  typ : Nat
  len : Nat
  dst : Nat
  src : Nat
  slice : Nat
  hops : Nat
  injTime : Nat
  seq : Nat
  offset : Nat
  sub : Nat
  mcast : Bool
  last : Bool
  replayed : Bool
  epoch : Nat
  dctx : Nat
  check : Nat
  payload : List Byte
  deriving DecidableEq, Repr

/-- What the training of a port found (R428, R429, R462): the lanes both ends pass, the partner's node number, part
and port, the round trip and the lane asymmetry in sixteenths of a nanosecond. -/
structure TrainResult where
  port : Nat
  mask : Nat
  node : Nat
  part : Nat
  farPort : Nat
  rtt : Nat
  asym : Int
  deriving DecidableEq, Repr

/-- What the work of a bring-up stage measured (R440, R447): power-good rails; boot ROM version, failed known-answer test
and identity key state; die links that failed repair, and spare lanes in use on each; stacks that did not train at class A with a
retention margin of 4.0 (stack, 0 class A, 1 class B or 2 neither, margin in sixteenths) and pseudo-channels that failed
training; update engines that failed, and whether the accumulation or stream store did; ports that trained; node numbers that neighbours have sent, by router port; spare lasers
that failed (8 · engine + channel); and whether the core map record in flash fails its CRC. -/
structure StageResult where
  rails : Nat
  romVersion : Nat
  failedTest : Nat
  keyBad : Bool
  linksBad : Nat
  linkSpares : List Nat
  stackRes : List (Nat × Nat × Nat)
  pcsBad : List Nat
  enginesBad : Nat
  storeBad : Bool
  ports : List TrainResult
  numbers : List (Nat × Nat)
  sparesBad : List Nat
  mapBad : Bool
  deriving DecidableEq, Repr

/-- The commands of the block: one constructor for each row of the table of operations and events. -/
inductive Instr where
  /-- NOP (R92): CTL instruction that does nothing. -/
  | nop (core : Nat) (f : BitVec 4) (o : BitVec 112)
  /-- LOOP (R96): Pushes a loop level that repeats the following BODY instructions ICNT or SCNT times. -/
  | loop (core : Nat) (f : BitVec 4) (o : BitVec 112)
  /-- BR (R94): Branches by OFFSET when the COND test on SA and SB holds. -/
  | br (core : Nat) (f : BitVec 4) (o : BitVec 112)
  /-- BRW (R95): Branches on NUM_STATUS.WIDEN, or on its inverse, once earlier VENCs of the context have completed. -/
  | brw (core : Nat) (f : BitVec 4) (o : BitVec 112)
  /-- CALL (R97): Pushes the return index and branches. -/
  | call (core : Nat) (f : BitVec 4) (o : BitVec 112)
  /-- RET (R97): Pops the call stack, branches, and pops deeper loop levels. -/
  | ret (core : Nat) (f : BitVec 4) (o : BitVec 112)
  /-- YIELD (R71): Makes the next runnable stage context current. -/
  | yield (core : Nat) (f : BitVec 4) (o : BitVec 112)
  /-- HALT (R98): Halts the context with CODE once its long operations are complete. -/
  | halt (core : Nat) (f : BitVec 4) (o : BitVec 112)
  /-- ISSUE_HOLD_SWITCH (R71): An instruction held at issue for 16 consecutive cycles makes the sequencer switch context. -/
  | issueHoldSwitch (core : Nat)
  /-- SBEAT (R100): Ends the context's work for the current beat and waits for the beat end. -/
  | sbeat (core : Nat) (f : BitVec 4) (o : BitVec 112)
  /-- SFENC (R101): Holds issue until earlier long operations in the selected scope are complete. -/
  | sfenc (core : Nat) (f : BitVec 4) (o : BitVec 112)
  /-- SWAIT (R102): Waits until event counter Ek reaches V, optionally subtracting V. -/
  | swait (core : Nat) (f : BitVec 4) (o : BitVec 112)
  /-- SSIG (R103): Adds INC to an event counter of a local or board core, optionally after a release fence. -/
  | ssig (core : Nat) (f : BitVec 4) (o : BitVec 112)
  /-- MOPA (R145): Accumulates K outer products of A and B into the active accumulator set. -/
  | mopa (core : Nat) (f : BitVec 4) (o : BitVec 112) (errs : List MemErr)
  /-- MSWP (R107): Exchanges the active and shadow accumulator sets, optionally clearing the new active set. -/
  | mswp (core : Nat) (f : BitVec 4) (o : BitVec 112)
  /-- MDRN (R154): Drains the shadow set row by row, scaled or as ACC64, to a descriptor. -/
  | mdrn (core : Nat) (f : BitVec 4) (o : BitVec 112)
  /-- MLDS (R155): Loads the shadow set from a descriptor, clearing rows outside its shape. -/
  | mlds (core : Nat) (f : BitVec 4) (o : BitVec 112) (errs : List MemErr)
  /-- MOPA_COMPLETE (R145): A MOPA finishes its residue check, releases its sources and signals its event counter. -/
  | mopaComplete (core : Nat)
  /-- MDRN_COMPLETE (R154): A drain writes its last row, frees or keeps the shadow set and releases its destination. -/
  | mdrnComplete (core : Nat)
  /-- MLDS_COMPLETE (R155): A load finishes its 128 rows and leaves the shadow set HELD. -/
  | mldsComplete (core : Nat)
  /-- MATRIX_RESIDUE_MISMATCH (R164): A cell residue comparison fails, so the active set is restored and the MOPAs are re-fed. -/
  | matrixResidueMismatch (core unit : Nat) (cell : Nat × Nat) (others : List (Nat × Nat))
  /-- VOP (R179): Element-wise vector operation selected by SUB. -/
  | vop (core : Nat) (f : BitVec 4) (o : BitVec 112) (errs : List MemErr)
  /-- VRED (R189): Reduces a tensor over the masked dimensions by SUM, MAX or MIN, optionally with indices. -/
  | vred (core : Nat) (f : BitVec 4) (o : BitVec 112) (errs : List MemErr)
  /-- VLUT (R187): Evaluates a function by segment look-up and linear interpolation. -/
  | vlut (core : Nat) (f : BitVec 4) (o : BitVec 112) (errs : List MemErr)
  /-- VPERM (R194): Permutes elements along CDIM by an index tensor. -/
  | vperm (core : Nat) (f : BitVec 4) (o : BitVec 112) (errs : List MemErr)
  /-- VGATH (R197): Gathers table rows named by an index list. -/
  | vgath (core : Nat) (f : BitVec 4) (o : BitVec 112) (errs : List MemErr)
  /-- VSCAT (R199): Scatters rows into a table, or adds them into it when ADD is set. -/
  | vscat (core : Nat) (f : BitVec 4) (o : BitVec 112) (errs : List MemErr)
  /-- VRNG (R202): Generates a keyed drop-out mask, or applies it when APPLY is set. -/
  | vrng (core : Nat) (f : BitVec 4) (o : BitVec 112) (errs : List MemErr)
  /-- VENC (R44): Encodes FP32 or BF16 values into CB8 or CB4 codes and counts clips. -/
  | venc (core : Nat) (f : BitVec 4) (o : BitVec 112) (errs : List MemErr)
  /-- VDEC (R47): Decodes codes to FP32 or BF16 by book entry times channel scale. -/
  | vdec (core : Nat) (f : BitVec 4) (o : BitVec 112) (errs : List MemErr)
  /-- VEC_COMPLETE (R173): A VEC instruction completes in issue order, releases its granules and signals its counter. -/
  | vecComplete (core : Nat)
  /-- VECTOR_RESIDUE_RETRY (R208): A lane residue mismatch discards a stream cycle and recomputes it. -/
  | vectorResidueRetry (core cycle : Nat) (lanes : List Nat)
  /-- DMOV_COPY (R115): Copies the elements of one descriptor into another. -/
  | dmovCopy (core : Nat) (f : BitVec 4) (o : BitVec 112) (errs : List MemErr)
  /-- DMOV_TABLE_LOAD (R116): Loads a codebook or scale bank from a scratchpad image after checking it. -/
  | dmovTableLoad (core : Nat) (f : BitVec 4) (o : BitVec 112) (errs : List MemErr)
  /-- DACC (R117): Adds scratchpad elements into DRAM through base-die accumulate-writes. -/
  | dacc (core : Nat) (f : BitVec 4) (o : BitVec 112) (errs : List MemErr)
  /-- DPOOL (R233): Pools embedding bags in the base dies and writes one row per bag. -/
  | dpool (core : Nat) (f : BitVec 4) (o : BitVec 112) (errs : List MemErr)
  /-- DMA_COMPLETE (R77): A DMOV, DACC or DPOOL completes when its writes are visible, and signals its counter. -/
  | dmaComplete (core op : Nat)
  /-- SPAD_WORD_FAIL (R219): A word that fails again within 24 hours, or corrects too often, retires the core. -/
  | spadWordFail (core word : Nat)
  /-- CGATH (R348): Gathers the named version of a tensor's shards from their owners. -/
  | cgath (core : Nat) (f : BitVec 4) (o : BitVec 112)
  /-- CRSC (R349): Sends each part of a gradient to its owner's bucket binding for accumulation. -/
  | crsc (core : Nat) (f : BitVec 4) (o : BitVec 112)
  /-- CA2A (R342): Exchanges part j of each member's source with member j. -/
  | ca2a (core : Nat) (f : BitVec 4) (o : BitVec 112)
  /-- CPERM (R350): Re-shards by sending the whole source to the ROOT member under a new layout epoch. -/
  | cperm (core : Nat) (f : BitVec 4) (o : BitVec 112)
  /-- CMCST (R352): Multicasts COUNT elements from the root down a tree of fan-out F. -/
  | cmcst (core : Nat) (f : BitVec 4) (o : BitVec 112)
  /-- CRED (R355): Reduces value-index pairs up a tree to a max or min winner for every member. -/
  | cred (core : Nat) (f : BitVec 4) (o : BitVec 112)
  /-- CBAR (R356): Barrier over the group's tree. -/
  | cbar (core : Nat) (f : BitVec 4) (o : BitVec 112)
  /-- CSEND (R357): Sends a message on a pinned stream. -/
  | csend (core : Nat) (f : BitVec 4) (o : BitVec 112)
  /-- CRECV (R357): Binds a pinned stream binding to receive one message. -/
  | crecv (core : Nat) (f : BitVec 4) (o : BitVec 112)
  /-- COLLECTIVE_DEQUEUE (R344): A queued collective starts once a collective slot frees, and reads its member list. -/
  | collectiveDequeue
  /-- COLLECTIVE_COMPLETE (R345): A collective writes its completion record and completes with its status. -/
  | collectiveComplete (num : Nat)
  /-- COLLECTIVE_TIMEOUT (R358): TIMEOUT_US expires, so the collective closes its bindings and completes with TIMEOUT. -/
  | collectiveTimeout (num : Nat)
  /-- EPOCH_ADVANCE (R350): After older-epoch buckets commit, LAYOUT_EPOCH takes the CPERM's epoch and DRAINING clears. -/
  | epochAdvance
  /-- DLD (R125): Loads a descriptor register from 64 bytes of scratchpad. -/
  | dld (core : Nat) (f : BitVec 4) (o : BitVec 112) (errs : List MemErr)
  /-- DSAV (R125): Stores a descriptor register to 64 bytes of scratchpad. -/
  | dsav (core : Nat) (f : BitVec 4) (o : BitVec 112) (errs : List MemErr)
  /-- DSET (R126): Writes a descriptor word, or one half of it, from SA or IMM32. -/
  | dset (core : Nat) (f : BitVec 4) (o : BitVec 112)
  /-- DINS (R126): Inserts a bit field of SA into a descriptor register. -/
  | dins (core : Nat) (f : BitVec 4) (o : BitVec 112)
  /-- DADD (R126): Adds SA or IMM32 to a descriptor word. -/
  | dadd (core : Nat) (f : BitVec 4) (o : BitVec 112)
  /-- DCPY (R126): Copies one descriptor register to another. -/
  | dcpy (core : Nat) (f : BitVec 4) (o : BitVec 112)
  /-- SCL_ADD (R128): SD := SA + SB. -/
  | sclAdd (core : Nat) (f : BitVec 4) (o : BitVec 112)
  /-- SCL_SUB (R128): SD := SA - SB. -/
  | sclSub (core : Nat) (f : BitVec 4) (o : BitVec 112)
  /-- SCL_MUL (R128): SD := low 64 bits of SA times SB. -/
  | sclMul (core : Nat) (f : BitVec 4) (o : BitVec 112)
  /-- SCL_AND (R128): Bitwise AND. -/
  | sclAnd (core : Nat) (f : BitVec 4) (o : BitVec 112)
  /-- SCL_OR (R128): Bitwise OR. -/
  | sclOr (core : Nat) (f : BitVec 4) (o : BitVec 112)
  /-- SCL_XOR (R128): Bitwise XOR. -/
  | sclXor (core : Nat) (f : BitVec 4) (o : BitVec 112)
  /-- SCL_SHL (R128): Logical shift left. -/
  | sclShl (core : Nat) (f : BitVec 4) (o : BitVec 112)
  /-- SCL_SHR (R128): Logical shift right. -/
  | sclShr (core : Nat) (f : BitVec 4) (o : BitVec 112)
  /-- SCL_SAR (R128): Arithmetic shift right. -/
  | sclSar (core : Nat) (f : BitVec 4) (o : BitVec 112)
  /-- SCL_MIN (R128): Signed minimum. -/
  | sclMin (core : Nat) (f : BitVec 4) (o : BitVec 112)
  /-- SCL_MAX (R128): Signed maximum. -/
  | sclMax (core : Nat) (f : BitVec 4) (o : BitVec 112)
  /-- SCL_SLT (R128): Signed set-less-than. -/
  | sclSlt (core : Nat) (f : BitVec 4) (o : BitVec 112)
  /-- SCL_SLTU (R128): Unsigned set-less-than. -/
  | sclSltu (core : Nat) (f : BitVec 4) (o : BitVec 112)
  /-- SCL_LI (R128): Loads a 64-bit immediate. -/
  | sclLi (core : Nat) (f : BitVec 4) (o : BitVec 112)
  /-- SCL_LD (R129): Loads 8 bytes from scratchpad into SD. -/
  | sclLd (core : Nat) (f : BitVec 4) (o : BitVec 112) (errs : List MemErr)
  /-- SCL_ST (R129): Stores SB's 8 bytes to scratchpad. -/
  | sclSt (core : Nat) (f : BitVec 4) (o : BitVec 112)
  /-- SCL_SRD (R89): Reads a special register. -/
  | sclSrd (core : Nat) (f : BitVec 4) (o : BitVec 112)
  /-- SCL_SRW (R90): Writes a special register. -/
  | sclSrw (core : Nat) (f : BitVec 4) (o : BitVec 112)
  /-- SCL_SRC (R130): Clears bits of a W1C special register. -/
  | sclSrc (core : Nat) (f : BitVec 4) (o : BitVec 112)
  /-- WAITM (R131): Puts the context into WAITM once its long operations are complete. -/
  | waitm (core : Nat) (f : BitVec 4) (o : BitVec 112)
  /-- WAITM_TIMEOUT (R131): A WAITM's TIMEOUT expires and the context leaves WAITM. -/
  | waitmTimeout (core : Nat) (ctx : Nat)
  /-- ISTORE_RELOAD (R472): An uncorrectable instruction word is reloaded from the program image and fetched again. -/
  | istoreReload (core index : Nat)
  /-- CMD_NOP (R513): Host command that does nothing and completes. -/
  | cmdNop (q : Nat) (cmd : List Byte)
  /-- PROG_LOAD (R513): Loads a program image into a core's instruction store. -/
  | progLoad (q : Nat) (cmd : List Byte)
  /-- CORE_START (R513): Starts the named contexts of a core at their PCs. -/
  | coreStart (q : Nat) (cmd : List Byte)
  /-- CORE_STOP (R513): Stops the named contexts, which halt once their long operations complete. -/
  | coreStop (q : Nat) (cmd : List Byte)
  /-- EVENT_ADD (R513): Adds INC to an event counter of a core. -/
  | eventAdd (q : Nat) (cmd : List Byte)
  /-- CMD_FENCE (R511): Completes only after every earlier command of its queue. -/
  | cmdFence (q : Nat) (cmd : List Byte)
  /-- SQ_TAIL_DOORBELL (R511): Host doorbell that makes the queue fetch commands. -/
  | sqTailDoorbell (master queue tail : Nat)
  /-- QCFG_ENABLE_WRITE (R511): Enabling a queue resets its indices and checks its rings against windows. -/
  | qcfgEnableWrite (master queue value : Nat)
  /-- CQ_HEAD_WRITE (R516): Host consumes completion entries, releasing entries held for a full queue. -/
  | cqHeadWrite (master queue head : Nat)
  /-- FR_HEAD_WRITE (R510): Host consumes fault-ring entries. -/
  | frHeadWrite (master head : Nat)
  /-- REG_WRITE (R6): Write to a register with no behaviour of its own, subject to the burgee. -/
  | regWrite (master offset width value : Nat)
  /-- RC_FIELD_READ (R6): Read of an RC field that returns and clears it when the reader is the owner. -/
  | rcFieldRead (master offset width : Nat)
  /-- GTIME_READ (R272): Read of GTIME that latches GTIME_FRAC. -/
  | gtimeRead (master width : Nat)
  /-- NODE_ID_WRITE (R17): Owner write of NODE_ID, dropped once locked. -/
  | nodeIdWrite (master value : Nat)
  /-- BAND_VIEW_WRITE (R26): Assigns bands to the spread or die-local view for later accesses. -/
  | bandViewWrite (master word value : Nat)
  /-- CLIP_LIMIT_WRITE (R58): Writes CLIP_LIMIT and compares every clip counter with it. -/
  | clipLimitWrite (master core value : Nat)
  /-- CLIPCNT_WRITE (R61): Writes a clip counter, which is compared with CLIP_LIMIT. -/
  | clipcntWrite (master core bank value : Nat)
  /-- NUM_STATUS_CLEAR (R59): Clears WIDEN and the other sticky flags, clearing FIRST_BANK. -/
  | numStatusClear (master core value : Nat)
  /-- CTX_FLAGGED_CLEAR (R334): Owner clears a stream's FLAGGED bit so it may grant again. -/
  | ctxFlaggedClear (master slot : Nat)
  /-- RETIRE_ACK (R244): Acknowledges a pending line retirement by sequence number. -/
  | retireAck (master seq : Nat)
  /-- LEDGER_APPEND (R453): Appends a defect-ledger entry within 10 ms of its cause. -/
  | ledgerAppend
  /-- TIME_SET_WRITE (R258): Sets GTIME while the time state is FREE. -/
  | timeSetWrite (master ns : Nat)
  /-- ROOT_ENABLE_WRITE (R253): Makes the device a time-root candidate or withdraws it. -/
  | rootEnableWrite (master value : Nat)
  /-- BEAT_CFG_WRITE (R259): Writes BEAT_T0, BEAT_LEN, BEAT_MIN or LAG_LIMIT, or rejects the write. -/
  | beatCfgWrite (master field value : Nat)
  /-- BEAT_ENABLE_WRITE (R265): Changes BEAT_CTL.ENABLE, taking effect at each core's next beat end. -/
  | beatEnableWrite (master value : Nat)
  /-- PIN_CFG_WRITE (R320): Writes PIN_CFG or PIN_PEER, or rejects the write. -/
  | pinCfgWrite (master : Nat) (slot : Option Nat) (value : Nat)
  /-- PROG_VALIDATE (R378): Validates an update program image in a slot. -/
  | progValidate (master slot : Nat)
  /-- SHARD_VALIDATE (R382): Validates or invalidates a shard table entry. -/
  | shardValidate (master entry : Nat)
  /-- COMMIT_ABORT (R391): Owner abort that votes OWNER_ABORT at once. -/
  | commitAbort (master : Nat)
  /-- FORCE_COMMIT (R394): Decides an undecided step as a commit. -/
  | forceCommit (master : Nat)
  /-- FORCE_ABORT (R394): Decides an undecided step as an abort. -/
  | forceAbort (master : Nat)
  /-- COMMIT_GROUP_WRITE (R588): Rewrites the commit group and checks it again when a vote is waiting. -/
  | commitGroupWrite (master : Nat) (addr : Bool) (value : Nat)
  /-- BURGEE_RENEW (R496): Owner restores the burgee lease. -/
  | burgeeRenew (master : Nat)
  /-- BURGEE_RELEASE (R497): Owner gives up the burgee at once. -/
  | burgeeRelease (master : Nat)
  /-- BURGEE_HANDOVER (R497): Owner names a successor and the burgee becomes HANDING. -/
  | burgeeHandover (master succ node : Nat)
  /-- CLAIM_GO (R493): A master starts verification of its claim blob. -/
  | claimGo (master : Nat)
  /-- CLAIM_VERIFIED (R495): Claim verification ends and the claim wins or is rejected. -/
  | claimVerified (authOk claimOk : Bool)
  /-- BURGEE_EXPIRED (R496): The lease reaches 0 and the burgee becomes VACANT. -/
  | burgeeExpired
  /-- HANDOVER_EXPIRY (R497): No successor claim wins within 1 s, and the burgee becomes VACANT. -/
  | handoverExpiry
  /-- FW_UPDATE_GO (R520): Starts checking a firmware image for the non-booted slot. -/
  | fwUpdateGo (master : Nat)
  /-- FW_UPDATE_DONE (R520): The firmware check ends, writing the slot or rejecting the image. -/
  | fwUpdateDone (ok : Bool)
  /-- FW_MIN_VERSION_WRITE (R521): Raises FW_MIN_VERSION within its bounds. -/
  | fwMinVersionWrite (master svn : Nat)
  /-- KEY_UPDATE_GO (R522): Starts verification of a key update blob. -/
  | keyUpdateGo (master : Nat)
  /-- KEY_UPDATE_DONE (R522): The key update is applied or rejected. -/
  | keyUpdateDone (ok : Bool)
  /-- VARIANT_UPDATE_GO (R451): Starts verification of a new variant record. -/
  | variantUpdateGo (master : Nat)
  /-- VARIANT_UPDATE_DONE (R451): The new variant record is stored or rejected. -/
  | variantUpdateDone (ok : Bool)
  /-- ATTEST_GO (R525): A master requests a quote over its nonce. -/
  | attestGo (master : Nat)
  /-- QUOTE_DONE (R525): The signed quote is written into the attestation block. -/
  | quoteDone (sig : List Byte)
  /-- WATCHDOG_KICK (R526): Firmware restarts the watchdog second. -/
  | watchdogKick
  /-- WATCHDOG_RESTART (R526): A second without a kick restarts the management core, or resets the device on repeat. -/
  | watchdogRestart
  /-- PWR_ENTER_P1 (R536): Owner asks the device to enter P1 and blocks are polled. -/
  | pwrEnterP1 (master : Nat)
  /-- PWR_ENTER_P2 (R536): Owner asks the device to enter P2 and blocks are polled. -/
  | pwrEnterP2 (master : Nat)
  /-- PWR_ENTER_P3 (R536): Owner asks the device to enter P3 and blocks are polled. -/
  | pwrEnterP3 (master : Nat)
  /-- ENTRY_REASK (R536): 100 µs after a DELAY the controller asks the blocks again. -/
  | entryReask
  /-- ENTRY_DELAY_EXPIRED (R537): Delays pass DELAY_MAX_US and the entry is abandoned. -/
  | entryDelayExpired
  /-- ENTRY_COMPLETE (R538): The entry finishes powering down in fixed order. -/
  | entryComplete
  /-- POWER_EXIT_DONE (R533): Exit from P1, P2 or P3 ends, resetting cores as required. -/
  | powerExitDone (r : StageResult)
  /-- CORE_PWR_WAKE (R541): Owner write that is a core wake event. -/
  | corePwrWake (master core : Nat)
  /-- WAKE_SEND (R544): Sends the wake pattern on the named ports whose partners sleep. -/
  | wakeSend (master ports : Nat)
  /-- MON_RXD_WAKE (R542): MON_RXD held low wakes the device from a low-power state. -/
  | monRxdWake
  /-- WAKE_N_RELEASE (R578): WAKE_N is released after 100 ms if the host port has not reached L0. -/
  | wakeNRelease
  /-- PKG_POWER_SAMPLE (R545): Package power is measured and the clock capped or restored. -/
  | pkgPowerSample (watts : Nat)
  /-- DIE_TEMP_SAMPLE (R546): A die temperature sample steps the die clock down or up. -/
  | dieTempSample (die temp : Nat)
  /-- RESET_N (R576): A RESET_N low of 10 µs or more resets the device, and its release starts stage 0. -/
  | resetN (slot : Nat)
  /-- PERST_N (R505): PERST_N or a hot reset resets the host port and vacates a host-held burgee. -/
  | perstN
  /-- HOST_LINK_DOWN (R498): Loss of the host link vacates a host-held burgee. -/
  | hostLinkDown
  /-- FLR (R505): Function level reset of the host port, honoured only for the owner or when VACANT. -/
  | flr
  /-- AON_POWER_LOSS (R574): VDD_AON_3V3 falling below 3.0 V turns lasers off and holds reset. -/
  | aonPowerLoss
  /-- BAR2_READ (R503): Host read through the BAR2 board window. -/
  | bar2Read (offset len : Nat) (errs : List MemErr)
  /-- BAR2_WRITE (R503): Host write through the BAR2 board window. -/
  | bar2Write (offset : Nat) (bytes : List Byte)
  /-- I3C_READ32 (R490): Board controller reads a 32-bit register. -/
  | i3cRead32 (offset : Nat)
  /-- I3C_READ64 (R490): Board controller reads a 64-bit register. -/
  | i3cRead64 (offset : Nat)
  /-- I3C_WRITE32 (R490): Board controller writes a 32-bit register, subject to the burgee. -/
  | i3cWrite32 (offset value : Nat)
  /-- I3C_WRITE64 (R490): Board controller writes a 64-bit register, subject to the burgee. -/
  | i3cWrite64 (offset value : Nat)
  /-- I3C_ARM (R490): Arms EPO or RESET for 100 ms. -/
  | i3cArm (code : Nat)
  /-- I3C_ARM_EXPIRY (R490): The 100 ms arming window ends and disarms. -/
  | i3cArmExpiry
  /-- I3C_EPO (R491): Armed emergency power-off. -/
  | i3cEpo (code : Nat)
  /-- I3C_RESET (R491): Armed device reset from the board controller. -/
  | i3cReset (code slot : Nat)
  /-- I3C_CLAIM_CHUNK (R490): Writes bytes into the board controller's claim buffer. -/
  | i3cClaimChunk (offset : Nat) (bytes : List Byte)
  /-- I3C_ADDR_ASSIGN (R490): Dynamic address assignment by SETDASA or ENTDAA. -/
  | i3cAddrAssign (addr : Nat)
  /-- MGMT_REG_READ (R517): Management register read, answered by REG_REPLY. -/
  | mgmtRegRead (p : Packet)
  /-- MGMT_REG_WRITE (R517): Management register write, subject to the burgee. -/
  | mgmtRegWrite (p : Packet)
  /-- MGMT_CLAIM_CHUNK (R517): Fabric manager writes a chunk of its claim blob. -/
  | mgmtClaimChunk (p : Packet)
  /-- MGMT_FABRIC_CMD (R309): Receives a chunk of a signed fabric command. -/
  | mgmtFabricCmd (p : Packet)
  /-- MGMT_COMMAND (R517): Executes a host-format command for the owning fabric manager. -/
  | mgmtCommand (p : Packet)
  /-- MGMT_BUNTING_READ (R316): Answers with the last complete bunting map in 8 packets. -/
  | mgmtBuntingRead (p : Packet)
  /-- MGMT_SHARD_READ (R517): Reads bytes of a shard stream's region CUR and answers with SHARD_DATA. -/
  | mgmtShardRead (p : Packet)
  /-- FABRIC_CMD_VERIFIED (R311): The security engine finishes verifying a fabric command, accepting or rejecting it. -/
  | fabricCmdVerified (good : Bool)
  /-- FABRIC_CMD_TIMEOUT (R311): Command packets do not arrive within 10 ms, so the command is rejected. -/
  | fabricCmdTimeout
  /-- SLICE_COMMAND (R311): A verified slice command takes effect at its APPLY_TIME. -/
  | sliceCommand
  /-- TABLE_COMMAND (R295): A verified table command loads the inactive bank and exchanges banks at APPLY_TIME. -/
  | tableCommand
  /-- ROUTER_CYCLE (R298): The router assigns every presented packet to ejection, a productive port, a hold or a deflection. -/
  | routerCycle (arrivals : List (Nat × Packet)) (board optical : List Nat)
  /-- AGE_DROP (R303): A packet reaching MAX_AGE is dropped. -/
  | ageDrop (port : Nat) (p : Packet)
  /-- BUNTING_INTERVAL (R315): At each interval boundary the router freezes its map and starts a new one. -/
  | buntingInterval (corr : List Nat)
  /-- CODEWORD_UNCORRECTABLE (R284): An uncorrectable FEC codeword discards its packet slots and opens a replay request. -/
  | codewordUncorrectable (port : Nat) (lost : Option (Nat × Nat)) (lane : Nat)
  /-- REPLAY_REQUEST (R285): A newer replay request makes the sender re-inject each named packet once. -/
  | replayRequest (port num : Nat) (ranges : List (Nat × Nat))
  /-- CONTROL_SLOT_RECEIVE (R277): A control slot delivers acknowledgements, echoes and lane management fields. -/
  | controlSlotReceive (port : Nat) (slot : List Byte)
  /-- HALYARD_SEND (R278): At each 1 µs tick a halyard message goes out on every trained port. -/
  | halyardSend
  /-- HALYARD_RECEIVE (R255): A halyard message updates parent choice, time state, slice check and configuration check. -/
  | halyardReceive (port : Nat) (msg : BitVec 128)
  /-- TIME_HOLDOVER (R257): No valid parent message for 100 µs puts a LOCKED device into HOLDOVER. -/
  | timeHoldover
  /-- DELAY_MEASUREMENT (R255): Each 1 ms the link delay is measured again and the rate re-planned. -/
  | delayMeasurement (port : Nat)
  /-- PORT_NARROWED (R312): Too many uncorrectable codewords in 1 ms remove a lane, or retire a port at 6 lanes. -/
  | portNarrowed (port lane : Nat)
  /-- LANE_MARKER_RECEIVE (R413): A lane marker announces the far end's mask and mode. -/
  | laneMarkerReceive (port lane : Nat) (marker : Option (BitVec 64))
  /-- LANE_LOST (R413): Two consecutive bad or missing markers lose a lane, which is removed by marker. -/
  | laneLost (port lane : Nat)
  /-- PAUSE_TIMEOUT (R420): A pause longer than PAUSE_MAX_MS retires the port. -/
  | pauseTimeout (port : Nat)
  /-- LANE_REMOVE (R415): LANE op requesting removal of a lane. -/
  | laneRemove (port lane reason num : Nat)
  /-- LANE_ADD (R415): LANE op requesting addition of a lane. -/
  | laneAdd (port lane reason num : Nat) (passed : Bool)
  /-- LANE_ACK (R415): LANE op acknowledging a request, which is then acted on. -/
  | laneAck (port lane num : Nat)
  /-- LANE_NAK (R415): LANE op refusing a removal. -/
  | laneNak (port lane num : Nat)
  /-- LANE_CAL_STEP (R415): LANE op carrying a calibration sweep point and its eye. -/
  | laneCalStep (port lane : Nat) (point : SweepPoint) (num : Nat)
  /-- RING_LOOP_UPDATE (R410): Each ring's heater loop updates once per µs. -/
  | ringLoopUpdate (port lane : Nat) (rx : Bool) (err : Int) (sample : RingSample) (heater : Nat)
  /-- RING_UNLOCK (R418): A ring loses lock after 3 bad updates and its lane is removed. -/
  | ringUnlock (port lane : Nat)
  /-- RING_RELOCK (R418): A relock attempt runs its searches, lock and lane test. -/
  | ringRelock (port lane : Nat) (ok : Bool) (heat : RingHeat) (engine : EngineTemp)
  /-- CALIBRATION_TURN (R421): A port's calibration interval elapses and the next lane is calibrated or retried. -/
  | calibrationTurn (port : Nat)
  /-- CALIBRATION_DONE (R422): A lane calibration ends, recording the eye and re-adding the lane. -/
  | calibrationDone (port eye tx rx : Nat)
  /-- BOARD_ADAPT_TURN (R461): A board port re-adapts one lane per interval. -/
  | boardAdaptTurn (port eye : Nat)
  /-- LASER_POWER_SAMPLE (R425): A 1 ms sample adjusts the active laser's bias to hold P_c. -/
  | laserPowerSample (engine chan : Nat) (power : Int) (bias : Nat) (freq : Int)
  /-- LASER_FADE (R426): 1,000 samples at or below the spare threshold confirm a fade. -/
  | laserFade (engine chan : Nat)
  /-- LASER_EOL (R426): 1,000 samples at or below the end-of-life threshold retire the laser. -/
  | laserEol (engine chan : Nat)
  /-- LASER_FAIL (R426): A laser stops lasing or drops sharply and is retired. -/
  | laserFail (engine chan : Nat)
  /-- LASER_HANDOVER (R427): A bobbin hands over from its active laser to its spare. -/
  | laserHandover (engine chan : Nat) (ok : Bool)
  /-- LAUNCH_CAP (R431): Launch power above 10.5 dBm closes the attenuator and enters safe pulse mode. -/
  | launchCap (port : Nat) (launch : Int)
  /-- OPEN_FIBRE (R432): 20 µs of input below -18 dBm puts the port into safe pulse mode. -/
  | openFibre (port : Nat) (input : Int)
  /-- PARTNER_PULSES_SEEN (R432): Partner pulses in 3 consecutive periods make the port retrain. -/
  | partnerPulsesSeen (r : TrainResult)
  /-- OPTICAL_WAKE_PATTERN (R435): An optical wake pattern is detected on lane 0. -/
  | opticalWakePattern (port : Nat)
  /-- BOARD_WAKE_PATTERN (R543): A board-link wake pattern is detected. -/
  | boardWakePattern (port : Nat)
  /-- TRAIN_WINDOW_EXPIRY (R430): A port with no partner at the end of the training window stays untrained. -/
  | trainWindowExpiry (port : Nat)
  /-- DIE_LINK_RETRY (R473): A die-link flit fails its CRC and is retried. -/
  | dieLinkRetry (link lane : Nat) (spare : Bool) (lanes : Nat)
  /-- VR_DROOP (R474): A regulator droop is recorded, and a long or fourth droop is a regulator fault. -/
  | vrDroop (core : Nat) (long : Bool) (mv setpoint : Nat)
  /-- PATH_DELAY_SAMPLE (R477): Each 1 ms the path margin is measured and the voltage raised when needed. -/
  | pathDelaySample (phys : Nat) (margin : Int)
  /-- RING_OSCILLATOR_SAMPLE (R477): Each 60 s the ring oscillators measure their frequency shift. -/
  | ringOscillatorSample (phys : Nat) (shift : Int)
  /-- AGEING_RECORD (R478): At each day of operation the retention test, ageing record and re-planning run. -/
  | ageingRecord (margins : List (Nat × Nat)) (drifts trends : List (Nat × Int))
  /-- STACK_TEMP_SAMPLE (R247): A stack temperature sample may throttle the stack or trip the package. -/
  | stackTempSample (stack temp : Nat)
  /-- STACK_THROTTLE_DWELL (R247): After DWELL the throttle steps further or back. -/
  | stackThrottleDwell (stack : Nat)
  /-- THROTTLE_WINDOW (R246): A 1 µs metering window ends and the stack budget is renewed. -/
  | throttleWindow (stack reserved general : Nat)
  /-- STACK_SCRUB (R238): The base die scrubs the next code line. -/
  | stackScrub (stack : Nat) (syms : List (Nat × Nat))
  /-- SPAD_SCRUB (R220): Each 1,024 cycles the scratchpad scrub reads one segment per bank. -/
  | spadScrub (core : Nat) (errs : List MemErr)
  /-- PC_RETIRED (R239): A pseudo-channel with too many uncorrectable or corrected lines is retired. -/
  | pcRetired (pc : Nat)
  /-- DATA (R332): A stream DATA packet is checked, de-duplicated and written under its token. -/
  | data (p : Packet)
  /-- LANDING (R332): A collective LANDING packet is written into its landing part. -/
  | landing (p : Packet)
  /-- SHARE (R349): A CRSC share is decoded and added into its bucket in FP32. -/
  | share (p : Packet)
  /-- GATHER_REQ (R348): An owner serves, holds or refuses a gather request. -/
  | gatherReq (p : Packet)
  /-- PERM_OFFER (R351): A CPERM destination binds the first offer and refuses later ones. -/
  | permOffer (p : Packet)
  /-- ADOPT (R353): An adopted multicast node binds to its adopter. -/
  | adopt (p : Packet)
  /-- PARTIAL_UP (R355): A CRED subtree partial is combined. -/
  | partialUp (p : Packet)
  /-- RESULT_DOWN (R355): CRED result pairs are written and forwarded down. -/
  | resultDown (p : Packet)
  /-- BAR_ARRIVE (R356): A barrier arrival is counted up the tree. -/
  | barArrive (p : Packet)
  /-- BAR_RELEASE (R356): A barrier release completes the member and is forwarded down. -/
  | barRelease (p : Packet)
  /-- SUBTREE_DONE (R353): A child reports its multicast subtree done with its pruned count. -/
  | subtreeDone (p : Packet)
  /-- GRANT (R326): GRANT entries raise LIMIT and ACK or bind and close bindings. -/
  | grant (p : Meets Packet)
  /-- GRANT_RETURN (R330): A sender returns surplus tokens and the receiver lowers LIMIT. -/
  | grantReturn (p : Packet)
  /-- NOTICE_PRUNE (R353): A multicast child is pruned and its children adopted. -/
  | noticePrune (p : Packet)
  /-- NOTICE_VERSION_GONE (R348): The gather's status becomes VERSION_GONE. -/
  | noticeVersionGone (p : Packet)
  /-- NOTICE_EPOCH_STALE (R350): The collective is refused as of an older epoch. -/
  | noticeEpochStale (p : Packet)
  /-- NOTICE_PERM_CONFLICT (R351): A refused CPERM offer completes with PERM_CONFLICT. -/
  | noticePermConflict (p : Packet)
  /-- NOTICE_FLAGGED (R348): A gather completes with SHARD_MISMATCH. -/
  | noticeFlagged (p : Packet)
  /-- NOTICE_CLOSED (R358): The peer closed the binding. -/
  | noticeClosed (p : Packet)
  /-- LS_READ (R337): A board load request is served at the target. -/
  | lsRead (p : Packet) (errs : List MemErr)
  /-- LS_WRITE (R337): A board store is applied at the target and acknowledged. -/
  | lsWrite (p : Meets Packet)
  /-- SIGNAL (R336): A board SSIG adds to a target core's event counter. -/
  | signal (p : Packet)
  /-- LS_REPLY_DATA (R336): Load data lands in its reserved line slot. -/
  | lsReplyData (p : Packet)
  /-- WRITE_ACK (R337): A store acknowledgement completes the store. -/
  | writeAck (p : Packet)
  /-- SIGNAL_ACK (R336): A signal acknowledgement restores a credit. -/
  | signalAck (p : Packet)
  /-- DATA_POISON (R338): A poisoned load reply is handled as poison consumed. -/
  | dataPoison (p : Packet)
  /-- LS_REPLY_FAULT (R338): A FAULT reply completes the instruction with a remote fault. -/
  | lsReplyFault (p : Packet)
  /-- E2E_RETRANSMIT (R331): E2E_TIMEOUT passes without an ACK and the SEQ is re-sent. -/
  | e2eRetransmit (board : Bool) (peer bind : Nat) (seq : Meets Nat)
  /-- GRANT_RESEND (R326): Every 250 µs without arrivals, the latest GRANT entry is sent again. -/
  | grantResend (peer bind : Nat)
  /-- ACK_GRANT_SEND (R332): A GRANT with a new ACK goes out within 1 µs of consumption. -/
  | ackGrantSend (peer : Nat)
  /-- SWAP_WINDOW (R321): At each grid boundary stream contexts are evicted and loaded. -/
  | swapWindow
  /-- BEAT_BOUNDARY (R263): The local beat boundary comes and waiting SBEATs complete. -/
  | beatBoundary (core : Nat)
  /-- SLIP (R269): Live lag passes LAG_LIMIT beats. -/
  | slip (core : Nat)
  /-- STEP_LATE (R269): Live lag passes four times the SLIP threshold. -/
  | stepLate (core : Nat)
  /-- UPDATE_PASS_START (R371): An idle engine takes the next queued bucket pass. -/
  | updatePassStart (engine : Nat) (bad : Bool) (errs : List MemErr)
  /-- UPDATE_PASS_DONE (R372): A pass ends and the bucket moves to WAIT_X, PASS2 or DONE. -/
  | updatePassDone (engine : Nat)
  /-- FOLD_AND_EXCHANGE (R384): A shard's row statistics are folded and column sums exchanged. -/
  | foldAndExchange (entry : Meets Nat)
  /-- UPD_RESIDUE_RETRY (R396): An update residue mismatch reruns the pass. -/
  | updResidueRetry (engine lane : Nat)
  /-- SPARSE_UPDATE (R386): After both CA2As complete, the sparse shard's rows are summed and updated. -/
  | sparseUpdate (entry : Meets Nat)
  /-- COMMIT_VOTE (R391): A device with all shards complete casts its commit vote. -/
  | commitVote
  /-- COMMIT_RESULT (R392): The vote result arrives and the commit or abort proceeds. -/
  | commitResult
  /-- COMMIT_FLIP (R392): At the commit beat every shard flips its version. -/
  | commitFlip
  /-- COMMIT_UNDECIDED (R394): The vote fails or times out and the device waits for the owner. -/
  | commitUndecided (expired : Bool)
  /-- STAGE_END (R441): A bring-up stage ends and the next starts or bring-up stops. -/
  | stageEnd (r : StageResult)
  /-- STAGE_TIMEOUT (R442): A stage exceeds its budget and fails. -/
  | stageTimeout
  /-- MON_HELP (R560): Monitor lists its commands. -/
  | monHelp (line : List Byte)
  /-- MON_ID (R560): Monitor reports identity fields. -/
  | monId (line : List Byte)
  /-- MON_PEN (R560): Monitor reports pennants. -/
  | monPen (line : List Byte)
  /-- MON_RD (R560): Monitor reads a register. -/
  | monRd (line : List Byte)
  /-- MON_WR (R560): Monitor writes a register. -/
  | monWr (line : List Byte)
  /-- MON_DUMP (R560): Monitor dumps device-local memory. -/
  | monDump (line : List Byte)
  /-- MON_SHARD (R560): Monitor reads shard region CUR. -/
  | monShard (line : List Byte)
  /-- MON_BUNT (R561): Monitor reports a complete bunting map. -/
  | monBunt (line : List Byte)
  /-- MON_LEDGER (R560): Monitor lists ledger entries. -/
  | monLedger (line : List Byte)
  /-- MON_BEAT (R560): Monitor reports time and beat state. -/
  | monBeat (line : List Byte)
  /-- MON_TEMP (R560): Monitor reports temperatures and power. -/
  | monTemp (line : List Byte)
  /-- MON_FAULTS (R560): Monitor lists recent fault records. -/
  | monFaults (line : List Byte)
  /-- MON_CLAIM_CHUNK (R560): Monitor writes bytes into claim buffer 4. -/
  | monClaimChunk (line : List Byte)
  /-- MON_CLAIM_GO (R560): Monitor starts its claim. -/
  | monClaimGo (line : List Byte)
  /-- MON_BURGEE_RENEW (R560): Monitor renews its lease. -/
  | monBurgeeRenew (line : List Byte)
  /-- MON_BURGEE_RELEASE (R560): Monitor releases the burgee. -/
  | monBurgeeRelease (line : List Byte)
  /-- MON_QUOTE (R560): Monitor obtains an attestation quote. -/
  | monQuote (line : List Byte)
  /-- MON_STAGE (R560): Monitor writes bytes into device memory. -/
  | monStage (line : List Byte)
  /-- MON_FWUPD (R560): Monitor starts a firmware update. -/
  | monFwupd (line : List Byte)
  /-- MON_VARIANT (R560): Monitor starts a variant record update. -/
  | monVariant (line : List Byte)
  /-- MON_KEYUPD (R560): Monitor starts a key update. -/
  | monKeyupd (line : List Byte)
  /-- MON_BAUD (R554): Monitor changes its baud rate. -/
  | monBaud (line : List Byte)
  /-- MON_BAUD_REVERT (R554): No valid line within 5 s of a switch returns the port to 115,200 baud. -/
  | monBaudRevert
  /-- ILLEGAL_CLASS (R85): An instruction whose CLASS is 0x9 to 0xF reaches issue and faults its context with event 0x0301. -/
  | illegalClass (core : Nat) (w : BitVec 128)
  /-- ILLEGAL_OP (R85): An instruction whose OP is not defined for its class reaches issue and faults its context with event 0x0302. -/
  | illegalOp (core : Nat) (w : BitVec 128)
  /-- BAD_COMMAND (R515): A host or MGMT command with a reserved OP completes with status BAD_COMMAND and starts nothing. -/
  | badCommand (q : Nat) (cmd : List Byte)
  /-- MON_UNKNOWN (R559): A monitor line whose command word names no command is answered with ER 03 UNKNOWN and counted in MON_ERRORS. -/
  | monUnknown (line : List Byte)
  /-- I3C_BAD_COMMAND (R490): An I3C private write with an undefined command byte answers status 0x02 and clears any arming. -/
  | i3cBadCommand (command : Nat)
  /-- FACTORY_COMMAND (R455): A Ceisk factory command signed by the factory key appends REVOKE entries, or changes authority slot 0, after hardware verification. -/
  | factoryCommand (ok : Bool) (revokes : List Nat) (key : Option (List Byte))
  /-- PCIE_L1_EXIT (R542): The host brings the PCIe link out of L1 or L1.2, or the link reaches L0, waking a device in P1 to P3 and releasing WAKE_N. -/
  | pcieL1Exit
  /-- RAIL_TRIP (R547): A supply rail leaving its trip window trips the package: lasers off, THERMTRIP_N low, supplies off and TRIP_CAUSE recorded. -/
  | railTrip (rail mv : Nat)
  deriving DecidableEq, Repr

end Sys2Proof
end

