-- ==== Sys2Proof/Machine/Maps.lean ====
section
/-! DEFINITION. Reading and writing the sparse maps, bit fields and little-endian bytes. -/

namespace Sys2Proof.Machine

/-- The value at key `k`, or `d` where the map lists none. -/
def smapGet {α : Type} (m : SMap α) (k : Nat) (d : α) : α :=
  match m with
  | [] => d
  | (k', v) :: t => if k' = k then v else smapGet t k d

/-- The value at key `k`, if the map lists one. -/
def smapFind {α : Type} (m : SMap α) (k : Nat) : Option α :=
  match m with
  | [] => none
  | (k', v) :: t => if k' = k then some v else smapFind t k

/-- The map with `v` at key `k`, in rising key order. -/
def smapSet {α : Type} (m : SMap α) (k : Nat) (v : α) : SMap α :=
  match m with
  | [] => [(k, v)]
  | (k', v') :: t =>
    if k < k' then (k, v) :: (k', v') :: t
    else if k = k' then (k, v) :: t
    else (k', v') :: smapSet t k v

/-- The map without keys for which `p` holds. -/
def smapDrop {α : Type} (m : SMap α) (p : Nat → Bool) : SMap α :=
  m.filter (fun e => !p e.1)

/-- The map with the value at `k` (default `d`) changed by `f`. -/
def smapMod {α : Type} (m : SMap α) (k : Nat) (d : α) (f : α → α) : SMap α :=
  smapSet m k (f (smapGet m k d))

/-- The list with element `i` replaced, unchanged where there is none. -/
def listSet {α : Type} (l : List α) (i : Nat) (v : α) : List α :=
  match l, i with
  | [], _ => []
  | _ :: t, 0 => v :: t
  | x :: t, i + 1 => x :: listSet t i v

/-- Element `i`, or `d`. -/
def listGet {α : Type} (l : List α) (i : Nat) (d : α) : α :=
  match l, i with
  | [], _ => d
  | x :: _, 0 => x
  | _ :: t, i + 1 => listGet t i d

/-- Bits `[lo + w - 1 : lo]` of a number. -/
def natBits (x lo w : Nat) : Nat := (x >>> lo) % 2 ^ w

/-- One bit of a number. -/
def natBit (x i : Nat) : Bool := natBits x i 1 == 1

/-- `x` with bits `[lo + w - 1 : lo]` replaced by the low `w` bits of `v`. -/
def natPut (x lo w v : Nat) : Nat :=
  x - (natBits x lo w) * 2 ^ lo + (v % 2 ^ w) * 2 ^ lo

/-- Bits `[lo + w - 1 : lo]` of a bit vector, as a number. -/
def bvBits {n : Nat} (x : BitVec n) (lo w : Nat) : Nat := natBits x.toNat lo w

/-- `x` with bits `[lo + w - 1 : lo]` replaced by the low `w` bits of `v`. -/
def bvPut {n : Nat} (x : BitVec n) (lo w v : Nat) : BitVec n := BitVec.ofNat n (natPut x.toNat lo w v)

/-- The number whose two's complement in `w` bits is `x`. -/
def signedOf (w x : Nat) : Int := if x % 2 ^ w < 2 ^ (w - 1) then (x % 2 ^ w : Nat) else (x % 2 ^ w : Nat) - (2 ^ w : Nat)

/-- The `w`-bit two's complement of a number. -/
def wrapInt (w : Nat) (x : Int) : Nat := (x % (2 ^ w : Nat)).toNat

/-- `k` bytes of a number, least significant first (R8). -/
def leBytes (k x : Nat) : List Byte :=
  match k with
  | 0 => []
  | k + 1 => BitVec.ofNat 8 x :: leBytes k (x / 256)

/-- The number whose bytes, least significant first, are `bs` (R8). -/
def leNat (bs : List Byte) : Nat :=
  match bs with
  | [] => 0
  | b :: t => b.toNat + 256 * leNat t

/-- Numbers `lo, lo + 1, …`, `k` of them. -/
def rangeFrom (lo k : Nat) : List Nat :=
  match k with
  | 0 => []
  | k + 1 => lo :: rangeFrom (lo + 1) k

/-- Addition that stops at `2^32 - 1`. -/
def satAdd32 (a b : Nat) : Nat := min (a + b) 0xFFFFFFFF

end Sys2Proof.Machine
end

