-- ==== Sys2Proof/Machine/Crc.lean ====
section
/-! DEFINITION. The check codes of the records, packets, messages and markers (R261, R289, R413). -/

namespace Sys2Proof.Machine

/-- One bit of a reflected CRC-32 register. -/
def crc32Bit (k c : Nat) : Nat :=
  match k with
  | 0 => c
  | k + 1 => crc32Bit k (if c % 2 = 1 then (c / 2) ^^^ 0xEDB88320 else c / 2)

/-- The CRC-32 register after some bytes. -/
def crc32Go (c : Nat) (bs : List Byte) : Nat :=
  match bs with
  | [] => c
  | b :: t => crc32Go (crc32Bit 8 (c ^^^ b.toNat)) t

/-- CRC-32 as R289 gives it: polynomial 0x04C1_1DB7 reflected, all-ones start, complemented. -/
def crc32 (bs : List Byte) : Nat := (crc32Go 0xFFFFFFFF bs) ^^^ 0xFFFFFFFF

/-- One bit of an unreflected CRC register of `w` bits. -/
def crcMsbBit (w poly k c : Nat) : Nat :=
  match k with
  | 0 => c
  | k + 1 => crcMsbBit w poly k (if natBit c (w - 1) then ((c * 2) % 2 ^ w) ^^^ poly else c * 2)

/-- An unreflected CRC register of `w` bits after some bytes. -/
def crcMsbGo (w poly c : Nat) (bs : List Byte) : Nat :=
  match bs with
  | [] => c
  | b :: t => crcMsbGo w poly (crcMsbBit w poly 8 (c ^^^ (b.toNat * 2 ^ (w - 8)))) t

/-- CRC-16, polynomial 0x1021, start 0xFFFF (R261). -/
def crc16 (bs : List Byte) : Nat := crcMsbGo 16 0x1021 0xFFFF bs

/-- CRC-8, polynomial 0x07, start 0 (R413). -/
def crc8 (bs : List Byte) : Nat := crcMsbGo 8 0x07 0 bs

end Sys2Proof.Machine
end

