-- ==== Sys2Proof/Config.lean ====
section
/-! DEFINITION. What the specification leaves open: free values and functions, each without a body. -/

namespace Sys2Proof

/-- A byte the specification calls undefined: `salt` names the occasion that left it so, `a` the address.
Free (assumption log 5, DESIGN CHOICE). -/
opaque Config.freeByte (salt a : Nat) : BitVec 8

/-- The `k`-th free word a step draws (a random nonce, an unpredictable cell, an overlapped element).
Free (assumption log 5, DESIGN CHOICE). -/
opaque Config.freeWord (k : Nat) : BitVec 64

/-- SHAKE256 with 32 bytes of output, as R493, R519, R524 and R525 use it. The specification names the function
and does not define it; free (assumption log 8, DESIGN CHOICE). -/
opaque Config.shake256 (msg : List (BitVec 8)) : List (BitVec 8)

end Sys2Proof
end

