-- ==== Sys2Proof/Machine/RegTable.lean ====
section
/-! DEFINITION. The register tables of the chapters, one row for each 32-bit word: which bits a write sets, which a
1 clears, which a read by the owner clears, and the reset value (R6, R7, R30). -/

namespace Sys2Proof.Machine

/-- The words at `base + stride · i` for `i < count`: RW, W1C and RC masks (R6) and the reset value. -/
structure RegRow where
  base : Nat
  stride : Nat
  count : Nat
  rw : Nat
  w1c : Nat
  rc : Nat
  reset : Nat
  deriving DecidableEq, Repr

/-- Part 0 of the package register words. -/
def regRows0 : List RegRow := [
  ⟨0x0, 4, 1, 0x0, 0x0, 0x0, 0x4a58⟩,  -- R30 DEV_ID.FAMILY, DEV_ID.PART
  ⟨0x4, 4, 1, 0x0, 0x0, 0x0, 0x0⟩,  -- R30 SILICON_REV.MINOR, SILICON_REV.MAJOR
  ⟨0x10, 4, 1, 0x4000fff8, 0x0, 0x0, 0x0⟩,  -- R30 NODE_ID.SLOT, NODE_ID.BOARD, NODE_ID.RACK, NODE_ID.VALID, NODE_ID.LOCKED
  ⟨0x14, 4, 1, 0x0, 0x0, 0x0, 0x3400⟩,  -- R30 CORE_CONFIG.LOGICAL_PER_DIE, CORE_CONFIG.PHYS_PER_DIE, CORE_CONFIG.LOGICAL_TOTAL, CORE_CON
  ⟨0x18, 4, 1, 0x0, 0x0, 0x0, 0x1400⟩,  -- R30 MEM_CONFIG.GIB_PER_STACK, MEM_CONFIG.STACKS, MEM_CONFIG.BANDS
  ⟨0x100, 4, 1, 0xffffffff, 0x0, 0x0, 0x0⟩,  -- R201 RNG_SEED.SEED
  ⟨0x104, 4, 1, 0xffffffff, 0x0, 0x0, 0x0⟩,  -- R201 RNG_SEED.SEED
  ⟨0x800, 4, 1, 0x0, 0x0, 0x0, 0x10⟩,  -- R463 BRINGUP_STATUS.STAGE, BRINGUP_STATUS.STATUS, BRINGUP_STATUS.READY
  ⟨0x804, 4, 1, 0x0, 0x0, 0x0, 0x0⟩,  -- R463 START_COUNT.COUNT
  ⟨0x880, 8, 4, 0x0, 0x0, 0x0, 0x0⟩,  -- R463 DIE_CORES_d.RETIRED
  ⟨0x884, 8, 4, 0x0, 0x0, 0x0, 0x0⟩,  -- R463 DIE_CORES_d.RETIRED, DIE_CORES_d.SPARES_FREE
  ⟨0x8a0, 8, 3, 0x0, 0x0, 0x0, 0x0⟩,  -- R463 CORE_ABSENT_w.MASK
  ⟨0x8a4, 8, 3, 0x0, 0x0, 0x0, 0x0⟩,  -- R463 CORE_ABSENT_w.MASK
  ⟨0x8000, 64, 16, 0xffffffff, 0x0, 0x0, 0x0⟩,  -- R528 SQ_BASE_i.ADDR
  ⟨0x8004, 64, 16, 0xffffffff, 0x0, 0x0, 0x0⟩,  -- R528 SQ_BASE_i.ADDR
  ⟨0x8008, 64, 16, 0xffffffff, 0x0, 0x0, 0x0⟩,  -- R528 CQ_BASE_i.ADDR
  ⟨0x800c, 64, 16, 0xffffffff, 0x0, 0x0, 0x0⟩,  -- R528 CQ_BASE_i.ADDR
  ⟨0x8010, 64, 16, 0x7fff, 0x0, 0x0, 0x844⟩,  -- R528 QCFG_i.SQ_LOG2, QCFG_i.CQ_LOG2, QCFG_i.VECTOR, QCFG_i.ENABLE, QCFG_i.ERROR, QCFG_i.ERR_COD
  ⟨0x8018, 64, 16, 0xffff, 0x0, 0x0, 0x0⟩,  -- R528 SQ_TAIL_i.TAIL
  ⟨0x801c, 64, 16, 0x0, 0x0, 0x0, 0x0⟩,  -- R528 SQ_HEAD_i.HEAD
  ⟨0x8020, 64, 16, 0xffff, 0x0, 0x0, 0x0⟩,  -- R528 CQ_HEAD_i.HEAD
  ⟨0x8024, 64, 16, 0x0, 0x0, 0x0, 0x0⟩,  -- R528 CQ_TAIL_i.TAIL
  ⟨0x9000, 16, 16, 0xfffff001, 0x0, 0x0, 0x0⟩,  -- R528 HOST_WIN_w.ENABLE, HOST_WIN_w.BASE
  ⟨0x9004, 16, 16, 0xffffffff, 0x0, 0x0, 0x0⟩]  -- R528 HOST_WIN_w.BASE

/-- Part 1 of the package register words. -/
def regRows1 : List RegRow := [
  ⟨0x9008, 16, 16, 0xfffff000, 0x0, 0x0, 0x0⟩,  -- R528 HOST_WIN_w.LIMIT
  ⟨0x900c, 16, 16, 0xffffffff, 0x0, 0x0, 0x0⟩,  -- R528 HOST_WIN_w.LIMIT
  ⟨0x9200, 4, 1, 0xffffffff, 0x0, 0x0, 0x0⟩,  -- R528 HOSTWIN_VIOL.COUNT
  ⟨0x9300, 4, 1, 0x1ff, 0x0, 0x0, 0x0⟩,  -- R528 BAR2_WINDOW.BASE
  ⟨0xa000, 4, 1, 0x0, 0x0, 0x0, 0x0⟩,  -- R564 MON_STATUS.MODE, MON_STATUS.BAUD
  ⟨0xa004, 4, 1, 0xffffffff, 0x0, 0x0, 0x0⟩,  -- R564 MON_ERRORS.COUNT
  ⟨0xa008, 4, 1, 0xffffffff, 0x0, 0x0, 0x0⟩,  -- R564 MON_LOST.COUNT
  ⟨0xa00c, 4, 1, 0x1, 0x0, 0x0, 0x0⟩,  -- R564 MON_CFG.REQUIRE_CHECK
  ⟨0x100000, 4, 1, 0x0, 0x0, 0x0, 0x0⟩,  -- R529 BURGEE_STATUS.OWNER, BURGEE_STATUS.STATE, BURGEE_STATUS.SUCCESSOR, BURGEE_STATUS.OWNER_NOD
  ⟨0x100004, 4, 1, 0x0, 0x0, 0x0, 0x0⟩,  -- R529 LEASE_LEFT.MS
  ⟨0x100008, 4, 1, 0xffff, 0x0, 0x0, 0x7d0⟩,  -- R529 LEASE_CFG.MS
  ⟨0x100010, 4, 1, 0x0, 0x0, 0x0, 0x0⟩,  -- R529 BURGEE_NONCE.NONCE
  ⟨0x100014, 4, 1, 0x0, 0x0, 0x0, 0x0⟩,  -- R529 BURGEE_NONCE.NONCE
  ⟨0x100018, 4, 1, 0x0, 0x0, 0x0, 0x0⟩,  -- R529 BURGEE_CTL.RENEW, BURGEE_CTL.RELEASE, BURGEE_CTL.HANDOVER, BURGEE_CTL.SUCC_MASTER, BURGEE_
  ⟨0x100040, 8, 4, 0x0, 0x0, 0x0, 0x0⟩,  -- R529 CLAIM_m.GO, CLAIM_m.STATUS, CLAIM_m.REASON
  ⟨0x100080, 4, 1, 0xffffffff, 0x0, 0x0, 0x0⟩,  -- R529 NONOWNER_WRITES.COUNT
  ⟨0x100084, 4, 4, 0xffffffff, 0x0, 0x0, 0x0⟩,  -- R529 NONOWNER_WRITES_m.COUNT
  ⟨0x100098, 4, 1, 0x0, 0x0, 0x0, 0x0⟩,  -- R529 LAST_NONOWNER.MASTER, LAST_NONOWNER.OFFSET
  ⟨0x1000a0, 4, 1, 0xffffffff, 0x0, 0x0, 0x0⟩,  -- R529 MGMT_FOREIGN.COUNT
  ⟨0x200000, 4, 1, 0x0, 0x0, 0x0, 0x0⟩,  -- R272 GTIME.NS
  ⟨0x200004, 4, 1, 0x0, 0x0, 0x0, 0x0⟩,  -- R272 GTIME.NS
  ⟨0x200008, 4, 1, 0x0, 0x0, 0x0, 0x0⟩,  -- R272 GTIME_FRAC.FRAC
  ⟨0x200010, 4, 1, 0xffffffff, 0x0, 0x0, 0x0⟩,  -- R272 TIME_SET.NS
  ⟨0x200014, 4, 1, 0xffffffff, 0x0, 0x0, 0x0⟩]  -- R272 TIME_SET.NS

/-- Part 2 of the package register words. -/
def regRows2 : List RegRow := [
  ⟨0x200018, 4, 1, 0x0, 0x0, 0x0, 0x3f00⟩,  -- R272 TIME_STATUS.STATE, TIME_STATUS.DEPTH, TIME_STATUS.PARENT_PORT, TIME_STATUS.ROOT, TIME_STAT
  ⟨0x20001c, 4, 1, 0x0, 0x0, 0x0, 0x0⟩,  -- R272 TIME_OFFSET.OFS
  ⟨0x200020, 4, 1, 0x1, 0x0, 0x0, 0x0⟩,  -- R272 TIME_CTL.ROOT_ENABLE
  ⟨0x200100, 4, 1, 0x1, 0x0, 0x0, 0x0⟩,  -- R272 BEAT_CTL.ENABLE
  ⟨0x200108, 4, 1, 0xffffffff, 0x0, 0x0, 0x0⟩,  -- R272 BEAT_T0.NS
  ⟨0x20010c, 4, 1, 0xffffffff, 0x0, 0x0, 0x0⟩,  -- R272 BEAT_T0.NS
  ⟨0x200110, 4, 1, 0xffffffff, 0x0, 0x0, 0x1f40⟩,  -- R272 BEAT_LEN.NS
  ⟨0x200114, 4, 1, 0xffffffff, 0x0, 0x0, 0xfa0⟩,  -- R272 BEAT_MIN.NS
  ⟨0x200118, 4, 1, 0xffff, 0x0, 0x0, 0x40⟩,  -- R272 LAG_LIMIT.BEATS
  ⟨0x20011c, 4, 1, 0x0, 0x0, 0x0, 0x0⟩,  -- R272 BEAT_CHECK.CFG_CHECK
  ⟨0x200120, 4, 1, 0x0, 0x3, 0x0, 0x0⟩,  -- R272 BEAT_STATUS.CFG_REJECT, BEAT_STATUS.CFG_MISMATCH
  ⟨0x200128, 4, 1, 0x0, 0x0, 0x0, 0x0⟩,  -- R272 GRID_BEAT.N
  ⟨0x20012c, 4, 1, 0x0, 0x0, 0x0, 0x0⟩,  -- R272 GRID_BEAT.N
  ⟨0x200130, 4, 1, 0x0, 0x0, 0x0, 0x0⟩,  -- R272 LAG_MAX.NS
  ⟨0x200134, 4, 1, 0x0, 0x0, 0x0, 0x0⟩,  -- R272 LAG_MAX.CORE
  ⟨0x200138, 4, 1, 0xffffffff, 0x0, 0x0, 0x0⟩,  -- R272 SLIP_COUNT.COUNT
  ⟨0x20013c, 4, 1, 0xffffffff, 0x0, 0x0, 0x0⟩,  -- R272 STEP_LATE_COUNT.COUNT
  ⟨0x1000000, 4, 1, 0x0, 0x0, 0x0, 0x7d00010⟩,  -- R318 ROUTER_CFG.GOLDEN_US, ROUTER_CFG.MAX_AGE_US
  ⟨0x1000004, 4, 1, 0x0, 0x0, 0x0, 0x64⟩,  -- R318 BUNTING_CFG.US
  ⟨0x1000008, 4, 1, 0x0, 0x0, 0x0, 0x0⟩,  -- R318 TABLE_STATE.BANK
  ⟨0x1000010, 4, 1, 0x0, 0x0, 0x0, 0x0⟩,  -- R318 TABLE_SERIAL.SERIAL
  ⟨0x1000014, 4, 1, 0x0, 0x0, 0x0, 0x0⟩,  -- R318 TABLE_SERIAL.SERIAL
  ⟨0x1000020, 4, 1, 0x0, 0x0, 0x0, 0x0⟩,  -- R318 SLICE_STATE.SLICE_ID, SLICE_STATE.VALID
  ⟨0x1000024, 4, 1, 0x0, 0x0, 0x0, 0x400000⟩]  -- R318 CAPS.INJ_CAP, CAPS.MGMT_CAP

/-- Part 3 of the package register words. -/
def regRows3 : List RegRow := [
  ⟨0x1000028, 4, 1, 0x0, 0x0, 0x0, 0x0⟩,  -- R318 SLICE_SERIAL.SERIAL
  ⟨0x100002c, 4, 1, 0x0, 0x0, 0x0, 0x0⟩,  -- R318 SLICE_SERIAL.SERIAL
  ⟨0x1000030, 4, 1, 0x0, 0x0, 0x0, 0x0⟩,  -- R318 CMD_STATUS.LAST_REJECT, CMD_STATUS.PENDING
  ⟨0x1000040, 4, 1, 0xffffffff, 0x0, 0x0, 0x0⟩,  -- R318 FENCE_DROPS.COUNT
  ⟨0x1000044, 4, 1, 0xffffffff, 0x0, 0x0, 0x0⟩,  -- R318 AGE_DROPS.COUNT
  ⟨0x1000048, 4, 1, 0xffffffff, 0x0, 0x0, 0x0⟩,  -- R318 ROUTE_EMPTY_DROPS.COUNT
  ⟨0x100004c, 4, 1, 0xffffffff, 0x0, 0x0, 0x0⟩,  -- R318 END_CHECK_FAIL.COUNT
  ⟨0x1000050, 4, 1, 0xffffffff, 0x0, 0x0, 0x0⟩,  -- R318 TYPE_BAD.COUNT
  ⟨0x1000054, 4, 1, 0xffffffff, 0x0, 0x0, 0x0⟩,  -- R318 LENGTH_BAD.COUNT
  ⟨0x1000058, 4, 1, 0xffffffff, 0x0, 0x0, 0x0⟩,  -- R318 MGMT_OVERFLOW.COUNT
  ⟨0x100005c, 4, 1, 0xffffffff, 0x0, 0x0, 0x0⟩,  -- R318 FENCE_REFUSALS.COUNT
  ⟨0x1000060, 4, 1, 0xffffffff, 0x0, 0x0, 0x7d0ea60⟩,  -- R465 BOARD_CFG.ADAPT_INTERVAL_MS, BOARD_CFG.TRAIN_WINDOW_MS
  ⟨0x1000064, 4, 1, 0xffffffff, 0x0, 0x0, 0x0⟩,  -- R318 NOSLOT_DROPS.COUNT
  ⟨0x1000100, 8, 39, 0x0, 0x0, 0x0, 0x0⟩,  -- R318 PORT_STATUS_p.STATE, PORT_STATUS_p.LANES, PORT_STATUS_p.RATE, PORT_STATUS_p.FENCE_OPEN, PO
  ⟨0x1000104, 8, 39, 0x0, 0x0, 0x0, 0x0⟩,  -- R318 PORT_STATUS_p.NEIGHBOUR_SLICE, PORT_STATUS_p.RTT_NS
  ⟨0x1001000, 4, 39, 0x0, 0x0, 0x0, 0x0⟩,  -- R318 PORT_SLICE_p.SLICE, PORT_SLICE_p.OPEN
  ⟨0x1100000, 4, 1, 0xff07ff, 0x0, 0x0, 0x40100⟩,  -- R362 NI_CFG.GRANT_MAX, NI_CFG.RETRY_LIMIT
  ⟨0x1100004, 4, 1, 0xffff, 0x0, 0x0, 0xfa0⟩,  -- R362 E2E_TIMEOUT.US
  ⟨0x1100008, 4, 1, 0x7ff, 0x0, 0x0, 0x0⟩,  -- R362 PIN_CFG.COUNT
  ⟨0x110000c, 4, 1, 0x0, 0x0, 0x0, 0x0⟩,  -- R362 LAYOUT_EPOCH.EPOCH, LAYOUT_EPOCH.DRAINING
  ⟨0x1100010, 4, 1, 0x0, 0x100000, 0x0, 0x0⟩,  -- R362 NI_STATUS.RESIDENT, NI_STATUS.ACTIVE_COLL, NI_STATUS.CFG_REJECT
  ⟨0x1100020, 4, 1, 0xffffffff, 0x0, 0x0, 0x0⟩,  -- R362 STALE_DROPS.COUNT
  ⟨0x1100024, 4, 1, 0xffffffff, 0x0, 0x0, 0x0⟩,  -- R362 DUP_DROPS.COUNT
  ⟨0x1100028, 4, 1, 0xffffffff, 0x0, 0x0, 0x0⟩]  -- R362 OFFSET_BAD.COUNT

/-- Part 4 of the package register words. -/
def regRows4 : List RegRow := [
  ⟨0x110002c, 4, 1, 0xffffffff, 0x0, 0x0, 0x0⟩,  -- R362 E2E_RETRANSMITS.COUNT
  ⟨0x1100030, 4, 1, 0xffffffff, 0x0, 0x0, 0x0⟩,  -- R362 TOKENS_WRITTEN_OFF.COUNT
  ⟨0x1100034, 4, 1, 0xffffffff, 0x0, 0x0, 0x0⟩,  -- R362 SWAP_LOADS.COUNT
  ⟨0x1100038, 4, 1, 0xffffffff, 0x0, 0x0, 0x0⟩,  -- R362 SWAP_EVICTS.COUNT
  ⟨0x110003c, 4, 1, 0xffffffff, 0x0, 0x0, 0x0⟩,  -- R362 PRUNES.COUNT
  ⟨0x1101000, 4, 1024, 0x1ffff, 0x0, 0x0, 0x0⟩,  -- R362 PIN_PEER_c.PEER, PIN_PEER_c.VALID
  ⟨0x1108000, 8, 4096, 0x0, 0x40000, 0x0, 0x0⟩,  -- R362 CTX_STATUS_c.PEER, CTX_STATUS_c.RESIDENT, CTX_STATUS_c.PINNED, CTX_STATUS_c.FLAGGED, CTX_S
  ⟨0x1108004, 8, 4096, 0x0, 0x0, 0x0, 0x0⟩,  -- R362 CTX_STATUS_c.TOKENS_HELD, CTX_STATUS_c.BINDINGS
  ⟨0x1200000, 4, 1, 0x0, 0x0, 0x0, 0xffff⟩,  -- R398 UPD_STATUS.LIVE, UPD_STATUS.BUSY
  ⟨0x1200004, 4, 1, 0x0, 0x1f, 0x0, 0x0⟩,  -- R398 UPD_FLAGS.FLOOR, UPD_FLAGS.RCP_ZERO, UPD_FLAGS.INVALID, UPD_FLAGS.NONFINITE, UPD_FLAGS.CLI
  ⟨0x1200008, 4, 1, 0xffffffff, 0x0, 0x0, 0x0⟩,  -- R398 UPD_CLIPS.COUNT
  ⟨0x120000c, 4, 1, 0xffffffff, 0x0, 0x0, 0x0⟩,  -- R398 UPD_RETRIES.COUNT
  ⟨0x1200010, 4, 1, 0xfff, 0x0, 0x0, 0x4⟩,  -- R398 COMMIT_CFG.ENABLE, COMMIT_CFG.LEAD_BEATS, COMMIT_CFG.COMMIT_NONFINITE, COMMIT_CFG.SIGNAL, 
  ⟨0x1200018, 4, 1, 0xffffffff, 0x0, 0x0, 0x0⟩,  -- R398 COMMIT_GROUP_ADDR.ADDR
  ⟨0x120001c, 4, 1, 0x3ff, 0x0, 0x0, 0x0⟩,  -- R398 COMMIT_GROUP_ADDR.ADDR
  ⟨0x1200020, 4, 1, 0xffffffff, 0x0, 0x0, 0x0⟩,  -- R398 COMMIT_GROUP.RANK, COMMIT_GROUP.SIZE
  ⟨0x1200024, 4, 1, 0xffff001f, 0x0, 0x0, 0x0⟩,  -- R398 COMMIT_GROUP.SIZE, COMMIT_GROUP.FANOUT, COMMIT_GROUP.COLL_ID
  ⟨0x1200028, 4, 1, 0x1, 0x0, 0x0, 0x0⟩,  -- R398 COMMIT_CTL.HOLD, COMMIT_CTL.ABORT, COMMIT_CTL.FORCE_COMMIT, COMMIT_CTL.FORCE_ABORT
  ⟨0x1200030, 4, 1, 0x0, 0x0, 0x0, 0x0⟩,  -- R398 COMMIT_STATUS.STATE, COMMIT_STATUS.LAST_CODE, COMMIT_STATUS.LAST_RANK
  ⟨0x1200038, 4, 1, 0xffffffff, 0x0, 0x0, 0x0⟩,  -- R398 COMMIT_STEP.STEP
  ⟨0x120003c, 4, 1, 0xffffffff, 0x0, 0x0, 0x0⟩,  -- R398 COMMIT_STEP.STEP
  ⟨0x1200040, 4, 1, 0x0, 0x0, 0x0, 0x0⟩,  -- R398 COMMIT_BEAT.BEAT
  ⟨0x1200044, 4, 1, 0x0, 0x0, 0x0, 0x0⟩,  -- R398 COMMIT_BEAT.BEAT
  ⟨0x1200048, 4, 1, 0xffffffff, 0x0, 0x0, 0x0⟩]  -- R398 COMMITS.COUNT

/-- Part 5 of the package register words. -/
def regRows5 : List RegRow := [
  ⟨0x120004c, 4, 1, 0xffffffff, 0x0, 0x0, 0x0⟩,  -- R398 ABORTS.COUNT
  ⟨0x1200050, 4, 1, 0xffffffff, 0x0, 0x0, 0x2710⟩,  -- R398 COMMIT_TIMEOUT.MS
  ⟨0x1200060, 4, 1, 0x0, 0x0, 0x0, 0x0⟩,  -- R398 PROG_VALIDATE.SLOT
  ⟨0x1200064, 4, 1, 0x0, 0x0, 0x0, 0x0⟩,  -- R398 SHARD_VALIDATE.ENTRY
  ⟨0x1200068, 4, 1, 0x0, 0x0, 0x0, 0x0⟩,  -- R398 CFG_RESULT.CODE
  ⟨0x1220000, 8, 4096, 0x0, 0x0, 0x0, 0x0⟩,  -- R398 BUCKET_s.STATE, BUCKET_s.POISON, BUCKET_s.SHARD, BUCKET_s.ARRIVED
  ⟨0x1220004, 8, 4096, 0x0, 0x0, 0x0, 0x0⟩,  -- R398 BUCKET_s.ARRIVED, BUCKET_s.EXPECTED
  ⟨0x2000010, 4, 1, 0xffffffff, 0x0, 0x0, 0x3e8035f⟩,  -- R251 THERM_CFG.WARM, THERM_CFG.HYST, THERM_CFG.DWELL
  ⟨0x2000018, 4, 1, 0x1f, 0x0, 0x0, 0x4⟩,  -- R251 SCRUB_CFG.HOURS
  ⟨0x2000100, 4, 24, 0xffffffff, 0x0, 0x0, 0x0⟩,  -- R26 DIELOCAL
  ⟨0x2000400, 32, 20, 0x0, 0x0, 0xff00, 0x0⟩,  -- R251 STACK_k_STATUS.TEMP_C, STACK_k_STATUS.MAX_C, STACK_k_STATUS.STEP, STACK_k_STATUS.CLASS, ST
  ⟨0x2000404, 32, 20, 0xffffffff, 0x0, 0x0, 0x0⟩,  -- R251 STACK_k_CE.COUNT
  ⟨0x2000408, 32, 20, 0xffffffff, 0x0, 0x0, 0x0⟩,  -- R251 STACK_k_UE.COUNT
  ⟨0x200040c, 32, 20, 0xffffffff, 0x0, 0x0, 0x0⟩,  -- R251 STACK_k_ACC_EXC.COUNT
  ⟨0x2000410, 32, 20, 0x0, 0x0, 0x0, 0x0⟩,  -- R251 STACK_k_PC_RETIRED.MASK
  ⟨0x2000414, 32, 20, 0x0, 0x0, 0x0, 0x0⟩,  -- R251 STACK_k_PC_RETIRED.MASK
  ⟨0x2000418, 32, 20, 0x0, 0x0, 0x0, 0x0⟩,  -- R251 STACK_k_SCRUB.PASSES
  ⟨0x2001000, 4, 1, 0x0, 0x0, 0x0, 0x0⟩,  -- R251 RETIRE_ACK.SEQ
  ⟨0x2001004, 4, 1, 0x0, 0x0, 0x0, 0x0⟩,  -- R251 RETIRE_PENDING.COUNT
  ⟨0x2001008, 4, 1, 0x0, 0x0, 0xffff0000, 0x0⟩,  -- R251 RETIRED_COUNT.COUNT, RETIRE_ACK_BAD.COUNT
  ⟨0x2001010, 4, 1, 0xffff, 0x0, 0x0, 0x0⟩,  -- R251 RETIRED_INDEX.INDEX
  ⟨0x2001018, 4, 1, 0x0, 0x0, 0x0, 0x0⟩,  -- R251 RETIRED_ENTRY.PC, RETIRED_ENTRY.LINE
  ⟨0x200101c, 4, 1, 0x0, 0x0, 0x0, 0x0⟩,  -- R251 RETIRED_ENTRY.LINE, RETIRED_ENTRY.WHOLE
  ⟨0x3000000, 4, 1, 0xffffffff, 0x0, 0x0, 0x1e0a2710⟩]  -- R437 OPT_CFG.CAL_INTERVAL_MS, OPT_CFG.SPARE_DB, OPT_CFG.EOL_DB

/-- Part 6 of the package register words. -/
def regRows6 : List RegRow := [
  ⟨0x3000004, 4, 1, 0xffffffff, 0x0, 0x0, 0x13880032⟩,  -- R437 OPT_CFG2.PAUSE_MAX_MS, OPT_CFG2.TRAIN_WINDOW_MS
  ⟨0x3000010, 4, 1, 0xffffffff, 0x0, 0x0, 0x0⟩,  -- R437 RING_UNLOCKS.COUNT
  ⟨0x3000014, 4, 1, 0xffffffff, 0x0, 0x0, 0x0⟩,  -- R437 CALIBRATIONS.COUNT
  ⟨0x3000018, 4, 1, 0xffffffff, 0x0, 0x0, 0x0⟩,  -- R437 HANDOVERS.COUNT
  ⟨0x300001c, 4, 1, 0xffffffff, 0x0, 0x0, 0x0⟩,  -- R437 PAUSES.COUNT
  ⟨0x3000020, 4, 1, 0xffffffff, 0x0, 0x0, 0x0⟩,  -- R437 SAFE_ENTRIES.COUNT
  ⟨0x3010000, 4096, 8, 0x0, 0x0, 0xff0000, 0x0⟩,  -- R438 ENG_e.TEMP_C, ENG_e.RATE, ENG_e.MAX_RATE
  ⟨0x3020000, 1024, 32, 0x0, 0x0, 0x0, 0x0⟩,  -- R439 PORT_OPT_q.MODE, PORT_OPT_q.IN_SERVICE, PORT_OPT_q.FAILED, PORT_OPT_q.RETIRED, PORT_OPT_q.
  ⟨0x3020004, 1024, 32, 0x0, 0x0, 0x0, 0x0⟩,  -- R439 PORT_PWR_q.LAUNCH, PORT_PWR_q.INPUT
  ⟨0x3020008, 1024, 32, 0x0, 0x0, 0x0, 0x0⟩,  -- R488 PORT_CAL_q.INTERVAL_MS
  ⟨0x3800000, 4, 1, 0x3, 0x0, 0x0, 0x0⟩,  -- R551 PWR_CTL.TARGET, PWR_CTL.GO
  ⟨0x3800004, 4, 1, 0x0, 0x0, 0x0, 0x0⟩,  -- R551 PWR_STATUS.STATE, PWR_STATUS.ENTERING, PWR_STATUS.WAKE_LATCHED, PWR_STATUS.LAST_WAKE
  ⟨0x3800008, 4, 1, 0xffffffff, 0x0, 0x0, 0x2710⟩,  -- R551 ENTRY_CFG.DELAY_MAX_US
  ⟨0x380000c, 4, 1, 0xffffffff, 0x0, 0x0, 0x0⟩,  -- R551 ENTRY_REFUSED.COUNT
  ⟨0x3800010, 4, 1, 0x0, 0x0, 0x0, 0x0⟩,  -- R551 ENTRY_REFUSER.UNIT, ENTRY_REFUSER.REASON
  ⟨0x3800018, 4, 1, 0xffffffff, 0x0, 0x0, 0x0⟩,  -- R551 RETAIN_MASK.BANKS
  ⟨0x380001c, 4, 1, 0xffff, 0x0, 0x0, 0x0⟩,  -- R551 RETAIN_MASK.BANKS
  ⟨0x3800020, 4, 1, 0xfffff, 0x0, 0x0, 0xfffff⟩,  -- R551 STACK_RETAIN.STACKS
  ⟨0x3800028, 4, 1, 0x0, 0x0, 0x0, 0x0⟩,  -- R551 WAKE_SEND.PORTS
  ⟨0x380002c, 4, 1, 0x0, 0x0, 0x0, 0x0⟩,  -- R551 WAKE_SEND.PORTS
  ⟨0x3800030, 4, 1, 0x0, 0x0, 0x0, 0x0⟩,  -- R551 LAST_EXIT.US
  ⟨0x3800040, 4, 1, 0xffff, 0x0, 0x0, 0x7d0⟩,  -- R551 PKG_CAP.WATTS
  ⟨0x3800044, 4, 1, 0x0, 0x0, 0xffff0000, 0x0⟩,  -- R551 PKG_POWER.WATTS, PKG_POWER.MAX
  ⟨0x3800048, 4, 1, 0xffffffff, 0x0, 0x0, 0x0⟩]  -- R551 CAP_COUNT.COUNT

/-- Part 7 of the package register words. -/
def regRows7 : List RegRow := [
  ⟨0x380004c, 4, 1, 0xffffffff, 0x0, 0x0, 0x0⟩,  -- R551 THROTTLE_COUNT.COUNT
  ⟨0x3800080, 4, 4, 0x0, 0x0, 0xff00, 0x0⟩,  -- R551 DIE_THERM_d.TEMP_C, DIE_THERM_d.MAX_C, DIE_THERM_d.CLOCK_MHZ, DIE_THERM_d.THROTTLED
  ⟨0x38000c0, 4, 1, 0x0, 0x0, 0x0, 0x0⟩,  -- R551 TRIP_CAUSE.SOURCE, TRIP_CAUSE.INSTANCE, TRIP_CAUSE.READING
  ⟨0x3c00000, 4, 1, 0x0, 0x0, 0x0, 0x0⟩,  -- R530 FW_STATUS.SLOT
  ⟨0x3c00004, 4, 1, 0x0, 0x0, 0x0, 0x0⟩,  -- R530 FW_VERSION.VERSION
  ⟨0x3c00008, 4, 1, 0x0, 0x0, 0x0, 0x0⟩,  -- R530 FW_SVN.SVN
  ⟨0x3c00010, 4, 1, 0xffffffff, 0x0, 0x0, 0x0⟩,  -- R530 FW_MIN_VERSION.SVN
  ⟨0x3c00020, 4, 1, 0xffffffff, 0x0, 0x0, 0x0⟩,  -- R530 FW_UPDATE.ADDR
  ⟨0x3c00024, 4, 1, 0x3ff, 0x0, 0x0, 0x0⟩,  -- R530 FW_UPDATE.ADDR
  ⟨0x3c00028, 4, 1, 0x0, 0x0, 0x0, 0x0⟩,  -- R530 FW_UPDATE_CTL.GO, FW_UPDATE_CTL.STATUS
  ⟨0x3c00030, 4, 1, 0x0, 0x0, 0x0, 0x0⟩,  -- R530 CRED_MIN_SERIAL.SERIAL
  ⟨0x3c00034, 4, 1, 0x0, 0x0, 0x0, 0x0⟩,  -- R530 CRED_MIN_SERIAL.SERIAL
  ⟨0x3c00040, 4, 1, 0xffffffff, 0x0, 0x0, 0x0⟩,  -- R530 KEY_UPDATE.ADDR
  ⟨0x3c00044, 4, 1, 0x3ff, 0x0, 0x0, 0x0⟩,  -- R530 KEY_UPDATE.ADDR
  ⟨0x3c00048, 4, 1, 0x0, 0x0, 0x0, 0x0⟩,  -- R530 KEY_UPDATE_CTL.GO, KEY_UPDATE_CTL.STATUS
  ⟨0x3c00050, 4, 1, 0x0, 0x0, 0x0, 0x0⟩,  -- R530 FM_NODES.NODES
  ⟨0x3c00054, 4, 1, 0x0, 0x0, 0x0, 0x0⟩,  -- R530 FM_NODES.NODES
  ⟨0x3c00058, 4, 1, 0x0, 0x0, 0x0, 0x0⟩,  -- R530 FM_NODES_VALID.MASK
  ⟨0x3c00060, 4, 1, 0x0, 0x0, 0x0, 0x0⟩,  -- R530 LOG_STATUS.COUNT, LOG_STATUS.FULL
  ⟨0x3c00070, 4, 1, 0xffffffff, 0x0, 0x0, 0x0⟩,  -- R530 VARIANT_UPDATE.ADDR
  ⟨0x3c00074, 4, 1, 0x3ff, 0x0, 0x0, 0x0⟩,  -- R530 VARIANT_UPDATE.ADDR
  ⟨0x3c00078, 4, 1, 0x0, 0x0, 0x0, 0x0⟩,  -- R530 VARIANT_UPDATE_CTL.GO, VARIANT_UPDATE_CTL.STATUS
  ⟨0x3c000c0, 4, 1, 0x0, 0x0, 0x0, 0x0⟩,  -- R530 WATCHDOG.KICK, WATCHDOG.RESTARTS
  ⟨0x3e00000, 4, 1, 0xffffffff, 0x0, 0x0, 0x0⟩]  -- R531 FR_BASE.ADDR

/-- Part 8 of the package register words. -/
def regRows8 : List RegRow := [
  ⟨0x3e00004, 4, 1, 0xffffffff, 0x0, 0x0, 0x0⟩,  -- R531 FR_BASE.ADDR
  ⟨0x3e00008, 4, 1, 0x7f, 0x80, 0x0, 0x6⟩,  -- R531 FR_CFG.LOG2, FR_CFG.ENABLE, FR_CFG.T_IRQ, FR_CFG.OVERFLOW
  ⟨0x3e0000c, 4, 1, 0x1ffff, 0x0, 0x0, 0x0⟩,  -- R531 FR_HEAD.HEAD
  ⟨0x3e00010, 4, 1, 0x0, 0x0, 0x0, 0x0⟩,  -- R531 FR_TAIL.TAIL
  ⟨0x3e00014, 4, 1, 0xffffffff, 0x0, 0x0, 0x0⟩,  -- R531 FR_DROPPED.COUNT
  ⟨0x3e04000, 4, 1, 0x0, 0x0, 0x0, 0x0⟩,  -- R465 LEDGER_STATUS.ENTRIES, LEDGER_STATUS.FULL, LEDGER_STATUS.DAMAGED
  ⟨0x3e04004, 4, 1, 0x1fff, 0x0, 0x0, 0x0⟩,  -- R465 LEDGER_INDEX.INDEX
  ⟨0x3e08000, 4, 1, 0xfffffff, 0x0, 0x0, 0x3c52d14⟩,  -- R486 AGE_CFG.RAISE_PS, AGE_CFG.LOWER_PS, AGE_CFG.STEP_MV, AGE_CFG.MAX_RISE_MV
  ⟨0x3e08004, 4, 1, 0x0, 0x0, 0x0, 0x0⟩,  -- R486 AGE_STATUS.DAY
  ⟨0x3e08008, 4, 1, 0xfff, 0x0, 0x0, 0x0⟩,  -- R486 AGE_INDEX.BACK
  ⟨0x3e08010, 4, 1, 0x0, 0x0, 0x0, 0x0⟩,  -- R486 FAULT_SEQ.SEQ
  ⟨0x3e08014, 4, 1, 0xffffffff, 0x0, 0x0, 0x0⟩,  -- R486 T_SUPPRESSED.COUNT
  ⟨0x3e08018, 4, 1, 0xffffffff, 0x0, 0x0, 0x0⟩]  -- R486 NETSTORE_CE.COUNT

/-- Every package register word, in rising offset. -/
def regRows : List RegRow := regRows0 ++ regRows1 ++ regRows2 ++ regRows3 ++ regRows4 ++ regRows5 ++ regRows6 ++ regRows7 ++ regRows8

/-- Part 0 of the core block register words. -/
def coreRows0 : List RegRow := [
  ⟨0x0, 4, 1, 0x0, 0x0, 0x0, 0x0⟩,  -- R91 CORE_STATUS.RUNNING, CORE_STATUS.FAULTED, CORE_STATUS.OUTSTANDING
  ⟨0x8, 8, 8, 0x0, 0x0, 0x0, 0x0⟩,  -- R91 CTX_STATE_c.PC, CTX_STATE_c.STATE, CTX_STATE_c.LOOP_DEPTH, CTX_STATE_c.CALL_DEPTH
  ⟨0xc, 8, 8, 0x0, 0x0, 0x0, 0x0⟩,  -- R91 CTX_STATE_c.HOLD
  ⟨0x300, 4, 1, 0xffffffff, 0x0, 0x0, 0x0⟩,  -- R62 CLIP_LIMIT.LIMIT
  ⟨0x304, 4, 1, 0x0, 0xf, 0x0, 0x0⟩,  -- R62 NUM_STATUS.WIDEN, NUM_STATUS.NONFINITE, NUM_STATUS.DRAIN_INF, NUM_STATUS.DRAIN_NAN, NUM_ST
  ⟨0x308, 4, 1, 0x1, 0x0, 0x0, 0x0⟩,  -- R91 VMODE.TRAP_RANGE
  ⟨0x30c, 4, 1, 0x0, 0xffffffff, 0x0, 0x0⟩,  -- R91 VFLAGS.VF_RANGE, VFLAGS.OTHER
  ⟨0x380, 4, 32, 0xffffffff, 0x0, 0x0, 0x0⟩,  -- R62 CLIPCNT_b.COUNT
  ⟨0x400, 4, 64, 0xffffffff, 0x0, 0x0, 0x0⟩,  -- R91 Ek.COUNT
  ⟨0x500, 4, 1, 0x0, 0xffffffff, 0x0, 0x0⟩,  -- R91 EV_OVF.MASK
  ⟨0x504, 4, 1, 0x0, 0xffffffff, 0x0, 0x0⟩,  -- R91 EV_OVF.MASK
  ⟨0x600, 4, 1, 0x0, 0x0, 0x0, 0x0⟩,  -- R169 MTX_STATE.ACTIVE_SET, MTX_STATE.ACTIVE_TAG, MTX_STATE.SHADOW_TAG, MTX_STATE.SHADOW_HELD, M
  ⟨0x604, 4, 1, 0xffffffff, 0x0, 0x0, 0x0⟩,  -- R169 MTX_INF_CELLS.COUNT
  ⟨0x608, 4, 1, 0xffffffff, 0x0, 0x0, 0x0⟩,  -- R169 MTX_RETRIES.COUNT
  ⟨0x60c, 4, 1, 0x0, 0x0, 0x0, 0x0⟩,  -- R169 MTX_LAST_MISMATCH.ROW, MTX_LAST_MISMATCH.COL, MTX_LAST_MISMATCH.UNIT, MTX_LAST_MISMATCH.AT
  ⟨0x610, 4, 1, 0xf, 0x0, 0x0, 0x3⟩,  -- R169 MTX_CELL_LIMIT.LIMIT
  ⟨0x640, 4, 1, 0x0, 0x0, 0x0, 0x0⟩,  -- R211 VEC_STATE.BUSY, VEC_STATE.RETRYING
  ⟨0x644, 4, 1, 0xffffffff, 0x0, 0x0, 0x0⟩,  -- R211 VEC_RETRIES.COUNT
  ⟨0x648, 4, 1, 0x0, 0x0, 0x0, 0x0⟩,  -- R211 VEC_LAST_MISMATCH.LANE, VEC_LAST_MISMATCH.OP, VEC_LAST_MISMATCH.ATTEMPT
  ⟨0x64c, 4, 1, 0xf, 0x0, 0x0, 0x3⟩,  -- R211 VEC_LANE_LIMIT.LIMIT
  ⟨0x680, 4, 1, 0xffffffff, 0x0, 0x0, 0x0⟩,  -- R221 SPAD_CE.COUNT
  ⟨0x684, 4, 1, 0xffffffff, 0x0, 0x0, 0x0⟩,  -- R221 SPAD_UE.COUNT
  ⟨0x688, 4, 1, 0x0, 0x0, 0x0, 0x0⟩,  -- R221 SPAD_LAST_ERR.WORD, SPAD_LAST_ERR.UNCORR
  ⟨0x68c, 4, 1, 0x0, 0x0, 0x0, 0x0⟩]  -- R221 SPAD_POISONED.COUNT

/-- Part 1 of the core block register words. -/
def coreRows1 : List RegRow := [
  ⟨0x690, 4, 1, 0xff, 0x0, 0x0, 0x10⟩,  -- R221 SPAD_CE_LIMIT.LIMIT
  ⟨0x700, 4, 1, 0x0, 0x0, 0x0, 0x0⟩,  -- R273 BEAT_NUM.N
  ⟨0x704, 4, 1, 0x0, 0x0, 0x0, 0x0⟩,  -- R273 BEAT_NUM.N
  ⟨0x708, 4, 1, 0x0, 0x0, 0x0, 0x0⟩,  -- R273 BEAT_LAG.NS
  ⟨0x70c, 4, 1, 0x0, 0x0, 0x0, 0x0⟩,  -- R273 BEAT_LIVE.NS
  ⟨0x710, 4, 1, 0xffff0000, 0x0, 0x0, 0x0⟩,  -- R273 BEAT_FLAGS.OVERRUN, BEAT_FLAGS.SLIPPED, BEAT_FLAGS.LATE, BEAT_FLAGS.SLIPS
  ⟨0x800, 4, 1, 0x0, 0x0, 0x0, 0x0⟩,  -- R464 CORE_MAP.PHYS, CORE_MAP.STATE
  ⟨0x840, 4, 1, 0x0, 0x0, 0x0, 0x0⟩,  -- R487 AGE_CORE.PATH_MARGIN, AGE_CORE.VOLTAGE
  ⟨0x844, 4, 1, 0x0, 0x0, 0x0, 0x0⟩,  -- R487 AGE_CORE2.RO_SHIFT, AGE_CORE2.RISE_MV
  ⟨0x880, 4, 1, 0x1, 0x0, 0x0, 0x0⟩]  -- R552 CORE_PWR.IDLE_GATE, CORE_PWR.WAKE, CORE_PWR.GATED

/-- Every core-block register word, in rising offset. -/
def coreRows : List RegRow := coreRows0 ++ coreRows1

/-- The row that holds word `off`, if any. -/
def rowFind (rows : List RegRow) (off : Nat) : Option RegRow :=
  match rows with
  | [] => none
  | r :: t =>
    if r.base ≤ off ∧ (off - r.base) % r.stride = 0 ∧ (off - r.base) / r.stride < r.count then some r
    else rowFind t off

/-- Where the core blocks begin and end (R29). -/
def coreBase : Nat := 0x400000
/-- The first offset beyond the core region (R29). -/
def coreEnd : Nat := 0x1000000

/-- Whether an offset lies in the core region (R29). -/
def inCoreBlock (off : Nat) : Bool := decide (coreBase ≤ off ∧ off < coreEnd)

/-- Whether a word lies in the program store, in bytes 0 to 191 of a shard entry, or in a network-die book, which the
owner writes as plain words (R36, R368, R373, R381, R398). -/
def inStore (off : Nat) : Bool :=
  decide (0x1210000 ≤ off ∧ off < 0x1220000) ||
    (decide (0x1240000 ≤ off ∧ off < 0x1340000) && decide (off % 256 < 192)) ||
    decide (0x1340000 ≤ off ∧ off < 0x1341100)

/-- The row of the word at BAR0 offset `off`, if a chapter defines one (R30). -/
def regRow (off : Nat) : Option RegRow :=
  if inCoreBlock off then rowFind coreRows ((off - coreBase) % 0x1000)
  else if inStore off then some ⟨off, 4, 1, 0xffffffff, 0, 0, 0⟩
  else rowFind regRows off

/-- The reset value of the word at `off`. -/
def regReset (off : Nat) : W32 :=
  match regRow off with
  | some r => BitVec.ofNat 32 r.reset
  | none => 0#32

end Sys2Proof.Machine
end

