-- ==== Sys2Proof/Machine/State.lean ====
section
/-! DEFINITION. The state of the block, as plain data, and the state after reset. -/

namespace Sys2Proof.Machine

/-- No command stops the block: usage faults, upsets and permanent faults all leave fault records and go on
(R136, R466). The constructor is never raised; it keeps the type inhabited. Safe. -/
inductive Fault where
  | never
  deriving DecidableEq, Repr

/-- Why a command has no meaning. `notModelled`: its arm of `exec` is not written yet. Safe. -/
inductive Refusal where
  | notModelled (mnemonic : String)
  deriving DecidableEq, Repr

/-- A range whose bytes the specification calls undefined; `salt` numbers the occasion (R22, R26, R534). -/
structure UndefRange where
  lo : Nat
  hi : Nat
  salt : Nat
  /-- Banks of a scratchpad that the occasion leaves alone, as a mask (R212, R534); 0 for any other range. -/
  keep : Nat
  /-- The first `width` bytes of each `period` of the range; 0 for all of them. -/
  period : Nat
  width : Nat
  deriving DecidableEq, Repr

/-- Memory, byte by byte. Keys: a DRAM byte is `pc · 0x3000_0000 + off` by the hash of R225 and R226, a scratchpad or
accumulation-store byte its device-local address (R19). -/
structure Mem where
  cells : List Host.Cell
  /-- Poisoned code lines of DRAM and words of scratchpad, by the key of their first byte, rising (R216, R236). -/
  poison : List Nat
  undef : List UndefRange
  /-- GTIME at which a full write last cleared a unit's poison, by its key (R218, R219). -/
  cleared : SMap Nat
  /-- Code lines whose stored codeword is left with wrong symbols, by their key: place and difference (R236, R237). -/
  flaws : SMap (List (Nat × Nat))
  deriving DecidableEq, Repr

/-- One local beat of a core (R262 to R269). -/
structure CoreBeat where
  /-- A local beat is kept: some context has been started and not all have ended (R262). -/
  kept : Bool
  n : Nat
  /-- L(n) in nanoseconds. -/
  start : Nat
  lag : Nat
  /-- BEAT_CTL.ENABLE as it stands on this core (R265). -/
  enabled : Bool
  slipped : Bool
  late : Bool
  slipArmed : Bool
  lateArmed : Bool
  /-- GTIME at which every condition of the beat's end but the boundary came to hold, while they hold (R100, R263). -/
  ready : Option Nat
  deriving DecidableEq, Repr
/-- One level of a loop stack (R96): the body's first and last index, the call depth at which the LOOP issued, the
iteration index and the repeat count. -/
structure LoopLevel where
  first : Nat
  last : Nat
  depth : Nat
  iter : Nat
  count : Nat
  deriving DecidableEq, Repr

/-- What a waiting stage context waits for (R100, R102, R131). -/
inductive Wait where
  | none
  | swait (k : Nat) (v : Nat) (dec : Bool)
  | sbeat (sd : Nat) (col : Bool)
  | waitm (us : Nat)
  deriving DecidableEq, Repr

/-- One stage context (R68, R91, R516). `st` is CTX_STATE.STATE: 0 not started, 1 runnable, 2 held at issue,
3 in SWAIT, 4 in SBEAT, 5 in WAITM, 6 faulted, 7 halted. -/
structure Ctx where
  pc : Nat
  st : Nat
  hold : Nat
  sregs : SMap W64
  loops : List LoopLevel
  calls : List Nat
  wait : Wait
  /-- A CORE_STOP has named the context: it issues nothing more (R513). -/
  stopping : Bool
  /-- The queue and CID of the CORE_START that tracks it; queue 16 + n stands for the MGMT commands of node n (R516, R517). -/
  track : Option (Nat × Nat)
  deriving DecidableEq, Repr

/-- One accumulator (R48 to R50): an integer, the infinity state with its SIGN, or an FP32 value. -/
inductive AccCell where
  | int (v : Int)
  | inf (neg : Bool)
  | fp (bits : W32)
  deriving DecidableEq, Repr

/-- One accumulator set: its tag (0 NONE, 1 INT, 2 FP), the cells that are not finite 0, keyed 128 · row + column
(R149), and the residue registers RA that are not 0 (R160). -/
structure AccSet where
  tag : Nat
  cells : SMap AccCell
  res : SMap Nat
  deriving DecidableEq, Repr

/-- The fault a long operation will complete with (R137): its event, class (0 T, 1 P, 2 U) and DETAIL bytes 32 on. -/
structure OpFault where
  ev : Nat
  cls : Nat
  detail : List Byte
  deriving DecidableEq, Repr

/-- A long operation outstanding on a core (R74, R80, R82), with its own copy of what it read at issue. -/
structure LongOp where
  id : Nat
  ctx : Nat
  pc : Nat
  word : W128
  srcs : List Nat
  dsts : List Nat
  /-- Codebook and scale-bank registers read: 0 to 7 CB8, 8 to 23 CB4, 32 to 63 scale banks (R38). -/
  booksRead : List Nat
  /-- The codebook or scale-bank register a table load writes (R38). -/
  bookWritten : Option Nat
  fault : Option OpFault
  /-- Replies of board peers still awaited (R77), or 1 while a collective runs. -/
  awaiting : Nat
  /-- The destination or source descriptor copied at issue, for data that arrives or is re-read later. -/
  dd : BitVec 512
  ds : BitVec 512
  aux : BitVec 512
  /-- Bytes that board peers have returned, keyed by address on the peer, and the poisoned ones (R336, R338). -/
  buf : SMap Byte
  bufPoison : List Nat
  /-- Cells of a MOPA that no residue comparison covers (R161). -/
  skip : List Nat
  /-- Elements a drain has still to write (R154). -/
  vals : List Nat
  deriving DecidableEq, Repr

/-- An instruction, or a stream cycle of one, that is being done again: the operation's number, the cycle, the units that
mismatched in it and the attempt that comes next (R167, R210). -/
structure Retry where
  op : Option Nat
  cycle : Nat
  units : List Nat
  attempt : Nat
  deriving DecidableEq, Repr

/-- The physical condition of the core behind a logical number, which a remap replaces. -/
structure CoreHealth where
  /-- Mismatch count of each cell since the last daily record, keyed 128 · row + column (R167). -/
  cellMiss : SMap Nat
  /-- The MOPA, and the drain or load, under retry (R164 to R167). -/
  mopaTry : Retry
  shadowTry : Retry
  /-- Mismatch count of each vector lane, and the stream cycle under retry (R210). -/
  laneMiss : SMap Nat
  vecTry : Retry
  /-- Corrections of each scratchpad word since the last daily record, GTIME at which each word was last found
  uncorrectable, and the words that became so again within 24 hours of a full write (R219). -/
  wordCe : SMap Nat
  wordUe : SMap Nat
  failing : List Nat
  /-- GTIME at which an instruction-store word was reloaded, for the 24 hours of R472. -/
  reloaded : SMap Nat
  /-- Droops of the regulator since the last daily record (R474). -/
  droops : Nat
  /-- The scratchpad scrub's next row (R220). -/
  scrubRow : Nat
  deriving DecidableEq, Repr

/-- One logical core (R68). -/
structure Core where
  ctxs : SMap Ctx
  cur : Nat
  descs : SMap (BitVec 512)
  istore : SMap W128
  /-- Address and length of the last program-load command (R69). -/
  image : Option (Nat × Nat)
  cb8 : SMap (BitVec 12)
  cb4 : SMap (BitVec 8)
  scales : SMap W32
  /-- The parity bits of codebook and scale-bank entries that have been loaded: CB8 entries from 0, CB4 entries from
  4,096, scale-bank entries from 8,192 (R162). -/
  parity : SMap Bool
  set0 : AccSet
  set1 : AccSet
  activeSet : Nat
  shadowHeld : Bool
  /-- In the swap cycle of an MSWP, MTX_STATE as it is read in that cycle (R152). -/
  swap : Option Nat
  ops : List LongOp
  nextOp : Nat
  /-- Thousandths of a core cycle since reset. -/
  cycles : Nat
  /-- CORE_MAP (R464): 0 mapped, 1 pending, 2 absent; 3 stands for a number no stage 5 has mapped yet. -/
  mapState : Nat
  phys : Nat
  /-- Retired under R457, its entry in the ledger: out of service until its remap (R2). -/
  stopped : Bool
  gated : Bool
  health : CoreHealth
  beat : CoreBeat
  deriving DecidableEq, Repr

/-- One word of a monitor line (R556, R558): text, a number in a number of hexadecimal digits, or bytes. -/
inductive MonWord where
  | txt (s : String)
  | hex (digits : Nat) (v : Nat)
  | dec (v : Nat)
  | raw (bs : List Byte)
  deriving DecidableEq, Repr

/-- What the fault recorder keeps (R466 to R471). -/
structure RecState where
  /-- FAULT_LOG: the record at index SEQ mod 256 (R471). -/
  log : SMap (List Byte)
  /-- Occurrences of each event in each unit, keyed 65,536 · event + unit (R466). -/
  counts : SMap Nat
  /-- Event-and-unit keys whose records were withheld since the last one written (R466). -/
  withheld : List Nat
  /-- For each event and unit, the second of GTIME and the records written in it (R470). -/
  secs : SMap (List Nat)
  /-- Events and ports recorded in this bunting interval (R314, R331). -/
  bunting : List Nat
  deriving DecidableEq, Repr

/-- Something the device sends or drives outward, in order. -/
inductive Out where
  /-- A write to host memory (R506). -/
  | hostWrite (addr : Nat) (bytes : List Byte)
  /-- An MSI-X message of a vector: the data its table entry holds, written to the address the entry holds (R506, R508). -/
  | msix (vector addr data : Nat)
  /-- An I3C in-band interrupt with its data byte (R489). -/
  | ibi (byte : Nat)
  /-- The bytes the next I3C private read returns (R490). -/
  | i3cReply (bytes : List Byte)
  /-- The completion of a host access to BAR2, or of one to BAR0 that is turned away: `ok` false is Unsupported Request, or, with `poisoned`, Completer Abort
  (R503). -/
  | bar2 (ok poisoned : Bool) (bytes : List Byte)
  /-- The value a register read returns. -/
  | regRead (value : Nat)
  /-- A line of the serial monitor, as its words, with its check code where it carries one (R556 to R558). -/
  | monLine (words : List MonWord) (check : Option Nat)
  /-- A packet given a slot of router port `port` (R298). -/
  | packet (port : Nat) (p : Packet)
  /-- A control slot or halyard message sent on a port (R277, R278). -/
  | control (port : Nat) (bytes : List Byte)
  /-- The lane markers sent on a port, of each lane in its mask (R413). -/
  | markers (port : Nat) (bytes : List Byte)
  /-- A lane operation sent on a port (R415). -/
  | laneOp (port op lane reason arg : Nat)
  /-- A pin driven: name and level. -/
  | pin (name : String) (high : Bool)
  /-- This device's node number sent to the neighbour behind a router port (R18, R292). -/
  | nodeNumber (port node : Nat)
  /-- The wake pattern sent on a router port (R435, R543). -/
  | wakePattern (port : Nat)
  deriving DecidableEq, Repr

/-- Time and the halyard (R252 to R258). -/
structure TimeState where
  /-- GTIME in sixteenths of a nanosecond (R252). -/
  gt : Nat
  /-- GTIME_FRAC at the last read of GTIME (R272). -/
  frac : Nat
  /-- 0 FREE, 1 ACQUIRING, 2 LOCKED, 3 HOLDOVER (R257). -/
  st : Nat
  root : Bool
  rootNode : Nat
  depth : Nat
  parent : Nat
  /-- Latest corrected offset to the parent, in sixteenths (TIME_OFFSET). -/
  offset : Int
  /-- Consecutive messages within ±2 ns (R257). -/
  good : Nat
  /-- ACQUIRING after HOLDOVER: R258 applies in place of an outright set (R257). -/
  fromHoldover : Bool
  /-- ACQUIRING, and no message of the parent has set GTIME yet (R257). -/
  setDue : Bool
  /-- Remaining backward or forward slew, in sixteenths (R258). -/
  slew : Int
  /-- The latest halyard message of each port: (root, depth, state, slice, check) (R253, R261, R310). -/
  heard : SMap (Nat × Nat × Nat × Nat × Nat)
  /-- Always-on time of the latest message of a parent candidate (R257). -/
  heardAt : Nat
  /-- The pair of checks last recorded as differing on each port (R261). -/
  mismatch : SMap (Nat × Nat)
  /-- Halyard messages sent, modulo 256 (R254), and the microsecond of GTIME whose message was called for last (R278). -/
  seq : Nat
  tickUs : Nat
  /-- The grid boundary, in nanoseconds plus one, whose swap window was used last (R271). -/
  window : Nat
  deriving DecidableEq, Repr

/-- One DRAM stack and its base die (R222, R238, R246 to R251). -/
structure StackState where
  temp : Nat
  maxTemp : Nat
  /-- Highest temperature of the day (R479). -/
  dayMax : Nat
  step : Nat
  /-- GTIME of the last change of step, and since when every sample was at or below WARM − HYST (R247). -/
  since : Nat
  coolSince : Option Nat
  classB : Bool
  failed : Bool
  /-- 0 ×1, 1 ×1.25, 2 ×1.5, 3 ×2 (R249). -/
  ageFactor : Nat
  margin : Nat
  /-- The previous measurement's own factor (R250). -/
  lastFactor : Nat
  passes : Nat
  /-- The scrub's next code line (R238). -/
  scrubLine : Nat
  /-- Lines served in the last metering window: reserved and general (R246). -/
  reserved : Nat
  general : Nat
  /-- Retired pseudo-channels of the stack, 0 to 63 (R239). -/
  retired : List Nat
  deriving DecidableEq, Repr

/-- The device's own account of lines and pseudo-channels (R239 to R244). -/
structure MemState where
  /-- Pending LINE_UNCORRECTABLE records: SEQ, pseudo-channel, code line (R240, R244). -/
  pendingAck : List (Nat × Nat × Nat)
  /-- Uncorrectable lines found in each pseudo-channel: line and GTIME (R239). -/
  ueLines : SMap (List (Nat × Nat))
  /-- Corrections in each pseudo-channel within the last hour: GTIME and how many at it, newest first (R239). -/
  ceTimes : SMap (List (Nat × Nat))
  deriving DecidableEq, Repr

/-- The link layer of one external router port (R276 to R285, R312) and its lanes (R413 to R417, R461). -/
structure LinkState where
  /-- LSEQ of the next packet slot this end sends. -/
  nextLseq : Nat
  /-- Replay store: packets sent and not yet freed, oldest first (R282, R285). -/
  store : List (Nat × Packet)
  /-- LSEQ of the next packet slot due from the other end (R277). -/
  rxNext : Nat
  /-- Ranges of the current replay request, its number, and ranges that wait for the next (R284). -/
  ranges : List (Nat × Nat)
  reqNum : Nat
  waiting : List (Nat × Nat)
  /-- Newest replay request acted on (R285). -/
  reqSeen : Nat
  /-- The golden hold register (R302). -/
  held : Option Packet
  /-- GTIME of the uncorrectable codewords of the last millisecond, newest first, at most 65 (R312). -/
  uncorr : List Nat
  /-- Slots of this end's direction since training (R276), and the SEQ of a halyard message that waits for the next control
  slot (R278). -/
  slots : Nat
  halDue : Option Nat
  /-- The alignment stage: packets that have arrived and wait for this port's own next usable slot (R279). -/
  align : List Packet
  /-- SEQ of the newest halyard message received since training, and its arrival in sixteenths (ECHO_VALID, R277). -/
  echo : Option (Nat × Nat)
  /-- Lanes this end sends on, the mask generation, and what the far end's markers say: mask and MODE (R413). -/
  mask : Nat
  gen : Nat
  farMask : Nat
  farMode : Nat
  /-- Consecutive bad or missing markers of each lane (R413). -/
  badMarks : SMap Nat
  /-- The lane operation this end shows: OP, lane, reason; its OP_NUM, and the newest OP_NUM received (R415). -/
  req : Option (Nat × Nat × Nat)
  opNum : Nat
  opEcho : Nat
  /-- The other end has echoed the operation shown. -/
  opDone : Bool
  /-- Operations that wait to be shown, oldest first, and this end's REMOVE and ADD requests that are not answered. -/
  ops : List (Nat × Nat × Nat)
  asked : List (Nat × Nat × Nat)
  /-- The lane and reason of an ADD that waits for this end's lane test to pass. -/
  addDue : Option (Nat × Nat)
  /-- In PAUSE, since the GTIME given (R420). -/
  paused : Option Nat
  /-- The pause is the other end's alone, which this end's markers repeat (R420). -/
  pauseEcho : Bool
  /-- Always-on time of the port's next calibration or adaptation turn (R421, R461, R483). -/
  turnDue : Nat
  /-- No lane has carried anything: the next control slot names what was missed (R420). -/
  dark : Bool
  /-- The sweep point of the other end answered last, and this end's eye there (R415, R422). -/
  step : Nat
  stepEye : Nat
  /-- Departures of this end's halyard messages by SEQ, the sum and count of the round trips of this millisecond, the
  measured round trip and the asymmetry recorded at training, all in sixteenths (R255). -/
  departs : SMap Nat
  trips : Nat × Nat
  rtt : Nat
  asym : Int
  /-- Lanes failed and retired of a board port, and the lane whose adaptation turn is next, and the adaptation
  interval re-planned, 0 for the upper limit (R419, R461, R483). -/
  failed : Nat
  retired : Nat
  adaptNext : Nat
  interval : Nat
  deriving DecidableEq, Repr

/-- A fabric command being received or waiting (R309, R311). -/
structure FabCmd where
  src : Nat
  /-- The number of chunks, those received by number, and the always-on time of the latest. -/
  chunks : Nat
  got : SMap (List Byte)
  last : Nat
  /-- Whether its signature has been checked and it waits for APPLY_TIME. -/
  verified : Bool
  deriving DecidableEq, Repr

/-- The router, its tables, fences and maps (R274 to R318). -/
structure FabState where
  /-- The member bitmap of SLICE_STATE (R309). -/
  members : Nat
  /-- Both banks of the rack and local tables, keyed 1,024 · bank + rack and 64 · bank + position (R293, R295). -/
  racks : SMap W32
  locals : SMap W64
  links : SMap LinkState
  /-- Round-robin start (R298). -/
  rr : Nat
  /-- Copies that replay requests call for, with the port and LSEQ of the original, waiting for a slot (R285). -/
  copies : List (Nat × Nat × Packet)
  /-- The management mailbox (R317). -/
  mailbox : List Packet
  /-- Chunks of commands, complete commands waiting for verification, and verified ones (R309, R311). -/
  cmds : List FabCmd
  /-- Microsecond of the injection counts, packets injected in it, and MGMT packets among them (R304). -/
  injWin : Nat × Nat × Nat
  /-- Counts of the bunting map being made, keyed 32 · port + field, or 2,048 + index of the device's words (R315). -/
  map : SMap Nat
  /-- The last complete map (R316), and the GTIME in nanoseconds at which the present one began. -/
  lastMap : List Byte
  mapStart : Nat
  deriving DecidableEq, Repr

/-- A request sent, or waiting for a credit, on a board channel (R335 to R338). `kind`: 0 load for an instruction,
1 store, 2 signal, 3 BAR2 read, 4 BAR2 write. -/
structure BoardReq where
  slot : Nat
  seq : Nat
  kind : Nat
  core : Nat
  ctx : Nat
  pc : Nat
  word : W128
  /-- The long operation that waits for it, by its id. -/
  op : Nat
  addr : Nat
  len : Nat
  /-- For an accumulate-write, 1 plus the DACC format; 0 for a plain store (assumption log 14, DESIGN CHOICE). -/
  acc : Nat
  payload : List Byte
  retries : Nat
  /-- Whether it has left, holding a credit, and when it left last, by the always-on counter in ns (R331). -/
  sent : Bool
  sentAt : Nat
  deriving DecidableEq, Repr

/-- A gather request held by an owner (R348, R390). -/
structure GatherReq where
  peer : Nat
  coll : Nat
  tensor : Nat
  version : Nat
  count : Nat
  fmt : Nat
  bind : Nat
  deriving DecidableEq, Repr

/-- The receiver's side of one binding (R324 to R332). -/
structure RxBind where
  /-- The collective it serves, by its number, and the rank whose part it receives. -/
  coll : Option Nat
  rank : Nat
  /-- LIMIT, the lowest SEQ not consumed, and the consumed SEQs above it. -/
  limit : Nat
  low : Nat
  seen : List Nat
  /-- The first SEQ of this use, the elements that have arrived in it, and whether the sender has said which SEQ is its
  last. -/
  base : Nat
  got : Nat
  /-- Elements of a share part that have been added to each bucket (R364). -/
  buckets : SMap Nat
  returned : Bool
  share : Bool
  closed : Bool
  /-- Packets consumed since the last GRANT entry (R332). -/
  unacked : Nat
  /-- Re-sendings of the request that announced this use, and when it left last (R331). -/
  tries : Nat
  askedAt : Nat
  /-- When a packet arrived on it, or a GRANT entry for it left, last, by the always-on counter in ns (R326). -/
  lastAt : Nat
  deriving DecidableEq, Repr

/-- The sender's side of one binding. -/
structure TxBind where
  /-- What the sender uses it for: 0 nothing, 1 a collective of this device, 2 a gather request served. -/
  use : Nat
  coll : Nat
  rank : Nat
  req : Option GatherReq
  /-- The next SEQ to send, and the newest LIMIT and ACK (R326). -/
  next : Nat
  limit : Nat
  ack : Nat
  base : Nat
  /-- What the latest GRANT entry announced: COLL_ID, EPOCH, FMT, COUNT, and its SHARE flag (R340). -/
  gColl : Nat
  gEpoch : Nat
  gFmt : Nat
  gCount : Nat
  gShare : Bool
  /-- A grant stands that nothing here has used yet, and its place among the stream's grants in order of arrival (R357). -/
  open_ : Bool
  order : Nat
  /-- Re-sendings of each spent SEQ (R333), and when it left last, by the always-on counter in ns (R331). -/
  retries : SMap Nat
  times : SMap Nat
  deriving DecidableEq, Repr

/-- A stream record (R319). -/
structure Stream where
  /-- The slot at the peer that holds this stream, which no field announces (assumption log 21, DESIGN CHOICE). -/
  peerSlot : Nat
  flagged : Bool
  /-- GTIME of its last packet or grant (R321, R322). -/
  active : Nat
  rx : SMap RxBind
  tx : SMap TxBind
  /-- Gather requests of the peer that wait for a commit (R348). -/
  reqs : List GatherReq
  /-- Gather requests of this device outstanding at the peer. -/
  asked : Nat
  /-- Grants that have opened a binding (R357). -/
  arrivals : Nat
  deriving DecidableEq, Repr

/-- A pair that CRED reduces: value bits, index and rank (R355), and whether a poisoned line has touched it (R360). -/
structure Pair where
  val : W32
  idx : Nat
  rank : Nat
  bad : Bool
  deriving DecidableEq, Repr

/-- A collective of this device (R341 to R361). `kind` is the COL operation; 16 is the commit vote and 17 an exchange of
an update shard (R384, R391). `phase`: 0 queued, 1 running, 2 ended for its core while its bindings drain. -/
structure Coll where
  num : Nat
  core : Nat
  ctx : Nat
  op : Nat
  kind : Nat
  id : Nat
  epoch : Nat
  group : List Nat
  size : Nat
  rank : Nat
  root : Nat
  fan : Nat
  count : Nat
  fmt : Nat
  min : Bool
  block : BitVec 512
  dd : BitVec 512
  ds : BitVec 512
  di : BitVec 512
  si : BitVec 512
  /-- Peer and pinned slot of a CSEND or CRECV. -/
  peer : Nat
  shard : Nat
  step : Nat
  phase : Nat
  /-- Status so far and the ranks it affects (R346). -/
  status : Nat
  bad : List Nat
  elements : Nat
  retrans : Nat
  /-- Ranks whose part from here is acknowledged, and ranks whose part has landed here. -/
  sent : List Nat
  got : List Nat
  /-- Ranks whose part never came: what it would have filled is left unpredictable (R347). -/
  lost : List Nat
  /-- Elements per part that a peer's grant lets this device send, where less than COUNT (R357). -/
  sendCount : SMap Nat
  /-- Packets of a multicast that have landed, by number (R352). -/
  landed : List Nat
  /-- Ranks below this one in its tree, those done, those that adopted it, and the pruned members below (R353). -/
  kids : List Nat
  kidsDone : List Nat
  parent : Nat
  pruned : List Nat
  prunedCount : Nat
  /-- Partials of a reduction by rank, and its result (R355, R384). -/
  partials : SMap (List Pair)
  result : Option (List Pair)
  upSent : Bool
  /-- Re-sendings of a CPERM's offer (R331), and when it left last. -/
  tries : Nat
  offerAt : Nat
  released : Bool
  /-- When it was issued, by the always-on counter in ns, and whether a TIMEOUT has stopped its sending and granting
  (R358). -/
  issuedAt : Nat
  halted : Bool
  deriving DecidableEq, Repr

structure NiState where
  /-- Packets waiting for injection, oldest first, each with the router port it enters at (R274, R298, R304). -/
  inject : List (Nat × Packet)
  /-- Packets ejected by the router that no event has handled yet. -/
  ejected : List Packet
  /-- Part number of the device behind each board slot whose channel has come up; absent slots have none (R178). -/
  peers : SMap Nat
  /-- Requests of board channels not yet answered (R335). -/
  board : List BoardReq
  /-- The next SEQ of each board channel, and the SEQs consumed from it with what was answered: 0 done, else the reason of
  the FAULT reply (R338). -/
  boardSeq : SMap Nat
  boardSeen : SMap (SMap Nat)
  /-- Streams by peer, and the peer of the stream in each resident slot (R319). -/
  streams : SMap Stream
  slots : SMap Nat
  /-- Collectives in issue order, and the number of the next. -/
  colls : List Coll
  nextColl : Nat
  /-- The members a verified slice command excludes, as a bitmap, until its APPLY_TIME, and the GTIME in ns after which no
  GRANT or reply goes to them (R359). -/
  draining : Nat
  drainBy : Nat
  deriving DecidableEq, Repr

/-- A shard entry in force (R381 to R389). -/
structure Shard where
  /-- Bytes 0 to 191 as they were validated. -/
  entry : List Byte
  cur : Nat
  /-- OTHER: 0 HELD, 1 BUILDING, 2 BUILT, and whether version VERSION − 1 is held in the other region (R388, R393). -/
  other : Nat
  held : Bool
  version : Nat
  clips : Nat
  flags : Nat
  /-- Row and column partials, keyed (output stream, bucket, index) as 2^25 · stream + 2^20 · bucket + index (R384). -/
  parts : SMap W32
  /-- XSUM, and whether a poisoned line has touched it (R384, R397). -/
  xsum : W32
  xsumBad : Bool
  /-- The exchange or fold is done; an exchange runs as the collective numbered. -/
  folded : Bool
  exch : Option Nat
  /-- SPARSE: CA2As of the step that completed OK (bit 0 indices, bit 1 rows, bits 4 to 7 the rows' format), the update is complete, and the row log:
  row, address in the table, and bytes, each with its taint (R386, R387, R397). -/
  landed : Nat
  updated : Bool
  log : List (Nat × Nat × List (Byte × Bool))
  deriving DecidableEq, Repr

/-- The update engines and the step commit beside their registers (R371 to R397). -/
structure UpdState where
  /-- Validated program images by slot (R378). -/
  progs : SMap (List Byte)
  shards : SMap Shard
  /-- Buckets waiting for an engine, in order (R371). -/
  queue : List Nat
  /-- The bucket each busy engine runs, and the attempt and mismatched lanes of its pass (R396). -/
  running : SMap Nat
  /-- The program image with which each engine's pass started (R378). -/
  image : SMap (List Byte)
  attempt : SMap Nat
  badLanes : SMap (List Nat)
  /-- Abort codes that apply in this step (R391). -/
  codes : List Nat
  /-- The vote's result: code, rank and latest voting beat (R392). -/
  result : Option (Nat × Nat × Nat)
  /-- A due vote waits for a good commit group (R588). -/
  waiting : Bool
  /-- Steps begun since reset, a step run again after an abort counting anew; a collective belongs to the one in which it
  issued (R391). -/
  round : Nat
  deriving DecidableEq, Repr

/-- One optical lane (R410 to R422, R439); powers and detunings as their registers hold them. -/
structure LaneState where
  txLock : Nat
  rxLock : Nat
  /-- Order hops pending of the modulator and of the filter; HOP shows either (R412). -/
  hopTx : Bool
  hopRx : Bool
  txHeater : Nat
  rxHeater : Nat
  eye : Nat
  rxPwr : Nat
  txDetune : Nat
  rxDetune : Nat
  retries : Nat
  unlocks : Nat
  /-- Consecutive updates of each ring whose error, and whose monitor, broke the limits of R411. -/
  badTx : Nat × Nat
  badRx : Nat × Nat
  /-- Relock attempts since the lock was lost (R419). -/
  attempts : Nat
  /-- Heater powers at the last calibration (R483). -/
  calTx : Nat
  calRx : Nat
  /-- Setpoints before a running calibration (R423). -/
  saved : Option (Nat × Nat)
  /-- This end's lane test of the lane: 0 none, 1 running, 2 pass, 3 fail (R415). -/
  test : Nat
  /-- Always-on time at which the lane was lost to service (R418). -/
  since : Nat
  deriving DecidableEq, Repr

/-- One bobbin (R424 to R427, R438, R483). -/
structure LaserState where
  st : Nat
  active : Bool
  spareOk : Bool
  power : Nat
  bias : Nat
  freqOfs : Nat
  /-- P_c of the primary and of the spare. -/
  pc : Nat
  pcSpare : Nat
  biasLimit : Nat
  /-- Consecutive 1 ms samples at or below the spare and end-of-life thresholds (R426). -/
  fadeRun : Nat
  eolRun : Nat
  /-- SPARE_DB_EFF, and the bias trend (R488); `none` is SPARE_DB. -/
  spareDb : Option Nat
  trend : Nat
  /-- A threshold that waits for the handover's end (R484). -/
  spareDue : Option Nat
  /-- Whether the bobbin still has a laser, and the lasers retired: bit 0 primary, bit 1 spare. -/
  retired : Nat
  deriving DecidableEq, Repr

/-- One optical port beside PORT_OPT_q and PORT_PWR_q. -/
structure OptPort where
  calNext : Nat
  /-- The lane whose handover holds the port, and whether the handover is of this end's bobbin (R417). -/
  handover : Option (Nat × Bool)
  /-- The port, at six lanes, pauses for a handover (R427). -/
  hoPause : Bool
  /-- A calibration of the day moved a lane (R483). -/
  moved : Bool
  /-- GTIME of entries to safe pulse mode and of launch-cap trips in the last hour (R433). -/
  safeAt : List Nat
  capAt : List Nat
  /-- Training attempts that left fewer than 6 lanes (R429). -/
  tries : Nat
  deriving DecidableEq, Repr

structure OptState where
  /-- Lanes keyed 8 · port + lane, bobbins keyed 8 · engine + channel, ports by optical port number. -/
  lanes : SMap LaneState
  lasers : SMap LaserState
  ports : SMap OptPort
  deriving DecidableEq, Repr

/-- One entry of the defect ledger (R452). -/
structure LedgerEntry where
  kind : Nat
  flags : Nat
  event : Nat
  unit : Nat
  start : Nat
  opSeconds : Nat
  /-- Whether the entry's CHECK passes (R454). -/
  good : Bool
  deriving DecidableEq, Repr

/-- What ages in one physical core (R477, R480): voltages in mV, margins in ps, the oscillator shift in hundredths of a
per cent. -/
structure PhysAge where
  commission : Nat
  rise : Nat
  margin : Int
  /-- The least margin since the last daily record. -/
  least : Option Int
  /-- Consecutive records at or above LOWER_PS. -/
  above : Nat
  shift : Int
  /-- GTIME of the last VOLTAGE_RAISED. -/
  lastRaise : Option Nat
  /-- Retries and corrections of the day. -/
  dayCount : Nat
  deriving DecidableEq, Repr

/-- Bring-up, the variant record, the ledger, the core map and ageing (R440 to R488). Physical core `p` is
52 · die + index. -/
structure BootState where
  /-- The part applied at stage 2: 0 none, else 960 or 720 (R5). -/
  part : Nat
  /-- Nanoseconds since RESET_N release by the always-on counter, and those at the stage's start (R445). -/
  aonNs : Nat
  stageStart : Nat
  /-- The pennant of each stage (R445); absent is all zero. -/
  pennants : SMap (List Byte)
  /-- Ledger entries called for, and the latest record's SEQ, when the stage started (LEDGER_NEW, FIRST_EVENT). -/
  stageLedger : Nat
  stageSeq : Nat
  /-- Bytes 0 to 127 of the stored variant record, empty when absent, and whether its signature verifies (R449). -/
  variant : List Byte
  variantGood : Bool
  /-- SERIAL of the identity certificate (R449, R523). -/
  certSerial : List Byte
  /-- Bytes 0 to 127 of the applied record (R450). -/
  applied : List Byte
  /-- The ledger, and entries called for and not yet appended (R453). -/
  ledger : List LedgerEntry
  due : List LedgerEntry
  ledgerSaid : Bool
  /-- The core map record in flash: logical to physical (R456). -/
  coreRec : SMap Nat
  /-- Physical cores that passed the test of this start, those out of service, and those whose hardware fails a core
  test whenever it runs (assumption log 17, DESIGN CHOICE). -/
  passed : List Nat
  retired : List Nat
  faulty : List Nat
  /-- A die link has failed: no core starts and no vote until the next reset (R473). -/
  linkDead : Bool
  /-- The die links that have failed, by bit. -/
  linksDown : Nat
  /-- A logical number has become absent and no core-start has reported it (R460). -/
  reduced : Bool
  /-- The next vote carries CORE_RETIRED (R457). -/
  voteRetired : Bool
  /-- Seconds of operation since manufacture. -/
  opSeconds : Nat
  /-- Spare lanes in use on each die link, and GTIME of each lane's retries of the last millisecond, keyed
  64 · link + lane (R473). -/
  linkSpares : SMap Nat
  linkRetry : SMap (List Nat)
  age : SMap PhysAge
  /-- The ageing log, newest first (R478). -/
  ageLog : List (List Byte)
  /-- Days of operation whose ageing record has been written, and the record of a day that ended in P3, with its bias trends,
  which waits for the wake (R478). -/
  daysDone : Nat
  dayHeld : Option (List Byte × List (Nat × Int))
  /-- Counts of the day, in the order of TOTALS (R479). -/
  day : SMap Nat
  /-- Highest compute-die temperature of the day. -/
  dayMaxC : Nat
  deriving DecidableEq, Repr

/-- One completion-queue entry before it is written: SQ_HEAD, PHASE and GTIME are taken when it is (R514). -/
structure CqEntry where
  cid : Nat
  status : Nat
  /-- KIND[0]: 0 command, 1 context end. -/
  kind : Nat
  lcore : Nat
  ctx : Nat
  code : Nat
  faultSeq : Nat
  pc : Nat
  irq : Bool
  deriving DecidableEq, Repr

/-- A command started and not yet complete: a CORE_STOP or a FENCE (R511, R513). Queue 16 stands for COMMAND packets. -/
structure HostCmd where
  q : Nat
  op : Nat
  cid : Nat
  irq : Bool
  lcore : Nat
  mask : Nat
  deriving DecidableEq, Repr

/-- A host access to BAR0, or to BAR2, with the bytes of a write. -/
structure HostAcc where
  bar2 : Bool
  off : Nat
  len : Nat
  data : Option (List Byte)
  /-- The memory errors a read through BAR2 will meet. -/
  errs : List MemErr
  deriving DecidableEq, Repr

/-- A host read through BAR2 of a board peer, as its lines come back (R335, R503): the requests still unanswered, the bytes
so far, and whether a line was poisoned, refused or lost. -/
structure PeerRead where
  num : Nat
  addr : Nat
  len : Nat
  left : Nat
  got : SMap Byte
  bad : Bool
  refused : Option Nat
  lost : Bool
  deriving DecidableEq, Repr

/-- The PCIe host port beside its registers (R501 to R516). -/
structure HostState where
  linkUp : Bool
  /-- The PHASE the device writes in each queue; an absent queue writes 1 (R511, R514). -/
  phase : SMap Bool
  /-- Entries held back for a full completion queue (R516). -/
  held : SMap (List CqEntry)
  running : List HostCmd
  /-- MSI-X table words, keyed by byte offset from 0x4000; an absent vector control word is masked (R508). -/
  msixTable : SMap W32
  /-- Vectors pending while masked (the PBA). -/
  msixPending : List Nat
  /-- BAR2 reads that wait for earlier BAR2 writes: board address, length and the errors they will meet (R504). -/
  reads : List (Nat × Nat × List MemErr)
  /-- BAR2 reads of board peers under way, and the number of the next. -/
  peerReads : List PeerRead
  nextRead : Nat
  /-- Host accesses that wait for the exit from P2 or P3, oldest first (R542). -/
  later : List HostAcc
  deriving DecidableEq, Repr

/-- A firmware slot in package flash (R444, R519). -/
structure FwSlot where
  version : Nat
  svn : Nat
  good : Bool
  deriving DecidableEq, Repr

/-- Ownership and security (R489 to R526). -/
structure OwnState where
  /-- Master code of the owner, 0 none. -/
  owner : Nat
  /-- 0 VACANT, 1 HELD, 2 HANDING. -/
  st : Nat
  successor : Nat
  succNode : Nat
  ownerNode : Nat
  leaseLeft : Nat
  /-- When the latest handover began, by the always-on counter, while the burgee is HANDING (R497). -/
  handedAt : Nat
  nonce : W64
  /-- Masters whose claims are being verified, in order of GO (R495). -/
  verifying : List Nat
  /-- CLAIM_m STATUS and REASON (R529). -/
  claims : SMap (Nat × Nat)
  /-- Source node of each of the fabric manager's claim packets, by its chunk (R494). -/
  claimSrc : SMap Nat
  /-- Claim buffer bytes, keyed 0x4000 · (m − 1) + offset. -/
  claimBuf : SMap Byte
  /-- Attestation block bytes, keyed 0x2000 · (m − 1) + offset, and their STATUS. -/
  attest : SMap Byte
  attestSt : SMap Nat
  attestQueue : List Nat
  /-- EPO and RESET are armed until this time of the always-on counter in ns (R490). -/
  armed : Option Nat
  i3cAddr : Option Nat
  slotA : FwSlot
  slotB : FwSlot
  bootSlot : Nat
  /-- STATUS of the firmware, key and variant updates (R530). -/
  fwUpd : Nat
  keyUpd : Nat
  varUpd : Nat
  updSerial : Nat
  /-- Public key bytes, keyed 0x800 · k + offset, and certificate bytes (R530). -/
  keys : SMap Byte
  cert : SMap Byte
  /-- The measurement log, its count of measurements, and LOG_ACC (R524). -/
  log : SMap (List Byte)
  logCount : Nat
  logAcc : List Byte
  /-- Watchdog: the latest kick or load of firmware, and the last expiry, by the always-on counter in ns (R526). -/
  kickAt : Nat
  lastExpiry : Option Nat
  /-- An EPO has turned the supplies off (R491). -/
  epo : Bool
  deriving DecidableEq, Repr

/-- Power states, clocks and trips (R532 to R552). -/
structure PwrState where
  /-- 0 to 3 for P0 to P3. -/
  st : Nat
  entering : Bool
  target : Nat
  /-- Every block has accepted; the entry is completing (R538). -/
  accepted : Bool
  /-- GTIME of GO, for DELAY_MAX_US (R537). -/
  goTime : Nat
  /-- A wake latched during an entry, and its source (R539). -/
  latched : Bool
  latchSrc : Nat
  /-- LAST_WAKE; an exit is under way since `exitAt`, by the always-on counter in ns (R533, R542). -/
  lastWake : Nat
  exiting : Bool
  exitAt : Nat
  /-- The clock R545 allows in MHz, whether a capping episode runs, and GTIME of its last step. -/
  capClock : Nat
  capping : Bool
  capAt : Nat
  /-- The clock R546 allows each die in MHz, 1,800 where absent, whether an episode runs on it, and GTIME of its last
  step. -/
  clocks : SMap Nat
  throttled : SMap Bool
  thAt : SMap Nat
  temps : SMap Nat
  tripped : Bool
  /-- A RESET_N with this SLOT_ID waits until every sensor reads below 100 °C (R548). -/
  resetHeld : Option Nat
  /-- VDD_AON_3V3 has been lost; nothing runs until RESET_N is released with it back (R574). -/
  aonLost : Bool
  /-- WAKE_N is driven low, since `wakeAt` (R578). -/
  wakeN : Bool
  wakeAt : Nat
  /-- Reset cause of the present start (R448). -/
  cause : Nat
  deriving DecidableEq, Repr

/-- The serial monitor beside its registers (R553 to R564). -/
structure MonState where
  /-- MON_STATUS.MODE: 0 ROM monitor, 1 firmware monitor. -/
  mode : Nat
  /-- MON_STATUS.BAUD (R554). -/
  baud : Nat
  /-- The rate that BAUD has asked for, and when it begins by the always-on counter (R554). -/
  baudNext : Option (Nat × Nat)
  /-- When a rate set by BAUD began, by the always-on counter, while no valid line has come (R554). -/
  revert : Option Nat
  /-- The verification whose response is due, and whether it carries a check code: 1 claim, 2 quote, 3 firmware,
  4 variant, 5 key update (R558). -/
  due : Option (Nat × Bool)
  /-- Lines received while a command runs, oldest first; one that overran the 512 characters is kept as none (R558, R559). -/
  buf : List (Option (List Byte))
  /-- Unsolicited lines waiting, at most 32, and lines lost since room last ran out (R562, R563). -/
  queue : List (List MonWord)
  lost : Nat
  deriving DecidableEq, Repr

/-- Everything but the memory and the queue. -/
structure Dev where
  /-- Registers of BAR0 that hold a value of their own, keyed by the offset of the 32-bit word; an absent word holds
  its reset value. -/
  regs : SMap W32
  cores : SMap Core
  boot : BootState
  tm : TimeState
  stk : SMap StackState
  mm : MemState
  fab : FabState
  ni : NiState
  upd : UpdState
  opt : OptState
  own : OwnState
  host : HostState
  pwr : PwrState
  mon : MonState
  rcd : RecState
  out : List Out
  /-- The model's own counter of free values drawn (assumption log 5, DESIGN CHOICE). -/
  free : Nat
  deriving DecidableEq, Repr

/-- The block. -/
structure State where
  pending : List Instr
  dev : Dev
  mem : Mem
  deriving DecidableEq, Repr
/-! ### After reset -/

/-- The recorder after reset (R471, R486). -/
def rcdReset : RecState := ⟨[], [], [], [], []⟩
/-- Time after reset: FREE, with no parent (R257, R272). -/
def tmReset : TimeState :=
  { gt := 0, frac := 0, st := 0, root := false, rootNode := 0, depth := 0, parent := 63, offset := 0, good := 0,
    fromHoldover := false, setDue := false, slew := 0, heard := [], heardAt := 0, mismatch := [], seq := 0, tickUs := 0, window := 0 }
/-- The router after reset: no member, empty tables (R306, R318). -/
def fabReset : FabState :=
  { members := 0, racks := [], locals := [], links := [], rr := 0, copies := [], mailbox := [], cmds := [],
    injWin := (0, 0, 0), map := [], lastMap := [], mapStart := 0 }
/-- The network interface after reset. -/
def niReset : NiState :=
  { inject := [], ejected := [], peers := [], board := [], boardSeq := [], boardSeen := [], streams := [], slots := [],
    colls := [], nextColl := 0, draining := 0, drainBy := 0 }
/-- The update engines and the commit after reset. -/
def updReset : UpdState :=
  { progs := [], shards := [], queue := [], running := [], image := [], attempt := [], badLanes := [], codes := [], result := none,
    waiting := false, round := 0 }
/-- The host port after reset (R505, R508). -/
def hostReset : HostState :=
  { linkUp := false, phase := [], held := [], running := [], msixTable := [], msixPending := [], reads := [],
    peerReads := [], nextRead := 0, later := [] }
/-- The monitor after reset: the ROM monitor at 115,200 baud (R553, R564). -/
def monReset : MonState := { mode := 0, baud := 0, baudNext := none, revert := none, due := none, buf := [], queue := [], lost := 0 }
/-- Power after reset: P0, every die at 1,800 MHz (R551). -/
def pwrReset : PwrState :=
  { st := 0, entering := false, target := 0, accepted := false, goTime := 0, latched := false, latchSrc := 0, lastWake := 0,
    exiting := false, exitAt := 0, capClock := 1800, capping := false, capAt := 0, clocks := [], throttled := [],
    thAt := [], temps := [], tripped := false, resetHeld := none, aonLost := false, wakeN := false, wakeAt := 0, cause := 0 }
/-- Ownership and security after reset: VACANT, nothing verified, an empty log (R492, R524). The nonce is random in the
hardware (assumption log 4, DESIGN CHOICE), and firmware slot A holds an image (assumption log 3, DESIGN CHOICE). -/
def ownReset : OwnState :=
  { owner := 0, st := 0, successor := 0, succNode := 0, ownerNode := 0, leaseLeft := 0, handedAt := 0, nonce := 0#64,
    verifying := [], claims := [], claimSrc := [], claimBuf := [], attest := [], attestSt := [], attestQueue := [],
    armed := none, i3cAddr := none, slotA := ⟨0, 0, true⟩, slotB := ⟨0, 0, false⟩, bootSlot := 0, fwUpd := 0, keyUpd := 0,
    varUpd := 0, updSerial := 0, keys := [], cert := [], log := [], logCount := 0, logAcc := List.replicate 64 0#8,
    kickAt := 0, lastExpiry := none, epo := false }

/-- A variant record of a JX2-960 with every unit enabled and serial number 0, as flash holds it (R449; assumption
log 3, DESIGN CHOICE). -/
def variant960 : List Byte :=
  leBytes 2 1 ++ leBytes 2 960 ++ leBytes 1 48 ++ leBytes 1 48 ++ leBytes 2 768 ++ leBytes 8 0 ++
    leBytes 8 (2 ^ 52 - 1) ++ leBytes 8 (2 ^ 52 - 1) ++ leBytes 8 (2 ^ 52 - 1) ++ leBytes 8 (2 ^ 52 - 1) ++
    leBytes 2 0xFFFF ++ leBytes 2 0 ++ leBytes 4 0xFFFFFFFF ++ leBytes 1 0x7F ++ leBytes 7 0 ++ leBytes 64 0

/-- The pennant of stage 0 at the start numbered `starts`: RUNNING, all else 0 (R445, R448). -/
def pennantFirst (starts : Nat) : List Byte :=
  let b := leBytes 1 0 ++ leBytes 1 1 ++ leBytes 2 0 ++ leBytes 4 starts ++ leBytes 52 0
  b ++ leBytes 4 (crc32 b)

/-- Bring-up after a power-on reset: stage 0 runs, and flash holds a good record, an empty ledger and no core map
(R440, R445, R456; assumption log 3, DESIGN CHOICE). -/
def bootReset : BootState :=
  { part := 0, aonNs := 0, stageStart := 0, pennants := [(0, pennantFirst 1)], stageLedger := 0, stageSeq := 0, variant := variant960,
    variantGood := true, certSerial := List.replicate 16 0#8, applied := [], ledger := [], due := [], ledgerSaid := false,
    coreRec := [], passed := [], retired := [], faulty := [], linkDead := false, linksDown := 0, reduced := false, voteRetired := false,
    opSeconds := 0, linkSpares := [], linkRetry := [], age := [], ageLog := [], daysDone := 0, dayHeld := none, day := [], dayMaxC := 0 }

/-- Every part of the block after a power-on reset: START_COUNT reads 1 and every other register its reset value. -/
def devReset : Dev :=
  { regs := [(0x804, 1#32)], cores := [], boot := bootReset, tm := tmReset, stk := [], mm := ⟨[], [], []⟩, fab := fabReset,
    ni := niReset, upd := updReset, opt := ⟨[], [], []⟩, own := ownReset, host := hostReset, pwr := pwrReset, mon := monReset,
    rcd := rcdReset, out := [], free := 0 }

/-- The block right after reset: nothing commanded, memory with nothing listed. -/
def State.reset : State := { pending := [], dev := devReset, mem := ⟨[], [], [], [], []⟩ }


end Sys2Proof.Machine
end

