-- ==== Sys2Proof/Machine/Ops.lean ====
section
/-! DEFINITION. The named operations on memory, registers and cores, and how a command's effect becomes a state. -/

namespace Sys2Proof.Machine

/-! ### Memory -/

/-- Whether an occasion left address `a` undefined; segments of kept banks are not (R212). -/
def inUndef (r : UndefRange) (a : Nat) : Bool :=
  decide (r.lo ≤ a ∧ a < r.hi) && (r.period == 0 || decide ((a - r.lo) % r.period < r.width)) &&
    !natBit r.keep ((a - r.lo) / 64 % 48)

/-- The undefined range an address lies in, the latest first. -/
def undefAt (u : List UndefRange) (a : Nat) : Option Nat :=
  match u with
  | [] => none
  | r :: t => if inUndef r a then some r.salt else undefAt t a

/-- What an unlisted address reads as: 0, or a free byte where the specification calls the contents undefined
(assumption log 2, 5). -/
def memDefault (u : List UndefRange) (a : Nat) : Byte :=
  match undefAt u a with
  | some salt => Config.freeByte salt a
  | none => 0#8

/-- The byte at a memory key. -/
def memByte (m : Mem) (a : Nat) : Byte := smapGet m.cells a (memDefault m.undef a)

/-- Bytes at rising memory keys. -/
def memBytes (m : Mem) (a k : Nat) : List Byte := (rangeFrom a k).map (memByte m)

/-- The list of cells without address `a`. -/
def cellsDel (c : List Host.Cell) (a : Nat) : List Host.Cell :=
  match c with
  | [] => []
  | (a', b) :: t => if a' = a then t else (a', b) :: cellsDel t a

/-- Rising insertion into a list of keys. -/
def keyInsert (l : List Nat) (k : Nat) : List Nat :=
  match l with
  | [] => [k]
  | x :: t => if k < x then k :: x :: t else if k = x then x :: t else x :: keyInsert t k

/-- One change of memory. -/
inductive MemOp where
  /-- Write a byte. -/
  | wr (a : Nat) (b : Byte)
  /-- Poison the unit whose first byte is at `k`. -/
  | poison (k : Nat)
  /-- Clear the poison of that unit by a full write at GTIME `t`. -/
  | unpoison (k t : Nat)
  /-- The bytes of a range become undefined, and lose their poison. -/
  | undef (r : UndefRange)
  /-- The code line at `k` is left with wrong symbols, or with none (R237). -/
  | flaw (k : Nat) (syms : List (Nat × Nat))
  deriving DecidableEq, Repr

/-- One byte written, in canonical form. -/
def memWrite (m : Mem) (a : Nat) (b : Byte) : Mem :=
  if (undefAt m.undef a).isSome || b != 0#8 then { m with cells := smapSet m.cells a b }
  else { m with cells := cellsDel m.cells a }

/-- The wrong symbols of the code line at `k`, `l` (R236). -/
def setFlaws (m : Mem) (k : Nat) (l : List (Nat × Nat)) : Mem :=
  { m with flaws := if l.isEmpty then smapDrop m.flaws (fun x => x == k) else smapSet m.flaws k l }

/-- One change applied; a write encodes its code line again (R228). -/
def memApply (m : Mem) (op : MemOp) : Mem :=
  match op with
  | .wr a b => setFlaws (memWrite m a b) (a / 64 * 64) []
  | .flaw k l => setFlaws m k l
  | .poison k => { m with poison := keyInsert m.poison k }
  | .unpoison k t =>
    if m.poison.contains k then { m with poison := m.poison.filter (fun x => x != k), cleared := smapSet m.cleared k t } else m
  | .undef r =>
    { cells := m.cells.filter (fun c => !inUndef r c.1)
      poison := m.poison.filter (fun x => !inUndef r x)
      cleared := smapDrop m.cleared (inUndef r)
      undef := r :: m.undef
      flaws := smapDrop m.flaws (inUndef r) }

/-- Changes applied in order. -/
def memApplyAll (m : Mem) (ops : List MemOp) : Mem :=
  match ops with
  | [] => m
  | op :: t => memApplyAll (memApply m op) t

/-- Keys strictly rising. -/
def rising (l : List Nat) : Bool :=
  match l with
  | [] => true
  | [_] => true
  | a :: b :: t => decide (a < b) && rising (b :: t)

/-- The canonical form of memory: addresses and keys strictly rising, no listed byte equal to the 0 an unlisted address
reads as, outside undefined ranges, and no line listed without a wrong symbol. -/
def Mem.wf (m : Mem) : Bool :=
  rising (m.cells.map (fun c => c.1)) && rising m.poison &&
    m.cells.all (fun c => (undefAt m.undef c.1).isSome || c.2 != 0#8) &&
    rising (m.cleared.map (fun c => c.1)) && rising (m.flaws.map (fun c => c.1)) && m.flaws.all (fun c => !c.2.isEmpty)

/-- The bytes written at rising memory keys. -/
def wrBytes (a : Nat) (bs : List Byte) : List MemOp :=
  match bs with
  | [] => []
  | b :: t => .wr a b :: wrBytes (a + 1) t

/-- A command's effect on everything but the queue becomes the next state. -/
def finish (s : State) (r : Dev × List MemOp) : Host.Outcome State Fault Refusal :=
  .next { pending := s.pending, dev := r.1, mem := memApplyAll s.mem r.2 }

/-- The same for a command that changes no memory. -/
def finishDev (s : State) (d : Dev) : Host.Outcome State Fault Refusal := finish s (d, [])

/-! ### What runs (R532, R547) -/

/-- Whether the network die, the links and the tile DMA run: the device is in P0 or P1 with its supplies on. -/
def routerOn (d : Dev) : Bool := decide (d.pwr.st ≤ 1) && !d.pwr.tripped && !d.own.epo

/-- Whether cores and update engines run: the device is in P0 with its supplies on. -/
def coresRun (d : Dev) : Bool := d.pwr.st == 0 && !d.pwr.tripped && !d.own.epo

/-! ### Registers -/

/-- The register word at BAR0 offset `off`. -/
def regGet (d : Dev) (off : Nat) : W32 := smapGet d.regs off (regReset off)

/-- The register word at `off`, as a number. -/
def regNat (d : Dev) (off : Nat) : Nat := (regGet d off).toNat

/-- The register word at `off` set. -/
def regPut (d : Dev) (off : Nat) (v : W32) : Dev := { d with regs := smapSet d.regs off v }

/-- The register word at `off` set to a number. -/
def regPutNat (d : Dev) (off v : Nat) : Dev := regPut d off (BitVec.ofNat 32 v)

/-- Bits of the register word at `off`. -/
def regField (d : Dev) (off lo w : Nat) : Nat := bvBits (regGet d off) lo w

/-- Bits of the register word at `off` set. -/
def regPutField (d : Dev) (off lo w v : Nat) : Dev := regPut d off (bvPut (regGet d off) lo w v)

/-- A 64-bit register's stored words (R30). -/
def regNat64 (d : Dev) (off : Nat) : Nat := regNat d off + 2 ^ 32 * regNat d (off + 4)

/-- A 64-bit register set. -/
def regPut64 (d : Dev) (off v : Nat) : Dev := regPutNat (regPutNat d off v) (off + 4) (v / 2 ^ 32)

/-- A saturating counter raised by `k`. -/
def regBump (d : Dev) (off k : Nat) : Dev := regPutNat d off (satAdd32 (regNat d off) k)

/-- A register of logical core `n`'s block (R29). -/
def coreOff (n off : Nat) : Nat := coreBase + n * 0x1000 + off

/-- GTIME in whole nanoseconds (R252). -/
def gtimeNs (d : Dev) : Nat := d.tm.gt / 16 % 2 ^ 64

/-- `a / b` rounded to nearest, ties to even (R9). -/
def nearDiv (a b : Nat) : Nat :=
  let q := a / b
  let r := 2 * (a % b)
  if b < r ∨ (r = b ∧ q % 2 = 1) then q + 1 else q

/-- An output appended. -/
def emit (d : Dev) (o : Out) : Dev := { d with out := d.out ++ [o] }

/-- The count of the day at TOTALS index `i` raised (R479); from 100 the losses of lock of router port
`i - 100`, from 300 the corrections of stack `i - 300`. -/
def dayBump (d : Dev) (i k : Nat) : Dev :=
  { d with boot := { d.boot with day := smapMod d.boot.day i 0 (fun x => satAdd32 x k) } }

/-- A free word drawn (assumption log 5, DESIGN CHOICE). -/
def drawFree (d : Dev) : W64 × Dev := (Config.freeWord d.free, { d with free := d.free + 1 })

/-! ### The part (R5, R13) -/

/-- Logical cores on each compute die; 0 before stage 2 applies a variant record. -/
def coresPerDie (d : Dev) : Nat := if d.boot.part = 960 then 48 else if d.boot.part = 720 then 40 else 0
/-- Logical cores of the package. -/
def coresTotal (d : Dev) : Nat := 4 * coresPerDie d
/-- GiB of each stack of a part. -/
def partGib (part : Nat) : Nat := if part = 960 then 48 else if part = 720 then 36 else 0
/-- Bands of each pseudo-channel (R23). -/
def partBands (part : Nat) : Nat := 16 * partGib part
/-- This device's node number, NODE_ID[15:0]. -/
def ownNode (d : Dev) : Nat := regField d 0x10 0 16
/-- This device's slot. -/
def ownSlot (d : Dev) : Nat := regField d 0x10 0 3

/-! ### Cores -/

/-- Nothing under retry. -/
def noRetry : Retry := ⟨none, 0, [], 1⟩

/-- A core after reset (R39, R87, R91, R149). -/
def coreReset : Core :=
  { ctxs := [], cur := 0, descs := [], istore := [], image := none, cb8 := [], cb4 := [], scales := [],
    parity := [], set0 := ⟨0, [], []⟩, set1 := ⟨0, [], []⟩, activeSet := 0, shadowHeld := false, swap := none, ops := [], nextOp := 0, cycles := 0,
    mapState := 3, phys := 0, stopped := false, gated := false,
    health := { cellMiss := [], mopaTry := noRetry, shadowTry := noRetry, laneMiss := [], vecTry := noRetry, wordCe := [],
                wordUe := [], failing := [], reloaded := [], droops := 0, scrubRow := 0 },
    beat := ⟨false, 0, 0, 0, false, false, false, true, true, none⟩ }

/-- A stage context after reset (R91). -/
def ctxReset : Ctx := ⟨0, 0, 0, [], [], [], .none, false, none⟩

/-- Logical core `n`. -/
def coreOf (d : Dev) (n : Nat) : Core := smapGet d.cores n coreReset
/-- Logical core `n` set. -/
def setCore (d : Dev) (n : Nat) (c : Core) : Dev := { d with cores := smapSet d.cores n c }
/-- Logical core `n` changed. -/
def modCore (d : Dev) (n : Nat) (g : Core → Core) : Dev := setCore d n (g (coreOf d n))
/-- Stage context `c` of a core. -/
def ctxOf (k : Core) (c : Nat) : Ctx := smapGet k.ctxs c ctxReset
/-- Stage context `c` of a core set. -/
def setCtx (k : Core) (c : Nat) (x : Ctx) : Core := { k with ctxs := smapSet k.ctxs c x }
/-- Stage context `c` of core `n` changed. -/
def modCtx (d : Dev) (n c : Nat) (g : Ctx → Ctx) : Dev :=
  modCore d n (fun k => setCtx k c (g (ctxOf k c)))

/-- A logical number that the part has and that is not absent (R459). -/
def corePresent (d : Dev) (n : Nat) : Bool := decide (n < coresTotal d) && (coreOf d n).mapState != 2
/-- A logical core in service: mapped, or pending and still running (R464, R481); one retired under R457 is not (R2). -/
def coreInService (d : Dev) (n : Nat) : Bool :=
  decide (n < coresTotal d) && decide ((coreOf d n).mapState ≤ 1) && !(coreOf d n).stopped

/-- A context that may issue (R72): runnable or held, and not stopping. -/
def ctxRunnable (x : Ctx) : Bool := (x.st == 1 || x.st == 2) && !x.stopping
/-- A context started and neither halted nor faulted. -/
def ctxLive (x : Ctx) : Bool := decide (1 ≤ x.st ∧ x.st ≤ 5)

/-- The next runnable context after `c` in rising order, wrapping from 7 to 0, among `k` candidates. -/
def nextRunnable (k : Core) (c fuel : Nat) : Option Nat :=
  match fuel with
  | 0 => none
  | fuel + 1 =>
    let c' := (c + 1) % 8
    if ctxRunnable (ctxOf k c') then some c' else nextRunnable k c' fuel

/-- The sequencer makes another context current (R71). -/
def switchCtx (k : Core) : Core :=
  match nextRunnable k k.cur 7 with
  | some c => { k with cur := c }
  | none => k

/-- The context current for issue: the current one, or the next runnable one where it is not runnable (R71). -/
def settleCtx (k : Core) : Core := if ctxRunnable (ctxOf k k.cur) then k else switchCtx k

/-- Scalar register `i` of a context: S0 reads 0 (R86). -/
def sreg (x : Ctx) (i : Nat) : W64 := if i = 0 then 0#64 else smapGet x.sregs i 0#64
/-- Scalar register `i` written: a write to S0 is discarded (R86). -/
def setSreg (x : Ctx) (i : Nat) (v : W64) : Ctx := if i = 0 then x else { x with sregs := smapSet x.sregs i v }

/-- Descriptor register `i` (R87). -/
def descOf (k : Core) (i : Nat) : BitVec 512 := smapGet k.descs i 0#512
/-- Descriptor register `i` written. -/
def setDesc (k : Core) (i : Nat) (v : BitVec 512) : Core := { k with descs := smapSet k.descs i v }

/-- The active accumulator set (R149). -/
def activeOf (k : Core) : AccSet := if k.activeSet = 0 then k.set0 else k.set1
/-- The shadow accumulator set. -/
def shadowOf (k : Core) : AccSet := if k.activeSet = 0 then k.set1 else k.set0
/-- The active set written. -/
def setActive (k : Core) (a : AccSet) : Core := if k.activeSet = 0 then { k with set0 := a } else { k with set1 := a }
/-- The shadow set written. -/
def setShadow (k : Core) (a : AccSet) : Core := if k.activeSet = 0 then { k with set1 := a } else { k with set0 := a }

/-- The class and operation of a long operation's word. -/
def opClass (w : W128) : Nat := bvBits w 124 4
/-- The operation field of an instruction word. -/
def opCode (w : W128) : Nat := bvBits w 116 8

/-- Whether a long operation of class `cls` and operation `op` is outstanding. -/
def opBusy (k : Core) (cls op : Nat) : Bool := k.ops.any (fun o => opClass o.word == cls && opCode o.word == op)

end Sys2Proof.Machine
end

