-- ==== Sys2Proof/Machine/MonLine.lean ====
section
/-! DEFINITION. The lines of the serial monitor: their characters, check codes and the unsolicited queue (R556 to R558,
R562, R563). -/

namespace Sys2Proof.Machine

/-- The character of a hexadecimal digit. -/
def hexChar (v : Nat) : Nat := if v < 10 then 48 + v else 55 + v

/-- A number in `k` hexadecimal digits, most significant first. -/
def hexDigits (k v : Nat) : List Nat :=
  match k with
  | 0 => []
  | k + 1 => hexChar (v / 16 ^ k % 16) :: hexDigits k v

/-- Hexadecimal digits with an underscore before each group of four from the right. -/
def underscored (k v : Nat) : List Nat :=
  (hexDigits k v).zipIdx.flatMap (fun p => if p.2 != 0 && (k - p.2) % 4 = 0 then [95, p.1] else [p.1])

/-- A number in decimal, in at most `fuel` digits. -/
def decDigits (fuel v : Nat) : List Nat :=
  match fuel with
  | 0 => []
  | fuel + 1 => if v < 10 then [48 + v] else decDigits fuel (v / 10) ++ [48 + v % 10]

/-- The characters of one word. -/
def wordChars (w : MonWord) : List Nat :=
  match w with
  | .txt s => s.toList.map Char.toNat
  | .hex k v => [48, 120] ++ underscored k v
  | .dec v => decDigits 20 v
  | .raw bs => bs.flatMap (fun b => hexDigits 2 b.toNat)

/-- The characters of a line: its words, one space apart; the `=` that starts a data line stands against the word after it. -/
def lineChars (ws : List MonWord) : List Nat :=
  match ws with
  | [] => []
  | [w] => wordChars w
  | w :: t => wordChars w ++ (if w = .txt "=" then [] else [32]) ++ lineChars t

/-- The check code of a line: the sum of its characters modulo 256 (R557). -/
def lineCheck (ws : List MonWord) : Nat := (lineChars ws).foldl (fun a b => a + b) 0 % 256

/-- A response line (R558). -/
def monLine (d : Dev) (check : Bool) (ws : List MonWord) : Dev :=
  emit d (.monLine ws (if check then some (lineCheck ws) else none))

/-- An unsolicited line joins the queue, or is lost when 32 wait (R562, R563). -/
def monSay (d : Dev) (ws : List MonWord) : Dev :=
  if d.mon.queue.length < 32 then { d with mon := { d.mon with queue := d.mon.queue ++ [ws] } }
  else { regBump d 0xA008 1 with mon := { d.mon with lost := d.mon.lost + 1 } }

/-- The oldest unsolicited line is sent; when room has returned after losses, `!L n` joins the queue (R562, R563). -/
def monDrain (d : Dev) : Dev :=
  match d.mon.queue with
  | [] => d
  | w :: t =>
    let d1 := monLine { d with mon := { d.mon with queue := t } } true w
    if d.mon.lost = 0 then d1
    else monSay { d1 with mon := { d1.mon with lost := 0 } } [.txt "!L", .dec d.mon.lost]

/-- Up to `k` unsolicited lines sent. -/
def monDrainAll (d : Dev) (k : Nat) : Dev :=
  match k with
  | 0 => d
  | k + 1 => monDrainAll (monDrain d) k

/-- A response ends: the unsolicited lines that waited are sent (R562). -/
def monEnd (d : Dev) : Dev := monDrainAll { d with mon := { d.mon with due := none } } 40

/-- A successful response: its data lines, then OK (R558). -/
def monOk (d : Dev) (chk : Bool) (lines : List (List MonWord)) : Dev :=
  monEnd (monLine (lines.foldl (fun e l => monLine e chk l) d) chk [.txt "OK"])

/-- The name of an error code (R559). -/
def monErName (code : Nat) : String :=
  match code with
  | 1 => "SYNTAX"
  | 2 => "CHECK"
  | 3 => "UNKNOWN"
  | 4 => "ROM"
  | 5 => "OWNER"
  | 6 => "RANGE"
  | 7 => "NEEDCHECK"
  | 8 => "LONG"
  | 9 => "POISON"
  | 10 => "BUSY"
  | _ => "FAILED"

/-- An ER response, counted in MON_ERRORS; a reason follows the name where one is given (R559). -/
def monEr (d : Dev) (chk : Bool) (code : Nat) (reason : Option Nat) : Dev :=
  let num := MonWord.txt (if code = 10 then "10" else if code = 11 then "11" else "0" ++ toString code)
  let tail := match reason with | some r => [MonWord.dec r] | none => []
  monEnd (monLine (regBump d 0xA004 1) chk ([.txt "ER", num, .txt (monErName code)] ++ tail))

/-- The response of a verification that the monitor waits for (R558). -/
def monAnswer (d : Dev) (kind : Nat) (ok : Bool) (reason : Option Nat) (lines : List (List MonWord)) : Dev :=
  match d.mon.due with
  | some (k, chk) => if k = kind then (if ok then monOk d chk lines else monEr d chk 11 reason) else d
  | none => d

end Sys2Proof.Machine
end

