-- ==== Sys2Proof/Machine/Record.lean ====
section
/-! DEFINITION. Fault records, interrupts, the fault ring, completion queues, and what ends a stage context. -/

namespace Sys2Proof.Machine

/-! ### Host memory and interrupts -/

/-- Whether bytes `a` to `a + len - 1` of host memory lie in enabled window `w` (R506). -/
def inWindow (d : Dev) (w a len : Nat) : Bool :=
  let lo := regNat64 d (0x9000 + 16 * w)
  let hi := regNat64 d (0x9008 + 16 * w)
  natBit lo 0 && decide (lo / 4096 * 4096 ≤ a) && decide (a + len ≤ hi / 4096 * 4096 + 4096)

/-- Whether a write to host memory lies in some enabled window (R506). -/
def inWindows (d : Dev) (a len : Nat) : Bool := (rangeFrom 0 16).any (fun w => inWindow d w a len)

/-- A word of vector `v`'s MSI-X table entry: its address in two words, its data and its vector control (R508). -/
def msixWord (d : Dev) (v k : Nat) : Nat := (smapGet d.host.msixTable (16 * v + 4 * k) (if k = 3 then 1#32 else 0#32)).toNat

/-- The message of a vector leaves, to the address in the MSI-X table alone (R506). -/
def msixSend (d : Dev) (v : Nat) : Dev := emit d (.msix v (msixWord d v 0 + msixWord d v 1 * 2 ^ 32) (msixWord d v 2))

/-- An MSI-X message, or its pending bit while the vector is masked (R508). -/
def raiseVector (d : Dev) (v : Nat) : Dev :=
  if natBit (msixWord d v 3) 0 then { d with host := { d.host with msixPending := keyInsert d.host.msixPending v } }
  else msixSend d v

/-- A packet queued for injection at a router port. -/
def queueAt (d : Dev) (port : Nat) (p : Packet) : Dev := { d with ni := { d.ni with inject := d.ni.inject ++ [(port, p)] } }
/-- A packet of the network interface itself; it enters at local port 39 (assumption log 137, DESIGN CHOICE). -/
def queuePacket (d : Dev) (p : Packet) : Dev := queueAt d 39 p
/-- A packet of logical core `n`, queued at the local port of its compute die (R274). -/
def queueOf (d : Dev) (n : Nat) (p : Packet) : Dev := queueAt d (39 + n / max 1 (coresPerDie d) % 4) p

/-- Payload bytes padded to 256 (R288). -/
def padTo (k : Nat) (bs : List Byte) : List Byte := (bs ++ List.replicate (k - bs.length) 0#8).take k

/-- The 32 header bytes of a packet (R286). -/
def headerBytes (p : Packet) : List Byte :=
  leBytes 8 (p.typ % 16 + p.len % 512 * 2 ^ 4 + p.dst % 65536 * 2 ^ 16 + p.src % 65536 * 2 ^ 32
    + p.slice % 1024 * 2 ^ 48 + p.hops % 64 * 2 ^ 58) ++
  leBytes 8 (p.injTime % 2 ^ 32 + p.seq % 2 ^ 32 * 2 ^ 32) ++
  leBytes 8 (p.offset % 2 ^ 42 + p.sub % 256 * 2 ^ 42 + p.mcast.toNat * 2 ^ 50 + p.last.toNat * 2 ^ 51
    + p.replayed.toNat * 2 ^ 52) ++
  leBytes 8 (p.epoch % 65536 + p.dctx % 4096 * 2 ^ 16 + p.check % 2 ^ 32 * 2 ^ 32)

/-- The end-to-end check of a packet (R289). -/
def packetCheck (p : Packet) : Nat :=
  crc32 ((headerBytes { p with hops := 0, replayed := false }).take 28 ++ padTo 256 p.payload)

/-- A packet of this device: source, slice and injection time filled in, and its check (R286, R289, R306). -/
def mkPacket (d : Dev) (typ dst sub : Nat) (payload : List Byte) : Packet :=
  let p : Packet :=
    { typ := typ, len := max 1 payload.length, dst := dst, src := ownNode d,
      slice := regField d 0x1000020 0 10, hops := 0, injTime := gtimeNs d % 2 ^ 32, seq := 0, offset := 0,
      sub := sub, mcast := false, last := false, replayed := false, epoch := regField d 0x110000C 0 16, dctx := 0,
      check := 0, payload := padTo 256 payload }
  { p with check := packetCheck p }

/-- A MGMT packet queued (R517). -/
def sendMgmt (d : Dev) (dst sub : Nat) (payload : List Byte) : Dev := queuePacket d (mkPacket d 8 dst sub payload)

/-! ### Fault records -/

/-- What a fault record says (R466). `cls`: 0 T, 1 P, 2 U. `faults`: it faults a stage context (R470). `port`: the
router port that R314 limits it by, or 255. -/
structure RecArgs where
  ev : Nat
  cls : Nat
  inst : Nat
  lcore : Nat
  ctx : Nat
  pc : Nat
  ledger : Bool
  faults : Bool
  port : Nat
  detail : List Byte
  deriving DecidableEq, Repr

/-- A record of no core (R466, R467). -/
def recOf (ev cls inst : Nat) (detail : List Byte) : RecArgs :=
  ⟨ev, cls, inst, 0xFFFF, 0xFF, 0, false, false, 255, detail⟩

/-- A record of an event on a router port, which R314 limits. -/
def recPort (ev cls inst port : Nat) (detail : List Byte) : RecArgs :=
  ⟨ev, cls, inst, 0xFFFF, 0xFF, 0, false, false, port, detail⟩

/-- UNIT: the event's subsystem and the instance (R467). An instance from 65,536 carries a whole UNIT, for the record that
names another block (R537). -/
def recUnit (r : RecArgs) : Nat := if r.inst < 65536 then r.ev / 256 * 256 + r.inst % 256 else r.inst % 65536

/-- The events that R314, R331 and R436 limit to one record per port and bunting interval. -/
def buntingLimited (ev : Nat) : Bool :=
  [0x0B50, 0x0B31, 0x0B30, 0x0A40, 0x0A20, 0x0A21, 0x0A41, 0x0B52].contains ev ||
    decide (0x0840 ≤ ev ∧ ev ≤ 0x0843) || decide (0x0940 ≤ ev ∧ ev ≤ 0x094F)

/-- The T-class records that raise the owner's interrupt whatever T_IRQ holds (R394, R509). -/
def irqT (ev : Nat) : Bool := [0x0D02, 0x0C50, 0x0C53].contains ev

/-- Whether the record raises the owner's fault-ring interrupt (R509). -/
def recInterrupts (d : Dev) (r : RecArgs) : Bool :=
  d.own.st == 1 && (r.cls != 0 || irqT r.ev || natBit (regNat d 0x3E00008) 6)

/-- The 64 bytes of a record (R466). -/
def recBytes (r : RecArgs) (supp irq : Bool) (seq time count : Nat) : List Byte :=
  let body := leBytes 2 r.ev ++ leBytes 1 r.cls ++
    leBytes 1 (supp.toNat + 2 * r.ledger.toNat + 4 * irq.toNat) ++ leBytes 4 seq ++ leBytes 8 time ++
    leBytes 2 (recUnit r) ++ leBytes 2 r.lcore ++ leBytes 1 r.ctx ++ leBytes 1 0 ++ leBytes 2 r.pc ++
    leBytes 4 count ++ leBytes 4 0 ++ padTo 28 r.detail
  body ++ leBytes 4 (crc32 body)

/-- Entries of the fault ring, 2^LOG2 with LOG2 held to 6 to 16 (R531). -/
def ringSize (d : Dev) : Nat := 2 ^ (max 6 (min 16 (regField d 0x3E00008 0 5)))

/-- A record offered to the fault ring (R510): written, or dropped and counted. The flag says whether a host window
refused it (R507). -/
def toRing (d : Dev) (bytes : List Byte) : Dev × Bool :=
  if !natBit (regNat d 0x3E00008) 5 then (d, false)
  else
    let n := ringSize d
    let tail := regField d 0x3E00010 0 17
    let head := regField d 0x3E0000C 0 17 % n
    let base := regNat64 d 0x3E00000 / 4096 * 4096
    let drop := regPutField (regBump d 0x3E00014 1) 0x3E00008 7 1 1
    if (tail + 1) % n = head then (drop, false)
    else if inWindows d (base + 64 * tail) 64 then
      (regPutField (emit d (.hostWrite (base + 64 * tail) bytes)) 0x3E00010 0 17 ((tail + 1) % n), false)
    else (regBump drop 0x9200 1, true)

/-- The owner's fault-ring interrupt on its path (R489, R509). -/
def ownerInterrupt (d : Dev) (bytes : List Byte) : Dev :=
  match d.own.owner with
  | 1 => raiseVector d 0
  | 2 => emit d (.ibi 1)
  | 3 => sendMgmt d d.own.ownerNode 7 bytes
  | 4 => monSay d [.txt "!F", .raw bytes]
  | _ => d

/-- A record written: SEQ, FAULT_LOG, the ring and the interrupt (R466, R471, R509, R510). -/
def writeRecord (d : Dev) (r : RecArgs) (supp : Bool) (count : Nat) (ring : Bool) : Dev × Bool :=
  let seq := regNat d 0x3E08010 + 1
  let irq := recInterrupts d r
  let bytes := recBytes r supp irq seq (gtimeNs d) count
  let d1 := regPutNat d 0x3E08010 seq
  let d2 := { d1 with rcd := { d1.rcd with log := smapSet d1.rcd.log (seq % 256) bytes,
                                           withheld := d1.rcd.withheld.filter (fun k => k != 65536 * r.ev + recUnit r) } }
  let d3 := if ring then toRing d2 bytes else (d2, false)
  (if irq then ownerInterrupt d3.1 bytes else d3.1, d3.2)

/-- Whether a limit withholds the record, and the recorder's account of the limits (R314, R331, R470). Only T-class records that
fault no context are ever withheld (R470; assumption log 49, DEDUCED). -/
def recLimit (d : Dev) (r : RecArgs) : Bool × RecState :=
  let key := 65536 * r.ev + recUnit r
  let g := d.rcd
  if buntingLimited r.ev then
    let k := 65536 * r.ev + r.port
    (g.bunting.contains k && !r.faults && r.cls == 0, { g with bunting := keyInsert g.bunting k })
  else if r.cls = 0 then
    let now := gtimeNs d
    let l := (smapGet g.secs key []).filter (fun t => decide (now < t + 1000000000))
    if 64 ≤ l.length && !r.faults then (true, g) else (false, { g with secs := smapSet g.secs key (now :: l) })
  else (false, g)

/-- A fault recorded (R466 to R471). A record whose ring write a host window drops is followed by HOST_WINDOW, which
goes to FAULT_LOG alone (R507; assumption log 6, DEDUCED). -/
def postRecord (d : Dev) (r : RecArgs) : Dev :=
  let key := 65536 * r.ev + recUnit r
  let count := satAdd32 (smapGet d.rcd.counts key 0) 1
  let lim := recLimit d r
  let d1 := { d with rcd := { lim.2 with counts := smapSet lim.2.counts key count } }
  if lim.1 then
    let d2 := { d1 with rcd := { d1.rcd with withheld := keyInsert d1.rcd.withheld key } }
    if buntingLimited r.ev then d2 else regBump d2 0x3E08014 1
  else
    let w := writeRecord d1 r (d.rcd.withheld.contains key) count true
    if w.2 then
      let base := regNat64 d1 0x3E00000 / 4096 * 4096
      let v := recOf 0x0F20 2 0xFF (leBytes 8 (base + 64 * regField d1 0x3E00010 0 17))
      let k2 := 65536 * 0x0F20 + recUnit v
      let n2 := satAdd32 (smapGet w.1.rcd.counts k2 0) 1
      let d3 := { w.1 with rcd := { w.1.rcd with counts := smapSet w.1.rcd.counts k2 n2 } }
      (writeRecord d3 v false n2 false).1
    else w.1

/-- A write to host memory, through the windows (R506, R507). -/
def hostWrite (d : Dev) (a : Nat) (bytes : List Byte) : Dev :=
  if inWindows d a bytes.length then emit d (.hostWrite a bytes)
  else postRecord (regBump d 0x9200 1) (recOf 0x0F20 2 0xFF (leBytes 8 a))

/-- SEQ of the latest record. -/
def lastSeq (d : Dev) : Nat := regNat d 0x3E08010

/-! ### Completion queues -/

/-- Queue `q`'s register block (R528). -/
def qOff (q : Nat) : Nat := 0x8000 + 64 * q
/-- Entries of a ring whose LOG2 field is `l`: 4 to 12 (R528). -/
def ringEntries (l : Nat) : Nat := 2 ^ (max 4 (min 12 l))
/-- Entries of queue `q`'s submission ring. -/
def sqSize (d : Dev) (q : Nat) : Nat := ringEntries (regField d (qOff q + 0x10) 0 4)
/-- Entries of queue `q`'s completion ring. -/
def cqSize (d : Dev) (q : Nat) : Nat := ringEntries (regField d (qOff q + 0x10) 4 4)
/-- Whether queue `q`'s completion ring is full (R511). -/
def cqFull (d : Dev) (q : Nat) : Bool :=
  (regField d (qOff q + 0x24) 0 16 + 1) % cqSize d q == regField d (qOff q + 0x20) 0 16 % cqSize d q

/-- The 32 bytes of a completion entry (R514). -/
def cqBytes (d : Dev) (q : Nat) (e : CqEntry) (phase : Bool) : List Byte :=
  padTo 32 (leBytes 2 e.cid ++ leBytes 1 e.status ++ leBytes 1 (e.kind + 128 * phase.toNat) ++ leBytes 2 e.lcore ++
    leBytes 1 e.ctx ++ leBytes 1 0 ++ leBytes 2 (if q < 16 then regField d (qOff q + 0x1C) 0 16 else 0) ++
    leBytes 2 e.code ++ leBytes 4 e.faultSeq ++ leBytes 8 (gtimeNs d) ++ leBytes 2 e.pc)

/-- One entry written at the queue's tail, PHASE inverting at each wrap, with its vector when asked (R512, R514). -/
def cqWrite (d : Dev) (q : Nat) (e : CqEntry) : Dev :=
  let tail := regField d (qOff q + 0x24) 0 16
  let phase := smapGet d.host.phase q true
  let next := (tail + 1) % cqSize d q
  let d1 := hostWrite d (regNat64 d (qOff q + 8) / 4096 * 4096 + 32 * tail) (cqBytes d q e phase)
  let d2 := regPutField d1 (qOff q + 0x24) 0 16 next
  let d3 := { d2 with host := { d2.host with phase := smapSet d2.host.phase q (if next = 0 then !phase else phase) } }
  if e.irq then raiseVector d3 (max 8 (regField d3 (qOff q + 0x10) 8 6)) else d3

/-- An entry for queue `q`, held while the ring is full (R516); queue 16 + n stands for the COMMAND
packets of node `n`, whose completions return there as COMPLETION packets (R517). -/
def pushCq (d : Dev) (q : Nat) (e : CqEntry) : Dev :=
  if 16 ≤ q then sendMgmt d (q - 16) 6 (cqBytes d q e true)
  else if cqFull d q || (smapGet d.host.held q []).length != 0 then
    { d with host := { d.host with held := smapMod d.host.held q [] (fun l => l ++ [e]) } }
  else cqWrite d q e

/-- Held entries written while the ring has room (R516). -/
def drainHeld (d : Dev) (q fuel : Nat) : Dev :=
  match fuel, smapGet d.host.held q [] with
  | fuel + 1, e :: t =>
    if cqFull d q then d
    else drainHeld (cqWrite { d with host := { d.host with held := smapSet d.host.held q t } } q e) q fuel
  | _, _ => d

/-- A command's completion entry (R514). -/
def cmdEntry (cid status lcore : Nat) (irq : Bool) : CqEntry := ⟨cid, status, 0, lcore, 0xFF, 0, 0, 0, irq⟩

/-- FENCEs of queue `q` at the head of its started commands complete (R511). -/
def releaseFences (d : Dev) (q : Nat) (l : List HostCmd) : Dev :=
  match l with
  | [] => { d with host := { d.host with running := d.host.running } }
  | c :: t =>
    if c.q = q then
      if c.op = 5 then
        releaseFences (pushCq { d with host := { d.host with running := d.host.running.erase c } } q
          (cmdEntry c.cid 0 c.lcore c.irq)) q t
      else d
    else releaseFences d q t

/-- A started command completes; FENCEs that waited for it follow (R511, R513). -/
def completeRunning (d : Dev) (c : HostCmd) (status : Nat) : Dev :=
  let d1 := pushCq { d with host := { d.host with running := d.host.running.erase c } } c.q
    (cmdEntry c.cid status c.lcore c.irq)
  releaseFences d1 c.q d1.host.running

end Sys2Proof.Machine
end

