-- ==== Sys2Proof/Machine/Contexts.lean ====
section
/-! DEFINITION. What ends, advances and wakes a stage context: faults, halts, beats, events and waits. -/

namespace Sys2Proof.Machine

/-! ### Ends of stage contexts -/

/-- A tracked context's end adds its entry (R516). `status`: 8 HALTED, 9 FAULTED, 10 STOPPED. -/
def ctxEndEntry (d : Dev) (n c status code seq : Nat) : Dev :=
  let x := ctxOf (coreOf d n) c
  match x.track with
  | some (q, cid) =>
    modCtx (pushCq d q ⟨cid, status, 1, n, c, code, seq, x.pc, false⟩) n c (fun x => { x with track := none })
  | none => d

/-- The local beat is kept until every context is halted, faulted or not started (R262). -/
def settleBeat (k : Core) : Core :=
  if (rangeFrom 0 8).any (fun c => ctxLive (ctxOf k c)) then k
  else { k with beat := { k.beat with kept := false, lag := 0, slipped := false, late := false,
                                      slipArmed := true, lateArmed := true, ready := none } }

/-- A stage context becomes faulted or halted, with its context-end entry (R136, R137, R516). -/
def endCtx (d : Dev) (n c st status code seq : Nat) : Dev :=
  let d1 := modCtx d n c (fun x => { x with st := st, hold := 0, wait := .none, stopping := false })
  let d2 := ctxEndEntry d1 n c status code seq
  modCore d2 n (fun k => settleBeat (settleCtx k))

/-- A fault record of a core instruction (R136, R466, R467). -/
def coreRec (n c pc ev cls : Nat) (detail : List Byte) : RecArgs :=
  ⟨ev, cls, n, n, c, pc, false, true, 255, detail⟩

/-- A core instruction faults: the record, then the faulted context (R136, R137). A context already halted or faulted
keeps its state. -/
def faultCtx (d : Dev) (n c pc ev cls : Nat) (detail : List Byte) : Dev :=
  let d1 := postRecord d (coreRec n c pc ev cls detail)
  if ctxLive (ctxOf (coreOf d1 n) c) then endCtx d1 n c 6 9 0 (lastSeq d1) else d1

/-- Whether a long operation of context `c` is outstanding. -/
def ctxBusy (k : Core) (c : Nat) : Bool := k.ops.any (fun o => o.ctx == c)

/-- Control passes from index `last` at call depth `depth`: from the innermost level on, each level that ends there pops
after its final iteration, until one iterates (R96). The levels left, and the first index of the one that iterates. -/
def passLevels (depth last : Nat) (loops : List LoopLevel) : List LoopLevel × Option Nat :=
  match loops with
  | [] => ([], none)
  | l :: t =>
    if l.last = last ∧ l.depth = depth then
      if l.iter + 1 < l.count then ({ l with iter := l.iter + 1 } :: t, some l.first) else passLevels depth last t
    else
      let r := passLevels depth last t
      (l :: r.1, r.2)

/-- The context once control has passed from index `last` at its call depth (R96). -/
def passFrom (x : Ctx) (loops : List LoopLevel) (last : Nat) : Ctx :=
  let r := passLevels x.calls.length last loops
  { x with loops := r.1, pc := r.2.getD (last + 1) }

/-- An instruction has issued without transferring control: the context goes on to the next index, or faults with
PC_RANGE in place of fetching beyond index 16,383 (R93, R96). -/
def advanceCtx (d : Dev) (n c : Nat) : Dev :=
  let x := ctxOf (coreOf d n) c
  let y := passFrom x x.loops x.pc
  if y.pc ≤ 16383 then modCtx d n c (fun _ => { y with st := 1, hold := 0, wait := .none })
  else
    faultCtx (modCtx d n c (fun _ => { y with pc := x.pc, st := 1, hold := 0, wait := .none })) n c x.pc 0x0304 2
      (leBytes 16 (smapGet (coreOf d n).istore x.pc 0#128).toNat)

/-- A stopping context halts once its long operations are complete (R513). -/
def settleStops (d : Dev) (n : Nat) (cs : List Nat) : Dev :=
  match cs with
  | [] => d
  | c :: t =>
    let k := coreOf d n
    let x := ctxOf k c
    if x.stopping && ctxLive x && !ctxBusy k c then settleStops (endCtx d n c 7 10 0 0) n t else settleStops d n t

/-- CORE_STOPs whose contexts have all ended complete (R513). -/
def settleStopCmds (d : Dev) (l : List HostCmd) : Dev :=
  match l with
  | [] => d
  | h :: t =>
    let waits := (rangeFrom 0 (coresTotal d)).any (fun n => (h.lcore == 0xFFFF || h.lcore == n) &&
      (rangeFrom 0 8).any (fun c => natBit h.mask c && ctxLive (ctxOf (coreOf d n) c)))
    if h.op = 3 && !waits then settleStopCmds (completeRunning d h 0) t else settleStopCmds d t


/-! ### Local beats (R262 to R266) -/

/-- T0 of the grid. -/
def beatT0 (d : Dev) : Nat := regNat64 d 0x200108
/-- BEAT_LEN. -/
def beatLen (d : Dev) : Nat := regNat d 0x200110
/-- BEAT_MIN. -/
def beatMin (d : Dev) : Nat := regNat d 0x200114
/-- BEAT_CTL.ENABLE. -/
def beatEnable (d : Dev) : Bool := natBit (regNat d 0x200100) 0
/-- The grid beat that contains a time; 0 before T0 (R262, R272). -/
def gridBeat (d : Dev) (ns : Nat) : Nat := if ns < beatT0 d then 0 else (ns - beatT0 d) / max 1 (beatLen d)

/-- The local beat set on the grid at a time (R262, R265). -/
def beatOnGrid (d : Dev) (b : CoreBeat) (ns : Nat) (en : Bool) : CoreBeat :=
  let g := gridBeat d ns
  { b with kept := true, n := g, start := beatT0 d + g * beatLen d, lag := 0, enabled := en,
           slipped := false, late := false, slipArmed := true, lateArmed := true, ready := none }

/-- The planned length of a beat (R263). -/
def beatPlan (d : Dev) (b : CoreBeat) : Nat :=
  if b.lag = 0 then beatLen d else max (beatMin d) (beatLen d - b.lag)

/-- B(n), the local beat boundary (R263). -/
def beatBoundary (d : Dev) (b : CoreBeat) : Nat := b.start + beatPlan d b

/-- The beat after one that ends at `e` (R263 to R266). -/
def nextBeat (d : Dev) (b : CoreBeat) (e : Nat) : CoreBeat :=
  if beatEnable d && !b.enabled then beatOnGrid d b e true
  else if b.enabled && beatEnable d then
    let lag := e - (beatT0 d + (b.n + 1) * beatLen d)
    { b with n := b.n + 1, start := e, lag := lag, ready := none, slipped := b.slipped && lag != 0, late := b.late && lag != 0,
             slipArmed := b.slipArmed || lag == 0, lateArmed := b.lateArmed || lag == 0 }
  else { b with n := b.n + 1, start := e, lag := 0, enabled := false, slipped := false, late := false,
                slipArmed := true, lateArmed := true, ready := none }

/-- Whether a context in SBEAT has its own conditions met: its MTX, VEC and MOV operations are complete, and its COL
ones when COL is set (R100). -/
def sbeatClear (k : Core) (c : Nat) (col : Bool) : Bool :=
  !k.ops.any (fun o => o.ctx == c && (col || opClass o.word != 5))

/-- Whether every condition of the core's SBEATs but the boundary holds (R100). -/
def beatReady (k : Core) : Bool :=
  (rangeFrom 0 8).any (fun c => (ctxOf k c).st == 4) &&
  (rangeFrom 0 8).all (fun c =>
    let x := ctxOf k c
    match x.wait with
    | .sbeat _ col => x.st != 4 || sbeatClear k c col
    | _ => !(x.st == 1 || x.st == 2 || x.st == 3))

/-- Each SBEAT writes the new beat number to its SD and completes (R100). -/
def endSbeats (d : Dev) (n num : Nat) (cs : List Nat) : Dev :=
  match cs with
  | [] => d
  | c :: t =>
    match (ctxOf (coreOf d n) c).wait with
    | .sbeat sd _ =>
      endSbeats (advanceCtx (modCtx d n c (fun x => setSreg x sd (BitVec.ofNat 64 num))) n c) n num t
    | _ => endSbeats d n num t

/-- The beat of core `n` ends when its SBEATs are ready and, with ENABLE, its boundary has come: at the later of the
boundary and the time at which they became ready (R100, R263, R264). -/
def settleBeatEnd (d : Dev) (n : Nat) : Dev :=
  let k := coreOf d n
  let now := gtimeNs d
  if beatReady k then
    let since := k.beat.ready.getD now
    if !k.beat.enabled || decide (beatBoundary d k.beat ≤ now) then
      let b := nextBeat d k.beat (if k.beat.enabled then max (beatBoundary d k.beat) since else now)
      endSbeats (modCore d n (fun k => { k with beat := b })) n b.n (rangeFrom 0 8)
    else modCore d n (fun k => { k with beat := { k.beat with ready := some since } })
  else if k.beat.ready.isSome then modCore d n (fun k => { k with beat := { k.beat with ready := none } })
  else d

/-- A core with IDLE_GATE gates its clocks when all its contexts are halted, faulted, not started or in WAITM, and one
is in WAITM (R540). -/
def gateIdle (d : Dev) (n : Nat) : Dev :=
  let k := coreOf d n
  let cs := rangeFrom 0 8
  if natBit (regNat d (coreOff n 0x880)) 0 && cs.any (fun c => (ctxOf k c).st == 5) &&
      !cs.any (fun c => decide (1 ≤ (ctxOf k c).st ∧ (ctxOf k c).st ≤ 4)) then
    setCore d n { k with gated := true }
  else d

/-- After an end of work on core `n`: stopping contexts halt, CORE_STOPs complete, a beat may end, and the core may gate its
clocks. -/
def afterWork (d : Dev) (n : Nat) : Dev :=
  let d1 := settleStops d n (rangeFrom 0 8)
  gateIdle (settleBeatEnd (settleStopCmds d1 d1.host.running) n) n

/-- A context goes on to its next index; one that faults there instead ends work on its core, and one that leaves a wait
keeps its core's SBEATs waiting (R93, R100). -/
def goOn (d : Dev) (n c : Nat) : Dev :=
  let d1 := advanceCtx d n c
  if (ctxOf (coreOf d1 n) c).st = 6 then afterWork d1 n
  else if (ctxOf (coreOf d n) c).st = 5 then settleBeatEnd d1 n
  else d1

/-! ### Event counters and waits -/

/-- Event counter `k` of core `n` (R88). -/
def evGet (d : Dev) (n k : Nat) : Nat := regNat d (coreOff n (0x400 + 4 * k))

/-- SWAITs on counter `k` end in ascending context order, each subtracting when DEC is set (R88, R102). -/
def settleSwaits (d : Dev) (n k : Nat) (cs : List Nat) : Dev :=
  match cs with
  | [] => d
  | c :: t =>
    match (ctxOf (coreOf d n) c).wait with
    | .swait k' v dec =>
      if k' = k ∧ v ≤ evGet d n k then
        let d1 := if dec then regPutNat d (coreOff n (0x400 + 4 * k)) (evGet d n k - v) else d
        settleSwaits (goOn d1 n c) n k t
      else settleSwaits d n k t
    | _ => settleSwaits d n k t

/-- Contexts in WAITM leave it and continue after it (R131, R541). -/
def leaveWaitm (d : Dev) (n : Nat) (cs : List Nat) : Dev :=
  match cs with
  | [] => d
  | c :: t => leaveWaitm (if (ctxOf (coreOf d n) c).st == 5 then goOn d n c else d) n t

/-- An exit from P1, P2 or P3 begins; WAKE_N falls for a wake of codes 2 to 5 in P2 or P3 (R533, R542, R578). -/
def beginExit (d : Dev) (src : Nat) : Dev :=
  let pin := decide (2 ≤ d.pwr.st ∧ 2 ≤ src ∧ src ≤ 5) && !d.pwr.wakeN
  let d1 := { d with pwr := { d.pwr with
    exiting := true
    lastWake := src
    exitAt := d.boot.aonNs
    wakeN := d.pwr.wakeN || pin
    wakeAt := if pin then d.boot.aonNs else d.pwr.wakeAt } }
  if pin then emit d1 (.pin "WAKE_N" false) else d1

/-- A device in P1 to P3 is woken from a source, or the wake is latched while it enters (R539, R542). -/
def wakeDevice (d : Dev) (src : Nat) : Dev :=
  if d.pwr.tripped || d.own.epo then d
  else if d.pwr.entering then
    (if d.pwr.latched then d else { d with pwr := { d.pwr with latched := true, latchSrc := src } })
  else if d.pwr.st = 0 || d.pwr.exiting then d
  else beginExit d src

/-- An entry is abandoned: block `unit` refused (reason 1) or delayed too long (2); a latched wake goes with it (R537,
R539). -/
def abandonEntry (d : Dev) (unit reason : Nat) : Dev :=
  let d1 := regPutNat (regBump d 0x380000C 1) 0x3800010 (unit % 65536 + 65536 * reason)
  postRecord { d1 with pwr := { d1.pwr with entering := false, accepted := false, latched := false } }
    (recOf 0x0E20 0 (65536 + unit % 65536) [])

/-- A core wake event: the core ungates, its WAITM contexts continue, an entry that still waits for answers is refused, and
a device in P1 wakes (R541, R542, R550). -/
def wakeCore (d : Dev) (n : Nat) : Dev :=
  let d1 := leaveWaitm (modCore d n (fun k => { k with gated := false })) n (rangeFrom 0 8)
  if d1.pwr.entering && !d1.pwr.accepted then abandonEntry d1 (0x0300 + n) 1
  else if d1.pwr.st = 1 ∨ (d1.pwr.entering ∧ d1.pwr.target = 1) then wakeDevice d1 6
  else d1

/-- An addition to event counter `k`, saturating with its EV_OVF bit, the core wake event it is (R541), then the waits it ends
(R88, R102). -/
def addEvent (d : Dev) (n k inc : Nat) : Dev :=
  let off := coreOff n (0x400 + 4 * k)
  let v := regNat d off + inc
  let d1 := if v > 0xFFFFFFFF then
      let o := coreOff n (0x500 + 4 * (k / 32))
      regPutField (regPutNat d off 0xFFFFFFFF) o (k % 32) 1 1
    else regPutNat d off v
  settleSwaits (wakeCore d1 n) n k (rangeFrom 0 8)

/-- An owner or SCL write of an event counter, then the waits it ends (R88). -/
def writeEvent (d : Dev) (n k v : Nat) : Dev :=
  settleSwaits (regPutNat d (coreOff n (0x400 + 4 * k)) v) n k (rangeFrom 0 8)

end Sys2Proof.Machine
end

