-- ==== Sys2Proof/Machine/Float.lean ====
section
/-! DEFINITION. FP32 and BF16 arithmetic: exact results, rounded once (R9, R32 to R35, R65). -/

namespace Sys2Proof.Machine

/-- An exact number `(-1)^neg · man · 2^exp`, or one whose lowest bit stands for a non-zero remainder. -/
structure Dyadic where
  neg : Bool
  man : Nat
  exp : Int
  deriving DecidableEq, Repr

/-- An exact result: a NaN (FP32 bits; `created` when no operand was a NaN, R33), an infinity, or a number. -/
inductive FExact where
  | nan (bits : W32) (created : Bool)
  | inf (neg : Bool)
  | fin (v : Dyadic)
  deriving DecidableEq, Repr

/-- The default NaN (R33). -/
def fDefaultNan : FExact := .nan 0x7FC00000#32 true

/-- What FP32 bits stand for (R31, R32). -/
def fOf32 (b : W32) : FExact :=
  let e := bvBits b 23 8
  let m := bvBits b 0 23
  let s := b.msb
  if e = 255 then (if m = 0 then .inf s else .nan (b ||| 0x00400000#32) false)
  else if e = 0 then .fin ⟨s, m, -149⟩
  else .fin ⟨s, m + 2 ^ 23, (e : Int) - 150⟩

/-- BF16 widened exactly to FP32 (R34). -/
def fWiden (h : BitVec 16) : W32 := h ++ 0#16

/-- `m · 2^e` at the unit `2^q`, to nearest with ties to even (R9). -/
def roundAt (m : Nat) (e q : Int) : Nat :=
  if q ≤ e then m * 2 ^ (e - q).toNat
  else
    let k := (q - e).toNat
    let t := m / 2 ^ k
    let r := m % 2 ^ k
    let half := 2 ^ (k - 1)
    if r > half then t + 1 else if r = half then t + t % 2 else t

/-- The bits of a rounded number in a format of `p` significant bits whose least unit is `2^qmin`; `top` is the
format's infinity. -/
def roundBits (p : Nat) (qmin : Int) (top : Nat) (v : Dyadic) : Nat :=
  if v.man = 0 then 0
  else
    let q := max (v.exp + (Nat.log2 v.man : Int) + 1 - p) qmin
    let r := roundAt v.man v.exp q
    if r = 0 then 0 else min ((q - qmin).toNat * 2 ^ (p - 1) + r) top

/-- An exact result rounded into FP32 (R9, R32). -/
def fTo32 (x : FExact) : W32 :=
  match x with
  | .nan b _ => b
  | .inf s => if s then 0xFF800000#32 else 0x7F800000#32
  | .fin v => BitVec.ofNat 32 (roundBits 24 (-149) 0x7F800000 v + (if v.neg then 2 ^ 31 else 0))

/-- An exact result rounded once into BF16 (R9, R34). -/
def fToBf (x : FExact) : BitVec 16 :=
  match x with
  | .nan b _ => BitVec.ofNat 16 (b.toNat / 2 ^ 16) ||| 0x0040#16
  | .inf s => if s then 0xFF80#16 else 0x7F80#16
  | .fin v => BitVec.ofNat 16 (roundBits 8 (-133) 0x7F80 v + (if v.neg then 2 ^ 15 else 0))

/-- FP32 converted to BF16 (R34). -/
def fNarrow (b : W32) : BitVec 16 := fToBf (fOf32 b)

/-- A number's signed integer mantissa at exponent `q`, for `q` at or below its exponent. -/
def dySigned (v : Dyadic) (q : Int) : Int :=
  let m : Int := (v.man * 2 ^ (v.exp - q).toNat : Nat)
  if v.neg then -m else m

/-- The exact sum of two numbers; a zero sum is -0 only when both are -0. -/
def dyAdd (a b : Dyadic) : Dyadic :=
  let q := min a.exp b.exp
  let s := dySigned a q + dySigned b q
  if s = 0 then
    ⟨a.neg && b.neg, 0, q⟩
  else ⟨decide (s < 0), s.natAbs, q⟩

/-- The exact sum (R33, R35). -/
def fAdd (a b : FExact) : FExact :=
  match a, b with
  | .nan x _, _ => .nan x false
  | _, .nan x _ => .nan x false
  | .inf s, .inf t => if s = t then .inf s else fDefaultNan
  | .inf s, .fin _ => .inf s
  | .fin _, .inf t => .inf t
  | .fin x, .fin y => .fin (dyAdd x y)

/-- The sign changed, also of a NaN. -/
def fNeg (a : FExact) : FExact :=
  match a with
  | .nan x c => .nan (x ^^^ 0x80000000#32) c
  | .inf s => .inf (!s)
  | .fin v => .fin ⟨!v.neg, v.man, v.exp⟩

/-- The exact difference `a - b`: `b`'s sign is changed only where it is no NaN (R33). -/
def fSub (a b : FExact) : FExact :=
  match b with
  | .nan _ _ => fAdd a b
  | _ => fAdd a (fNeg b)

/-- The exact product (R33, R35). -/
def fMul (a b : FExact) : FExact :=
  match a, b with
  | .nan x _, _ => .nan x false
  | _, .nan x _ => .nan x false
  | .inf s, .inf t => .inf (s != t)
  | .inf s, .fin y => if y.man = 0 then fDefaultNan else .inf (s != y.neg)
  | .fin x, .inf t => if x.man = 0 then fDefaultNan else .inf (x.neg != t)
  | .fin x, .fin y => .fin ⟨x.neg != y.neg, x.man * y.man, x.exp + y.exp⟩

/-- Whether an exact result is a NaN. -/
def fIsNan (a : FExact) : Bool := match a with | .nan _ _ => true | _ => false
/-- Whether an exact result is a number. -/
def fIsFin (a : FExact) : Bool := match a with | .fin _ => true | _ => false

/-- The exact `a · b + c`, NaN operands in the order a, b, c (R33, R50). -/
def fFma (a b c : FExact) : FExact :=
  match fIsNan a || fIsNan b, c with
  | true, _ => fMul a b
  | false, .nan x _ => .nan x false
  | false, _ => (match fMul a b with | .nan _ _ => fDefaultNan | p => fAdd p c)

/-- The quotient, with 80 bits and a remainder bit, which every later single rounding sees exactly (R33, R44). -/
def fDiv (a b : FExact) : FExact :=
  match a, b with
  | .nan x _, _ => .nan x false
  | _, .nan x _ => .nan x false
  | .inf _, .inf _ => fDefaultNan
  | .inf s, .fin y => .inf (s != y.neg)
  | .fin x, .inf t => .fin ⟨x.neg != t, 0, 0⟩
  | .fin x, .fin y =>
    if y.man = 0 then (if x.man = 0 then fDefaultNan else .inf (x.neg != y.neg))
    else
      let k := 80 + Nat.log2 y.man
      let n := x.man * 2 ^ k
      .fin ⟨x.neg != y.neg, 2 * (n / y.man) + (if n % y.man = 0 then 0 else 1), x.exp - y.exp - k - 1⟩

/-- Whether one number is below another; -0 and +0 are equal. -/
def dyLt (a b : Dyadic) : Bool :=
  let q := min a.exp b.exp
  decide (dySigned a q < dySigned b q)

/-- Whether `a < b`; false with a NaN (R183). -/
def fLt (a b : FExact) : Bool :=
  match a, b with
  | .nan _ _, _ => false
  | _, .nan _ _ => false
  | .inf s, .inf t => s && !t
  | .inf s, .fin _ => s
  | .fin _, .inf t => !t
  | .fin x, .fin y => dyLt x y

/-- Whether `a = b`; false with a NaN, true between zeros (R183). -/
def fEq (a b : FExact) : Bool :=
  !fIsNan a && !fIsNan b && !fLt a b && !fLt b a

/-- The sign bit. -/
def fSign (a : FExact) : Bool :=
  match a with
  | .nan b _ => b.msb
  | .inf s => s
  | .fin v => v.neg

/-- `a < b` in the order in which -0 is below +0 (R182). -/
def fLtZero (a b : FExact) : Bool := fLt a b || (fEq a b && fSign a && !fSign b)

/-- The lesser under R182, or the first NaN. -/
def fMin (a b : FExact) : FExact :=
  match a, b with
  | .nan x _, _ => .nan x false
  | _, .nan x _ => .nan x false
  | _, _ => if fLtZero b a then b else a

/-- The greater under R182, or the first NaN. -/
def fMax (a b : FExact) : FExact :=
  match a, b with
  | .nan x _, _ => .nan x false
  | _, .nan x _ => .nan x false
  | _, _ => if fLtZero a b then b else a

/-- An integer, exactly. -/
def fOfInt (i : Int) : FExact := .fin ⟨decide (i < 0), i.natAbs, 0⟩

/-- The nearest integer to a number, ties to even (R184). -/
def dyToInt (v : Dyadic) : Int :=
  let m : Int := (roundAt v.man v.exp 0 : Nat)
  if v.neg then -m else m

/-- A number's integer part towards minus infinity. -/
def dyFloor (v : Dyadic) : Int :=
  if 0 ≤ v.exp then dySigned v 0
  else
    let k := (-v.exp).toNat
    if v.neg then -(((v.man + 2 ^ k - 1) / 2 ^ k : Nat) : Int) else ((v.man / 2 ^ k : Nat) : Int)

/-- 1.0 -/
def fOne : FExact := fOf32 0x3F800000#32
/-- +0 -/
def fZero : FExact := .fin ⟨false, 0, 0⟩

/-- FP32 addition, rounded (R65). -/
def f32Add (a b : W32) : W32 := fTo32 (fAdd (fOf32 a) (fOf32 b))
/-- FP32 multiplication, rounded. -/
def f32Mul (a b : W32) : W32 := fTo32 (fMul (fOf32 a) (fOf32 b))
/-- FP32 division, rounded (R44). -/
def f32Div (a b : W32) : W32 := fTo32 (fDiv (fOf32 a) (fOf32 b))

/-- Whether FP32 bits are an infinity. -/
def f32IsInf (b : W32) : Bool := bvBits b 0 31 == 0x7F800000
/-- Whether FP32 bits are a NaN. -/
def f32IsNan (b : W32) : Bool := bvBits b 0 31 > 0x7F800000

end Sys2Proof.Machine
end

