-- ==== Sys2Proof/Machine/Operands.lean ====
section
/-! DEFINITION. Operand forms: instruction fields, the address map and its hashes, tensor descriptors, the checks at
issue, and reading and writing the elements a descriptor names. -/

namespace Sys2Proof.Machine

/-! ### The address map (R19 to R29) -/

/-- The ranges of the device-local map (R19). -/
inductive Region where
  | spad (n : Nat)
  | spread
  | dieLocal (die : Nat)
  | accStore
  | mirror (region : Nat)
  | unmapped
  deriving DecidableEq, Repr

/-- The BAR0 region of an offset, numbered in the order of R29. -/
def bar0Region (off : Nat) : Nat :=
  if off < 0x100000 then 0 else if off < 0x200000 then 1 else if off < 0x400000 then 2
  else if off < 0x1000000 then 3 else if off < 0x2000000 then 4 else if off < 0x3000000 then 5
  else if off < 0x3800000 then 6 else if off < 0x3C00000 then 7 else if off < 0x3E00000 then 8 else 9

/-- The populated bytes of one stack's share of a die-local aperture: five stacks of the part (R5, R19). -/
def dieBytes (part : Nat) : Nat := 5 * partGib part * 2 ^ 30

/-- The range an address lies in, on a device of a part (R19). -/
def regionOf (part a : Nat) : Region :=
  if a < 0x10000000000 then (if a < 4 * dieBytes part then .spread else .unmapped)
  else if a < 0x20000000000 then
    let o := a - 0x10000000000
    if o % 0x4000000000 < dieBytes part then .dieLocal (o / 0x4000000000) else .unmapped
  else if a < 0x21000000000 then
    let o := a - 0x20000000000
    let total := if part = 960 then 192 else if part = 720 then 160 else 0
    if o / 0x800000 < total ∧ o % 0x800000 < 0x600000 then .spad (o / 0x800000) else .unmapped
  else if 0x21000000000 ≤ a ∧ a < 0x21008000000 then .accStore
  else if 0x3F000000000 ≤ a ∧ a < 0x3F004000000 then .mirror (bar0Region (a - 0x3F000000000))
  else .unmapped

/-- Base of the scratchpad range of logical core `n`. -/
def spadBase (n : Nat) : Nat := 0x20000000000 + n * 0x800000

/-- The memory key of a spread address (R225). -/
def spreadKey (a : Nat) : Nat :=
  let b := a / 0x50000000
  let l := (a % 0x50000000) / 256
  let s := l / 1280
  let r := (l % 1280 + (s * 397) % 1280) % 1280
  let pc := 320 * (r % 4) + 64 * ((r / 4) % 5) + r / 20
  pc * 0x30000000 + b * 0x100000 + s * 256 + a % 256

/-- The memory key of an address in die-local aperture `die` (R226). -/
def dieKey (die a : Nat) : Nat :=
  let o := a - (0x10000000000 + die * 0x4000000000)
  let b := o / 0x14000000
  let l := (o % 0x14000000) / 256
  let s := l / 320
  let r := (l % 320 + (s * 397) % 320) % 320
  let pc := 320 * die + 64 * (r % 5) + r / 5
  pc * 0x30000000 + b * 0x100000 + s * 256 + o % 256

/-- The memory key of a device-local address. -/
def memKey (a : Nat) : Nat :=
  if a < 0x10000000000 then spreadKey a
  else if a < 0x20000000000 then dieKey ((a - 0x10000000000) / 0x4000000000) a
  else a

/-- The pseudo-channel of a DRAM key. -/
def keyPc (k : Nat) : Nat := k / 0x30000000
/-- Whether a memory key is DRAM. -/
def keyIsDram (k : Nat) : Bool := decide (k < 0xF000000000)

/-- The first key of the unit that poison marks: a 64-byte code line of DRAM, an 8-byte word elsewhere. -/
def poisonUnit (k : Nat) : Nat := if keyIsDram k then k / 64 * 64 else k / 8 * 8
/-- Bytes of that unit. -/
def unitBytes (k : Nat) : Nat := if keyIsDram k then 64 else 8

/-- Whether pseudo-channel `pc` is retired (R239). -/
def pcRetired (d : Dev) (pc : Nat) : Bool :=
  match smapFind d.stk (pc / 64) with
  | some s => s.retired.contains (pc % 64)
  | none => false

/-- Whether a memory key reads poisoned: its unit is marked, or its channel retired (R239, R241). -/
def keyPoisoned (d : Dev) (m : Mem) (k : Nat) : Bool :=
  m.poison.contains (poisonUnit k) || (keyIsDram k && pcRetired d (keyPc k))

/-- The view that owns band `b`: true for the die-local views (R25). -/
def bandLocal (d : Dev) (b : Nat) : Bool := natBit (regNat d (0x2000100 + 4 * (b / 32))) (b % 32)

/-- Some band of a range of bands belongs to the view `wrong`. -/
def bandsClash (d : Dev) (lo k : Nat) (wrong : Bool) : Bool := (rangeFrom lo k).any (fun b => bandLocal d b == wrong)

/-- Whether a span of this device meets a band the other view owns (R25). -/
def viewClash (d : Dev) (lo hi : Nat) : Bool :=
  if hi < 0x10000000000 then bandsClash d (lo / 0x50000000) (hi / 0x50000000 - lo / 0x50000000 + 1) true
  else if 0x10000000000 ≤ lo ∧ hi < 0x20000000000 then
    let o := lo % 0x4000000000 / 0x14000000
    let p := hi % 0x4000000000 / 0x14000000
    bandsClash d o (p - o + 1) false
  else false

/-! ### Instruction fields (R83) -/

/-- The instruction word of a class, an operation, its flags and operands. -/
def mkWord (cls op : Nat) (f : BitVec 4) (o : BitVec 112) : W128 :=
  BitVec.ofNat 4 cls ++ BitVec.ofNat 8 op ++ f ++ o

/-- Operand bits. -/
def fld (o : BitVec 112) (lo w : Nat) : Nat := bvBits o lo w

/-- Whether operand bits outside the listed (low bit, width) fields are all 0 (R85). -/
def onlyFields (o : BitVec 112) (used : List (Nat × Nat)) : Bool :=
  (used.foldl (fun acc u => natPut acc u.1 u.2 0) o.toNat) == 0

/-- The completion field's event counter, if EV is 1 (R76). -/
def evField (o : BitVec 112) : Option Nat := if natBit o.toNat 7 then some (fld o 0 6) else none

/-! ### Tensor descriptors (R174 to R178) -/

/-- A tensor descriptor read out of its register. -/
structure TDesc where
  base : Nat
  slot : Nat
  peer : Bool
  fmt : Nat
  ndim : Nat
  ext : List Nat
  str : List Int
  idxBase : Nat
  deriving DecidableEq, Repr

/-- Bits of word `k` of a descriptor register. -/
def dword (r : BitVec 512) (k lo w : Nat) : Nat := bvBits r (64 * k + lo) w

/-- KIND of a descriptor register (R87). -/
def dkind (r : BitVec 512) : Nat := dword r 7 60 4

/-- The descriptor a register holds; dimensions beyond NDIM have extent 1 and stride 0 (R175), and a descriptor of this
device's own slot counts as one without PEER (R178). -/
def tdesc (own : Nat) (r : BitVec 512) : TDesc :=
  let ndim := dword r 0 52 3
  let peer := natBit (dword r 0 45 1) 0
  let slot := dword r 0 42 3
  let same := peer && slot == own
  { base := dword r 0 0 42
    slot := if same then 0 else slot
    peer := peer && !same
    fmt := dword r 0 48 4
    ndim := ndim
    ext := (rangeFrom 0 5).map (fun k => if k < ndim then dword r (1 + k) 0 20 else 1)
    str := (rangeFrom 0 5).map (fun k => if k < ndim then signedOf 40 (dword r (1 + k) 24 40) else 0)
    idxBase := dword r 6 0 32 }

/-- Bytes of an element, 1 for the nibbles of CB4 (R176). -/
def elemSize (fmt : Nat) : Nat := listGet [4, 2, 1, 1, 4, 8] fmt 1

/-- Elements of a descriptor. -/
def elemCount (t : TDesc) : Nat := t.ext.foldl (fun a b => a * b) 1

/-- Extent of dimension `k`. -/
def extOf (t : TDesc) (k : Nat) : Nat := listGet t.ext k 1
/-- Stride of dimension `k`. -/
def strOf (t : TDesc) (k : Nat) : Int := listGet t.str k 0

/-- The indices of loop-order element `e` in dimensions of the given extents (R171). -/
def unravel (exts : List Nat) (e : Nat) : List Nat :=
  match exts with
  | [] => []
  | x :: t => e % x :: unravel t (e / x)

/-- The loop-order number of indices (R171). -/
def ravel (exts idx : List Nat) : Nat :=
  match exts, idx with
  | x :: t, i :: j => i + x * ravel t j
  | _, _ => 0

/-- The sum of index times stride. -/
def dotStride (idx : List Nat) (str : List Int) : Int :=
  match idx, str with
  | i :: t, s :: u => (i : Int) * s + dotStride t u
  | _, _ => 0

/-- The byte address of the element with given indices (R177). -/
def addrAt (t : TDesc) (idx : List Nat) : Int :=
  if t.fmt = 3 then (t.base : Int) + (listGet idx 0 0 / 2 : Nat) + dotStride (idx.drop 1) (t.str.drop 1)
  else (t.base : Int) + dotStride idx t.str

/-- The byte address of loop-order element `e`. -/
def elemAddr (t : TDesc) (e : Nat) : Nat := (addrAt t (unravel t.ext e)).toNat

/-- Whether loop-order element `e` of a CB4 tensor is in the high nibble (R40). -/
def elemHigh (t : TDesc) (e : Nat) : Bool := t.fmt == 3 && e % extOf t 0 % 2 == 1

/-- Reach below (`up` false) or above (`up` true) the base of extents and strides. -/
def reach (ext : List Nat) (str : List Int) (up : Bool) : Int :=
  match ext, str with
  | e :: t, s :: u =>
    let r := ((e - 1 : Nat) : Int) * s
    (if up then max r 0 else min r 0) + reach t u up
  | _, _ => 0

/-- Reach of dimension 0 in CB4, where elements share bytes. -/
def reachOf (t : TDesc) (up : Bool) : Int :=
  if t.fmt = 3 then (if up then ((extOf t 0 - 1) / 2 : Nat) else 0) + reach (t.ext.drop 1) (t.str.drop 1) up
  else reach t.ext t.str up

/-- The lowest byte a descriptor addresses (R134). -/
def spanLo (t : TDesc) : Int := (t.base : Int) + reachOf t false
/-- The highest byte a descriptor addresses. -/
def spanHi (t : TDesc) : Int := (t.base : Int) + reachOf t true + (elemSize t.fmt : Nat) - 1

/-- Whether a descriptor is packed in dimension 0 (R142, R172). -/
def packed0 (t : TDesc) : Bool :=
  t.fmt == 3 || extOf t 0 == 1 || strOf t 0 == (elemSize t.fmt : Nat)

/-- Reserved bits, NDIM and alignment of a descriptor (R175, R177). Words 0, 6 and 7 count as used by every instruction
(assumption log 153, DEDUCED). -/
def shapeBad (r : BitVec 512) : Bool :=
  let ndim := dword r 0 52 3
  let fmt := dword r 0 48 4
  let es := elemSize fmt
  ndim == 0 || decide (5 < ndim) || dword r 0 46 2 != 0 || dword r 0 55 9 != 0 || dword r 6 32 32 != 0 ||
    dword r 7 0 60 != 0 || (rangeFrom 0 ndim).any (fun k => dword r (1 + k) 20 4 != 0) ||
    dword r 0 0 42 % es != 0 ||
    (rangeFrom 0 ndim).any (fun k => dword r (1 + k) 24 40 % es != 0) ||
    (fmt == 3 && dword r 1 24 40 != 0)

/-- Whether a used dimension has extent 0 (R134). -/
def extentZero (r : BitVec 512) : Bool :=
  (rangeFrom 0 (min 5 (dword r 0 52 3))).any (fun k => dword r (1 + k) 0 20 == 0)

/-- Where an operand may lie (R115, R134, R170, R178). -/
structure Allowed where
  own : Bool
  other : Bool
  aperture : Bool
  acc : Bool
  mirror : Bool
  peer : Bool
  deriving DecidableEq, Repr

/-- Own scratchpad only. -/
def ownOnly : Allowed := ⟨true, false, false, false, false, false⟩
/-- Own scratchpad or an aperture. -/
def ownOrAperture : Allowed := ⟨true, false, true, false, false, false⟩

/-- One condition of a fault at issue: the event and whether it holds. -/
abbrev Cond := Nat × Bool

/-- Whether a region is one an operand may lie in. -/
def regionOk (n : Nat) (u : Allowed) (r : Region) : Bool :=
  match r with
  | .spad k => if k = n then u.own else u.other
  | .spread => u.aperture
  | .dieLocal _ => u.aperture
  | .accStore => u.acc
  | .mirror _ => u.mirror
  | .unmapped => true

/-- Whether both ends of a span lie in one mapped region. -/
def spanRegion (part : Nat) (lo hi : Int) : Region :=
  if lo < 0 ∨ 0x40000000000 ≤ hi then .unmapped
  else
    let a := regionOf part lo.toNat
    if a = regionOf part hi.toNat then a else .unmapped

/-- Whether a span lies in the register mirror but crosses from one BAR0 region to another (R134). -/
def mirrorCross (lo hi : Int) : Bool :=
  decide (0x3F000000000 ≤ lo) && decide (hi < 0x3F004000000) &&
    bar0Region (lo - 0x3F000000000).toNat != bar0Region (hi - 0x3F000000000).toNat

/-- The part of a board peer's device, 0 where its channel has not come up (R178). -/
def peerPart (d : Dev) (slot : Nat) : Nat := smapGet d.ni.peers slot 0

/-- The issue-time conditions of one tensor operand of core `n` (R87, R134, R175 to R178, R20, R25, R28), `fmts` the
formats the instruction accepts there. -/
def descConds (d : Dev) (n : Nat) (raw : BitVec 512) (u : Allowed) (fmts : List Nat) : List Cond :=
  let t := tdesc (ownSlot d) raw
  let lo := spanLo t
  let hi := spanHi t
  let here := spanRegion d.boot.part lo hi
  let there := spanRegion (peerPart d t.slot) lo hi
  let absent := match here with | .spad k => !corePresent d k | _ => false
  [ (0x030C, dkind raw != 1),
    (0x0308, extentZero raw),
    (0x030A, decide (5 < t.fmt) || !fmts.contains t.fmt),
    (0x030B, shapeBad raw),
    (0x0320, !t.peer && ((here == .unmapped && !mirrorCross lo hi) || absent)),
    (0x0309, (!t.peer && (t.slot != 0 || !regionOk n u here || mirrorCross lo hi)) ||
             (t.peer && (!u.peer || peerPart d t.slot == 0 ||
               (match there with | .spad _ => false | .spread => false | .dieLocal _ => false
                                 | .accStore => false | .mirror _ => false | .unmapped => true)))),
    (0x0522, !t.peer && decide (0 ≤ lo) && viewClash d lo.toNat hi.toNat),
    (0x0B20, t.peer && (match there with | .accStore => true | .mirror _ => true | _ => false)) ]

/-- The position of an event in the order of R135; unlisted events rank last, by code. -/
def faultRank (ev : Nat) : Nat :=
  match ev with
  | 0x0301 => 1 | 0x0302 => 2 | 0x0303 => 3 | 0x030C => 4 | 0x0308 => 5 | 0x030A => 6
  | 0x030B => 7 | 0x0124 => 8 | 0x0122 => 9 | 0x030E => 10 | 0x0306 => 11 | 0x0305 => 12 | 0x0304 => 13
  | 0x0307 => 14 | 0x0B24 => 15 | 0x0320 => 16 | 0x0309 => 17 | 0x030D => 18 | 0x0522 => 19 | 0x0321 => 20
  | 0x0B20 => 21 | 0x0523 => 22 | 0x0B23 => 23 | 0x0123 => 24 | 0x0125 => 25 | 0x0B21 => 26 | 0x0B22 => 27
  | _ => 100 + ev

/-- The event that the fault record names: the first in R135's order among those that hold. -/
def firstFault (cs : List Cond) : Option Nat :=
  cs.foldl (fun acc c =>
    if !c.2 then acc
    else match acc with
      | none => some c.1
      | some e => if faultRank c.1 < faultRank e then some c.1 else some e) none

/-! ### Granules (R78) -/

/-- The granules of bytes `lo` to `hi` of a scratchpad, as offsets. -/
def granulesOf (lo hi : Nat) : List Nat := rangeFrom (lo / 4096) (hi / 4096 - lo / 4096 + 1)

/-- The granules of core `n`'s own scratchpad that a descriptor spans; none elsewhere (R81). -/
def descGranules (d : Dev) (n : Nat) (t : TDesc) : List Nat :=
  if t.peer then []
  else match spanRegion d.boot.part (spanLo t) (spanHi t) with
    | .spad k => if k = n then granulesOf ((spanLo t).toNat - spadBase n) ((spanHi t).toNat - spadBase n) else []
    | _ => []

/-- Whether a granule's writer flag is set (R78, R80). -/
def granuleWritten (k : Core) (g : Nat) : Bool := k.ops.any (fun o => o.dsts.contains g)
/-- Whether a granule's reader count is not 0. -/
def granuleRead (k : Core) (g : Nat) : Bool := k.ops.any (fun o => o.srcs.contains g)

/-- The scoreboard's condition: every source ready and every destination free (R79). -/
def granulesReady (k : Core) (srcs dsts : List Nat) : Bool :=
  srcs.all (fun g => !granuleWritten k g) && dsts.all (fun g => !granuleWritten k g && !granuleRead k g)

/-! ### Elements -/

/-- A source of bytes by address, with its poison. -/
structure ByteView where
  byte : Nat → Byte
  bad : Nat → Bool

/-- This device's memory by device-local address (R19). -/
def localView (d : Dev) (m : Mem) : ByteView :=
  ⟨fun a => memByte m (memKey a), fun a => keyPoisoned d m (memKey a)⟩

/-- The raw bits of loop-order element `e`. -/
def elemRaw (v : ByteView) (t : TDesc) (e : Nat) : Nat :=
  let a := elemAddr t e
  if t.fmt = 3 then
    (if elemHigh t e then (v.byte a).toNat / 16 else (v.byte a).toNat % 16)
  else leNat ((rangeFrom a (elemSize t.fmt)).map v.byte)

/-- Whether loop-order element `e` touches a poisoned unit. -/
def elemBad (v : ByteView) (t : TDesc) (e : Nat) : Bool :=
  v.bad (elemAddr t e) || v.bad (elemAddr t e + elemSize t.fmt - 1)

/-- The elements of a descriptor in loop order, each with its poison. -/
def readElems (v : ByteView) (t : TDesc) : List (Nat × Bool) :=
  (rangeFrom 0 (elemCount t)).map (fun e => (elemRaw v t e, elemBad v t e))

/-- The FP32 bits of an element of a floating-point format: BF16 widens exactly (R34). -/
def wide (fmt x : Nat) : W32 := if fmt = 1 then fWiden (BitVec.ofNat 16 x) else BitVec.ofNat 32 x

/-- An exact result rounded into FP32 or BF16, as element bits. -/
def narrowTo (fmt : Nat) (x : FExact) : Nat := if fmt = 1 then (fToBf x).toNat else (fTo32 x).toNat

/-- The bytes of one element written, by device-local address. A CB4 element of even index writes its byte with the
next element's nibble, or 0 as padding (R40); one of odd index was written with it. -/
def elemBytes (t : TDesc) (e : Nat) (val next : Nat × Bool) : List (Nat × Byte × Bool) :=
  let a := elemAddr t e
  if t.fmt = 3 then
    if elemHigh t e then []
    else
      let more := decide (e % extOf t 0 + 1 < extOf t 0)
      [(a, BitVec.ofNat 8 (val.1 % 16 + (if more then next.1 % 16 else 0) * 16), val.2 || (more && next.2))]
  else (leBytes (elemSize t.fmt) val.1).zipIdx.map (fun b => (a + b.2, b.1, val.2))

/-- The byte writes of elements in loop order from number `e`, by device-local address, each with its poison. -/
def writeElems (t : TDesc) (e : Nat) (vals : List (Nat × Bool)) : List (Nat × Byte × Bool) :=
  match vals with
  | [] => []
  | v :: rest => elemBytes t e v (rest.headD (0, false)) ++ writeElems t (e + 1) rest

/-- Zeros over one poison unit. -/
def zeroUnit (k : Nat) : List MemOp := wrBytes k (List.replicate (unitBytes k) 0#8)

/-- Distinct numbers, in order of first appearance. -/
def distinct (l : List Nat) : List Nat :=
  l.foldl (fun acc x => if acc.contains x then acc else acc ++ [x]) []

/-- Byte writes with only the last write of each byte, where some carry poison. -/
def lastWrites (ws : List (Nat × Byte × Bool)) : List (Nat × Byte × Bool) :=
  if ws.any (fun w => w.2.2) then ws.foldl (fun acc w => smapSet acc w.1 w.2) [] else ws

/-- What byte writes (by memory key, with poison) do to memory: units computed from poison are poisoned, DRAM ones as
zeros (R217), unless later writes replace what was (R199); a poisoned unit wholly overwritten is cleared, one partly
overwritten keeps its poison and drops the bytes (R218, R241); a retired channel drops them (R239). The second result: a
DRAM write was dropped. -/
def storeCells (d : Dev) (m : Mem) (all : List (Nat × Byte × Bool)) : List MemOp × Option Nat :=
  let ws := lastWrites all
  let keys := ws.map (fun w => w.1)
  let tainted := distinct ((ws.filter (fun w => w.2.2)).map (fun w => poisonUnit w.1))
  let covered := fun u => (rangeFrom u (unitBytes u)).all (fun k => keys.contains k)
  let touched := fun u => (rangeFrom u (unitBytes u)).any (fun k => keys.contains k)
  let blocked := m.poison.filter (fun u => touched u && !covered u)
  let cleared := m.poison.filter (fun u => covered u)
  let dead := fun k => keyIsDram k && pcRetired d (keyPc k)
  let live := ws.filter (fun w => !w.2.2 && !blocked.contains (poisonUnit w.1) &&
    !(tainted.contains (poisonUnit w.1) && keyIsDram w.1) && !dead w.1)
  let droppedKey := (ws.find? (fun w => (keyIsDram w.1 && blocked.contains (poisonUnit w.1)) || dead w.1)).map (fun w => w.1)
  let taintLive := tainted.filter (fun u => !dead u)
  (cleared.map (fun u => MemOp.unpoison u (gtimeNs d)) ++ live.map (fun w => MemOp.wr w.1 w.2.1) ++
    (taintLive.filter keyIsDram).flatMap zeroUnit ++ taintLive.map MemOp.poison, droppedKey)

/-- Elements written through a descriptor on this device. -/
def storeElems (d : Dev) (m : Mem) (t : TDesc) (vals : List (Nat × Bool)) : List MemOp × Option Nat :=
  storeCells d m ((writeElems t 0 vals).map (fun w => (memKey w.1, w.2)))

/-! ### The codeword of a code line (R236) -/

/-- The eight coefficients of a byte doubled in GF(2^8) with field polynomial x^8 + x^4 + x^3 + x^2 + 1. -/
def gfDouble (a : Nat) : Nat := if a < 128 then 2 * a else (2 * a - 256) ^^^ 0x1D

/-- The product of `a` and the low `k` coefficients of `b` in that field. -/
def gfMul (k a b : Nat) : Nat :=
  match k with
  | 0 => 0
  | k + 1 => (if natBit b 0 then a else 0) ^^^ gfMul k (gfDouble a) (b / 2)

/-- A polynomial, lowest coefficient first, times x + r. -/
def gfTimes (r carry : Nat) (p : List Nat) : List Nat :=
  match p with
  | [] => [carry]
  | c :: t => (carry ^^^ gfMul 8 r c) :: gfTimes r c t

/-- The generator, whose roots are α^0 to α^4, lowest coefficient first. -/
def rsGenerator : List Nat := ([1, 2, 4, 8, 16] : List Nat).foldl (fun p r => gfTimes r 0 p) [1]

/-- The check symbols, highest coefficient first, once another symbol has been divided in. -/
def rsStep (rem : List Nat) (s : Nat) : List Nat :=
  let q := s ^^^ rem.headD 0
  (rem.drop 1 ++ [0]).zipWith (fun r g => r ^^^ gfMul 8 q g) (rsGenerator.take 5).reverse

/-- The 72 symbols of a code line: its data bytes, the poison mark and two metadata bytes of 0, and the 5 check symbols
(R236; their order in the codeword, assumption log 131, DESIGN CHOICE). -/
def codeWord (data : List Byte) (poisoned : Bool) : List Nat :=
  let body := data.map (fun b => b.toNat) ++ [if poisoned then 0xA5 else 0, 0, 0]
  body ++ body.foldl rsStep [0, 0, 0, 0, 0]

/-- A codeword with a symbol changed by a difference. -/
def changeSym (w : List Nat) (e : Nat × Nat) : List Nat := listSet w e.1 (listGet w e.1 0 ^^^ (e.2 % 256))

/-- The symbols in which a codeword as it is read differs from itself as it was written: place and difference. -/
def changedPlaces (w : List Nat) (es : List (Nat × Nat)) : List (Nat × Nat) :=
  (((es.foldl changeSym w).zipWith (fun a b => a ^^^ b) w).zipIdx.filter (fun p => p.1 != 0)).map (fun p => (p.2, p.1))

/-! ### Errors that accesses meet -/

/-- DETAIL of a DRAM line event (R469): pseudo-channel, code line, an aperture address of the line, and the view. -/
def lineDetail (pc line addr : Nat) (viewLocal : Bool) : List Byte :=
  leBytes 2 pc ++ leBytes 2 0 ++ leBytes 4 line ++ leBytes 8 addr ++ leBytes 1 viewLocal.toNat

/-- The slot, rotated back: the inverse of the line rotation of R225 (`n` = 1,280) and R226 (320). -/
def unrotate (n s r : Nat) : Nat := (r + n - (s * 397) % n) % n

/-- The aperture address of byte offset `off` of pseudo-channel `pc`, in the view that owns its band (R225, R226). -/
def apertureAddr (d : Dev) (pc off : Nat) : Nat × Bool :=
  let b := off / 0x100000
  let s := off % 0x100000 / 256
  let die := pc / 320
  let j := pc % 320 / 64
  let ch := pc % 64
  if bandLocal d b then
    (0x10000000000 + die * 0x4000000000 + b * 0x14000000 + (s * 320 + unrotate 320 s (j + 5 * ch)) * 256 + off % 256, true)
  else (b * 0x50000000 + (s * 1280 + unrotate 1280 s (die + 4 * j + 20 * ch)) * 256 + off % 256, false)

/-- The block of stack `k` (R251). -/
def stackOff (k : Nat) : Nat := 0x2000400 + 0x20 * k

/-- A code line found uncorrectable: poison codeword, STACK_k_UE, a P-class record and its pending acknowledgement
(R240). A line already poisoned raises nothing. -/
def lineUe (d : Dev) (m : Mem) (pc line : Nat) : Dev × List MemOp :=
  let k := pc * 0x30000000 + line * 64
  if m.poison.contains k then (d, [])
  else
    let ap := apertureAddr d pc (line * 64)
    let d1 := dayBump (regBump d (stackOff (pc / 64) + 8) 1) 6 1
    let d2 := postRecord d1 (recOf 0x0641 1 (pc / 64) (lineDetail pc line ap.1 ap.2))
    let seen := smapGet d2.mm.ueLines pc []
    ({ d2 with mm := { d2.mm with pendingAck := d2.mm.pendingAck ++ [(lastSeq d2, pc, line)],
                                  ueLines := smapSet d2.mm.ueLines pc ((line, gtimeNs d2) :: seen) } },
     zeroUnit k ++ [.poison k])

/-- Corrections of a pseudo-channel within the hour before now (R239). -/
def ceRecent (d : Dev) (pc : Nat) : List (Nat × Nat) :=
  (smapGet d.mm.ceTimes pc []).filter (fun e => decide (gtimeNs d < e.1 + 3600000000000))

/-- A correction by a base die, counted (R237, R239). -/
def lineCe (d : Dev) (pc : Nat) : Dev :=
  let d1 := dayBump (dayBump (regBump d (stackOff (pc / 64) + 4) 1) 5 1) (300 + pc / 64) 1
  let l := match ceRecent d pc with
    | (t, c) :: r => if t = gtimeNs d then (t, c + 1) :: r else (gtimeNs d, 1) :: (t, c) :: r
    | [] => [(gtimeNs d, 1)]
  { d1 with mm := { d1.mm with ceTimes := smapSet d1.mm.ceTimes pc l } }

/-- A read of a code line finds symbols of its codeword changed, beside those left wrong before (R236, R237, R240). One or
two are corrected; the line is written back when there were two, or by a scrub. Three are found uncorrectable. Four or more
are found uncorrectable or taken for another line, as a free bit says (assumption log 131, DESIGN CHOICE). A retired channel
is not touched (R239). -/
def lineErr (d : Dev) (m : Mem) (scrub : Bool) (pc line : Nat) (syms : List (Nat × Nat)) : Dev × List MemOp :=
  let k := pc * 0x30000000 + line * 64
  let word := codeWord (memBytes m k 64) (m.poison.contains k)
  let wrong := changedPlaces word (smapGet m.flaws k [] ++ syms)
  if pcRetired d pc ∨ wrong.isEmpty then (d, [])
  else if wrong.length ≤ 2 then (lineCe d pc, [.flaw k (if scrub ∨ wrong.length = 2 then [] else wrong)])
  else
    let f := drawFree d
    if wrong.length = 3 ∨ natBit f.1.toNat 0 then
      let r := lineUe (if wrong.length = 3 then d else f.2) m pc line
      (r.1, r.2 ++ [.flaw k []])
    else (lineCe { f.2 with free := f.2.free + 1 } pc, [.undef ⟨k, k + 64, f.2.free, 0, 0, 0⟩])

/-- A read of scratchpad word `w` of core `n` finds a single-bit error (R216, R219). -/
def spadCe (d : Dev) (n w : Nat) : Dev :=
  let d1 := dayBump (regPutNat (regBump d (coreOff n 0x680) 1) (coreOff n 0x688) (w % 2 ^ 20)) 3 1
  modCore d1 n (fun k => { k with health := { k.health with wordCe := smapMod k.health.wordCe w 0 (fun x => x + 1) } })

/-- A read of scratchpad word `w` of core `n` finds an uncorrectable error: the word is poisoned. Where it had been so
before and a full write had cleared it, 24 hours ago or less, it fails (R217, R219). -/
def spadUe (d : Dev) (m : Mem) (n w : Nat) : Dev × List MemOp :=
  let key := spadBase n + 8 * w
  if m.poison.contains key then (d, [])
  else
    let h := (coreOf d n).health
    let again := (smapFind h.wordUe w).isSome && (match smapFind m.cleared key with
      | some t => decide (gtimeNs d < t + 86400000000000)
      | none => false)
    let d1 := dayBump (regPutNat (regBump d (coreOff n 0x684) 1) (coreOff n 0x688) (w % 2 ^ 20 + 2 ^ 20)) 4 1
    (modCore d1 n (fun k => { k with health := { k.health with
      wordUe := smapSet k.health.wordUe w (gtimeNs d)
      failing := if again then keyInsert k.health.failing w else k.health.failing } }), [.poison key])

/-- One error met by an instruction's accesses, or by the base die's or the network die's for it (R216, R217, R237, R240, R475). -/
def applyErr (d : Dev) (m : Mem) (e : MemErr) : Dev × List MemOp :=
  match e with
  | .spad n w bits => if bits = 0 then (d, []) else if bits = 1 then (spadCe d n w, []) else spadUe d m n w
  | .line pc line syms => lineErr d m false pc line syms
  | .acc w bits =>
    if bits = 0 then (d, [])
    else if bits = 1 then (regBump d 0x3E08018 1, [])
    else (d, if m.poison.contains (0x21000000000 + 8 * w) then [] else [.poison (0x21000000000 + 8 * w)])
  | .stream _ bits => (if bits = 1 then regBump d 0x3E08018 1 else d, [])

/-- Whether an error is an uncorrectable word of the accumulation store (R370). -/
def storeUe (e : MemErr) : Bool :=
  match e with
  | .acc _ bits => decide (2 ≤ bits)
  | _ => false

/-- Errors met, in order. -/
def applyErrs (d : Dev) (m : Mem) (es : List MemErr) : Dev × List MemOp :=
  match es with
  | [] => (d, [])
  | e :: t =>
    let r := applyErr d m e
    let q := applyErrs r.1 (memApplyAll m r.2) t
    (q.1, r.2 ++ q.2)

/-- One error met by a reader that is no instruction of a core: a word newly poisoned has its record, and nothing faults
(R217, R220). -/
def portErr (d : Dev) (m : Mem) (e : MemErr) : Dev × List MemOp :=
  let r := applyErr d m e
  match e with
  | .spad n w _ => if r.2.isEmpty then r else (postRecord r.1 { recOf 0x0441 0 n (leBytes 4 w) with lcore := n }, r.2)
  | _ => r

/-- Such errors, in order. -/
def portErrs (d : Dev) (m : Mem) (es : List MemErr) : Dev × List MemOp :=
  match es with
  | [] => (d, [])
  | e :: t =>
    let r := portErr d m e
    let q := portErrs r.1 (memApplyAll m r.2) t
    (q.1, r.2 ++ q.2)

/-- The fault with which an instruction completes that read or wrote poison at device-local address `a`: T-class
SPAD_UNCORRECTABLE in a scratchpad, POISON_CONSUMED in DRAM (R217, R241). -/
def poisonFault (d : Dev) (a : Nat) : OpFault :=
  let k := memKey a
  if keyIsDram k then
    let off := k % 0x30000000
    let ap := apertureAddr d (keyPc k) (off / 64 * 64)
    ⟨0x0642, 0, lineDetail (keyPc k) (off / 64) ap.1 ap.2⟩
  else ⟨0x0441, 0, leBytes 4 (k % 0x800000 / 8)⟩

/-- The first poisoned element of a source, as its fault. -/
def srcFault (d : Dev) (t : TDesc) (vals : List (Nat × Bool)) : Option OpFault :=
  match vals.findIdx? (fun v => v.2) with
  | some e => some (poisonFault d (elemAddr t e))
  | none => none

/-- The fault of a dropped DRAM write, by its memory key (R239, R241). -/
def dropFault (d : Dev) (k : Nat) : OpFault :=
  let off := k % 0x30000000
  let ap := apertureAddr d (keyPc k) (off / 64 * 64)
  ⟨0x0642, 0, lineDetail (keyPc k) (off / 64) ap.1 ap.2⟩

end Sys2Proof.Machine
end

