-- ==== Sys2Proof/Machine/Flags.lean ====
section
/-! DEFINITION. The sticky flags and clip counters of a core (R46, R56 to R61, R206, R207). -/

namespace Sys2Proof.Machine

/-- NUM_STATUS.WIDEN set for bank `b`, with FIRST_BANK while WIDEN was 0 (R58). -/
def setWiden (d : Dev) (n b : Nat) : Dev :=
  let off := coreOff n 0x304
  if natBit (regNat d off) 0 then d else regPutField (regPutField d off 0 1 1) off 8 5 b

/-- NUM_STATUS bit `i` set. -/
def setNumStatus (d : Dev) (n i : Nat) : Dev := regPutField d (coreOff n 0x304) i 1 1

/-- NUM_STATUS cleared where `mask` is 1; clearing WIDEN clears FIRST_BANK (R59). -/
def clearNumStatus (d : Dev) (n mask : Nat) : Dev :=
  let off := coreOff n 0x304
  let v := regNat d off
  let v1 := v - (v &&& (mask % 16))
  regPutNat d off (if natBit mask 0 then natPut v1 8 5 0 else v1)

/-- Clip counter `b` of core `n`. -/
def clipGet (d : Dev) (n b : Nat) : Nat := regNat d (coreOff n (0x380 + 4 * b))

/-- Clip counter `b` above CLIP_LIMIT (R58). -/
def clipOver (d : Dev) (n b : Nat) : Bool := decide (regNat d (coreOff n 0x300) < clipGet d n b)

/-- A change of clip counter `b`, which is compared with CLIP_LIMIT (R58). -/
def clipSet (d : Dev) (n b v : Nat) : Dev :=
  let d1 := regPutNat d (coreOff n (0x380 + 4 * b)) v
  if clipOver d1 n b then setWiden d1 n b else d1

/-- CLIP_LIMIT written; every counter is compared, and the lowest bank above it is FIRST_BANK (R58). -/
def clipLimitSet (d : Dev) (n v : Nat) : Dev :=
  let d1 := regPutNat d (coreOff n 0x300) v
  match (rangeFrom 0 32).find? (fun b => clipOver d1 n b) with
  | some b => setWiden d1 n b
  | none => d1

/-- VFLAGS bits raised (R206). -/
def setVflags (d : Dev) (n mask : Nat) : Dev :=
  let off := coreOff n 0x30C
  regPutNat d off (regNat d off ||| mask)

/-- A W1C register cleared where `mask` is 1 (R6). -/
def clearW1c (d : Dev) (off mask : Nat) : Dev :=
  let v := regNat d off
  regPutNat d off (v - (v &&& mask))

/-- VF_RANGE -/
def vfRange : Nat := 1
/-- VF_INDEX -/
def vfIndex : Nat := 2
/-- VF_SAT -/
def vfSat : Nat := 4
/-- VF_CVT_NAN -/
def vfCvtNan : Nat := 8
/-- VF_INVALID -/
def vfInvalid : Nat := 16
/-- VF_OVERFLOW -/
def vfOverflow : Nat := 32

/-- The flags of a value written by arithmetic or conversion (R181): `x` before rounding, its bits in the written
format `fmt`, and whether every operand was finite. -/
def arithFlags (x : FExact) (fmt bits : Nat) (finite : Bool) : Nat :=
  let inf := if fmt = 1 then bits % 0x8000 == 0x7F80 else bits % 0x80000000 == 0x7F800000
  (match x with | .nan _ true => vfInvalid | _ => 0) + (if inf && finite then vfOverflow else 0)

end Sys2Proof.Machine
end

