-- ==== Sys2Proof/Machine/Issue.lean ====
section
/-! DEFINITION. The sequencer: which instruction issues, what holds it, how it faults, and how long operations start
and complete (R70 to R82, R134 to R137). -/

namespace Sys2Proof.Machine

/-- What an instruction's issue comes to. -/
inductive IssueRes where
  /-- It cannot issue yet (R70, R79). -/
  | held
  /-- It faults at issue with an event (R136). -/
  | fault (ev : Nat)
  /-- It issues; the context goes on to the next index (R96). -/
  | next (d : Dev) (ops : List MemOp)
  /-- It issues and has set its context's program counter itself. -/
  | placed (d : Dev) (ops : List MemOp)
  /-- It issues, and nothing of its context is left to set. -/
  | done (d : Dev) (ops : List MemOp)
  /-- It issues and its context stops or waits, so another becomes current (R71). -/
  | away (d : Dev) (ops : List MemOp)

/-- Whether the matrix array and the vector engine of core `n` are clocked: cores run, and the core has not gated its clocks
(R532, R540). -/
def arrayRuns (d : Dev) (n : Nat) : Bool := coresRun d && !(coreOf d n).gated

/-- The context of core `n` whose next instruction is `w` (R69 to R72): the core is in service and runs, and its
current context is runnable and stands at `w`. -/
def issuer (d : Dev) (n : Nat) (w : W128) : Option Nat :=
  let k := settleCtx (coreOf d n)
  let x := ctxOf k k.cur
  if coresRun d && coreInService d n && ctxRunnable x && smapGet k.istore x.pc 0#128 == w then some k.cur else none

/-- The detail of a U-class record of a core instruction: its 128 bits (R469). -/
def wordDetail (w : W128) : List Byte := leBytes 16 w.toNat

/-- A core at an issue: its current context is one that may issue, and the swap cycle of an MSWP is over (R71, R152). -/
def issueCore (k : Core) : Core := { settleCtx k with swap := none }

/-- An instruction `w` of core `n` reaches issue, and `body` says what comes of it. Without a context that stands at
`w` nothing happens (assumption log 11, DESIGN CHOICE). -/
def issue (d : Dev) (n : Nat) (w : W128) (body : Dev → Nat → Ctx → IssueRes) : Dev × List MemOp :=
  match issuer d n w with
  | none => (d, [])
  | some c =>
    let d0 := modCore d n issueCore
    let x := ctxOf (coreOf d0 n) c
    match body d0 c x with
    | .held => (modCtx d0 n c (fun x => { x with st := 2 }), [])
    | .fault ev => (afterWork (faultCtx d0 n c x.pc ev 2 (wordDetail w)) n, [])
    | .next d1 ops => (goOn d1 n c, ops)
    | .placed d1 ops => (modCtx d1 n c (fun x => { x with st := 1, hold := 0 }), ops)
    | .done d1 ops => (d1, ops)
    | .away d1 ops => (modCore (modCtx d1 n c (fun x => { x with hold := 0 })) n (fun k => if k.cur = c then switchCtx k else k), ops)

/-- The first fault at issue, or what comes otherwise (R135). -/
def guarded (cs : List Cond) (go : IssueRes) : IssueRes :=
  match firstFault cs with
  | some ev => .fault ev
  | none => go

/-- Held until a condition holds (R79). -/
def whenReady (ready : Bool) (go : IssueRes) : IssueRes := if ready then go else .held

/-- A long operation may start: fewer than 512 are outstanding and the scoreboard allows its granules (R74, R79). -/
def longReady (k : Core) (srcs dsts : List Nat) : Bool :=
  decide (k.ops.length < 512) && granulesReady k srcs dsts

/-- A codebook or scale-bank register with no load incomplete (R38). -/
def bookReady (k : Core) (bs : List Nat) : Bool :=
  bs.all (fun b => !k.ops.any (fun o => o.bookWritten == some b))

/-- A codebook or scale-bank register that no incomplete operation reads or loads (R38). -/
def bookFree (k : Core) (b : Nat) : Bool :=
  !k.ops.any (fun o => o.booksRead.contains b || o.bookWritten == some b)

/-- A long operation as it stands at issue (R80, R82). -/
def newOp (k : Core) (c pc : Nat) (w : W128) (srcs dsts : List Nat) : LongOp :=
  { id := k.nextOp, ctx := c, pc := pc, word := w, srcs := srcs, dsts := dsts, booksRead := [], bookWritten := none,
    fault := none, awaiting := 0, dd := 0#512, ds := 0#512, aux := 0#512, buf := [], bufPoison := [],
    skip := [], vals := [] }

/-- A long operation outstanding from now on (R74). -/
def pushOp (d : Dev) (n : Nat) (o : LongOp) : Dev :=
  modCore d n (fun k => { k with ops := k.ops ++ [o], nextOp := k.nextOp + 1 })

/-- The completion field of a word (R76). -/
def wordEv (w : W128) : Option Nat := if natBit w.toNat 7 then some (bvBits w 0 6) else none

/-- The retries of a core once operation `id` has completed (R169, R211). -/
def endRetry (h : CoreHealth) (id : Nat) : CoreHealth :=
  let drop := fun (r : Retry) => if r.op = some id then noRetry else r
  { h with mopaTry := drop h.mopaTry, shadowTry := drop h.shadowTry, vecTry := drop h.vecTry }

/-- A long operation of core `n` completes: its granules are released and its event counter signalled, or, where it
completes with a fault, its context faults and nothing is signalled (R76, R80, R137). -/
def completeOp (d : Dev) (n : Nat) (o : LongOp) : Dev :=
  let d1 := modCore d n (fun k => { k with ops := k.ops.filter (fun p => p.id != o.id), health := endRetry k.health o.id })
  let d2 := match o.fault with
    | some f => faultCtx d1 n o.ctx o.pc f.ev f.cls f.detail
    | none => (match wordEv o.word with | some e => addEvent d1 n e 1 | none => d1)
  afterWork d2 n

/-- The oldest outstanding operation for which `p` holds (R75). -/
def oldestOp (k : Core) (p : LongOp → Bool) : Option LongOp := k.ops.find? p

/-- The oldest operation of a class and code completes, if there is one. -/
def completeOldest (d : Dev) (n : Nat) (p : LongOp → Bool) : Dev :=
  match oldestOp (coreOf d n) p with
  | some o => completeOp d n o
  | none => d

/-- Errors met by an issued access come first; the memory they leave is what it reads. -/
def withErrs (d : Dev) (m : Mem) (errs : List MemErr) (go : Dev → Mem → Dev × List MemOp) :
    Dev × List MemOp :=
  let r := applyErrs d m errs
  let q := go r.1 (memApplyAll m r.2)
  (q.1, r.2 ++ q.2)

end Sys2Proof.Machine
end

