-- ==== Sys2Proof/Machine/Retire.lean ====
section
/-! DEFINITION. Retirement of cores, their ledger entries and their remap to spares (R69, R452 to R460, R481). -/

namespace Sys2Proof.Machine

/-- A ledger entry is called for; LEDGER_APPEND appends it (R453). -/
def callEntry (d : Dev) (kind unit event flags : Nat) : Dev :=
  { d with boot := { d.boot with due := d.boot.due ++ [⟨kind, flags, event, unit, 0, 0, true⟩] } }

/-- SEQ that the entry called for last will have, 0xFFFF_FFFF where the ledger has no place for it (R452, R453, R469). -/
def dueSeq (d : Dev) : Nat :=
  let n := d.boot.ledger.length + d.boot.due.length
  if 8192 < n then 0xFFFFFFFF else n - 1

/-- UNIT of a core entry (R452). -/
def coreEntryUnit (p : Nat) : Nat := p / 52 + 4 * (p % 52)

/-- The die of logical core `n` (R13). -/
def coreDie (d : Dev) (n : Nat) : Nat := n / max 1 (coresPerDie d)

/-- The physical core behind logical core `n`, as 52 · die + index. -/
def physOf (d : Dev) (n : Nat) : Nat := 52 * coreDie d n + (coreOf d n).phys

/-- Whether the applied record enables physical core `p` (R449, R450). -/
def physEnabled (d : Dev) (p : Nat) : Bool :=
  natBit (leNat ((d.boot.applied.drop (16 + 8 * (p / 52))).take 8)) (p % 52)

/-- Whether some logical core of the part is mapped to physical core `p`. -/
def physMapped (d : Dev) (p : Nat) : Bool :=
  (rangeFrom 0 (coresTotal d)).any (fun n => decide ((coreOf d n).mapState ≤ 1) && physOf d n == p)

/-- Free tested spares of a die, lowest first (R456, R458). -/
def freeSpares (d : Dev) (die : Nat) : List Nat :=
  (rangeFrom (52 * die) 52).filter (fun p =>
    physEnabled d p && d.boot.passed.contains p && !d.boot.retired.contains p && !physMapped d p)

/-- DETAIL of a bring-up record (R469). -/
def bootDetail (seq die phys : Nat) : List Byte := leBytes 4 seq ++ leBytes 1 die ++ leBytes 1 phys

/-- A physical core's account of ageing; the commissioning voltage is not given (assumption log 3, DESIGN CHOICE). -/
def ageOf (d : Dev) (p : Nat) : PhysAge := smapGet d.boot.age p ⟨0, 0, 0, none, 0, 0, none, 0⟩
/-- The same changed. -/
def modAge (d : Dev) (p : Nat) (g : PhysAge → PhysAge) : Dev :=
  { d with boot := { d.boot with age := smapSet d.boot.age p (g (ageOf d p)) } }

/-- A retry or correction of core `n`, counted for its physical core's day (R479). -/
def coreDay (d : Dev) (n : Nat) : Dev := modAge d (physOf d n) (fun a => { a with dayCount := min 255 (a.dayCount + 1) })

/-- A physical core out of service from now on, with its entry (R457, R458). -/
def retirePhys (d : Dev) (p event : Nat) : Dev :=
  let d1 := { d with boot := { d.boot with retired := keyInsert d.boot.retired p } }
  callEntry d1 1 (coreEntryUnit p) event 1

/-- Instructions of an image in DRAM, as a store (R69, R513). -/
def imageStore (m : Mem) (addr len : Nat) : SMap W128 :=
  (rangeFrom 0 len).map (fun i =>
    (i, BitVec.ofNat 128 (leNat ((rangeFrom (addr + 16 * i) 16).map (fun a => memByte m (memKey a))))))

/-- The registers of core `n`'s block at their reset values (R62, R91, R169, R211, R221, R273). -/
def clearCoreBlock (d : Dev) (n : Nat) : Dev :=
  { d with regs := smapDrop d.regs (fun k => decide (coreOff n 0 ≤ k ∧ k < coreOff n 0x1000)) }

/-- A number for the next undefined range (assumption log 5, DESIGN CHOICE). -/
def freshSalt (d : Dev) : Nat × Dev := (d.free, { d with free := d.free + 1 })

/-- Logical core `n` placed on physical core `p` of its die: everything at reset, the program loaded, the scratchpad
undefined (R22, R39, R87, R149, R458). -/
def placeCore (d : Dev) (m : Mem) (n p : Nat) : Dev × List MemOp :=
  let k := coreOf d n
  let store := match k.image with | some (a, len) => imageStore m a len | none => []
  let b := if k.beat.enabled then { coreReset.beat with enabled := true } else coreReset.beat
  let s := freshSalt (clearCoreBlock d n)
  let d1 := setCore s.2 n { coreReset with istore := store, image := k.image, mapState := 0, phys := p % 52, beat := b }
  ({ d1 with boot := { d1.boot with coreRec := smapSet d1.boot.coreRec n p } },
   [.undef ⟨spadBase n, spadBase n + 0x600000, s.1, 0, 0, 0⟩])

/-- Logical core `n` has no spare: it becomes absent (R458 to R460). Its physical index is free, in CORE_MAP and in the
record (assumption log 5, DESIGN CHOICE). -/
def makeAbsent (d : Dev) (n : Nat) : Dev :=
  let a := drawFree (clearCoreBlock d n)
  let b := drawFree a.2
  let d1 := modCore b.2 n (fun k =>
    { coreReset with image := k.image, mapState := 2, phys := a.1.toNat % 64, beat := { coreReset.beat with enabled := k.beat.enabled } })
  let d2 := postRecord d1 { recOf 0x1022 1 0xFF (bootDetail 0xFFFFFFFF (coreDie d n) (b.1.toNat % 256)) with lcore := n }
  { d2 with boot := { d2.boot with reduced := true } }

/-- The remap of a pending logical core: spares are tested in ascending order, one that fails is retired (R458). -/
def remapTry (d : Dev) (m : Mem) (n : Nat) (ps : List Nat) : Dev × List MemOp :=
  match ps with
  | [] => (makeAbsent d n, [])
  | p :: t =>
    if d.boot.faulty.contains p then
      let d1 := retirePhys d p 0x1020
      remapTry (postRecord d1 { recOf 0x1020 1 0xFF (bootDetail (dueSeq d1) (p / 52) (p % 52)) with ledger := true }) m n t
    else
      let r := placeCore d m n p
      (postRecord r.1 { recOf 0x1021 0 0xFF (bootDetail 0xFFFFFFFF (p / 52) (p % 52)) with lcore := n }, r.2)

/-- Every pending logical core is remapped, in ascending order (R458). -/
def remapPending (d : Dev) (m : Mem) (ns : List Nat) : Dev × List MemOp :=
  match ns with
  | [] => (d, [])
  | n :: t =>
    if (coreOf d n).mapState = 1 then
      let r := remapTry d m n (freeSpares d (coreDie d n))
      let q := remapPending r.1 (memApplyAll m r.2) t
      (q.1, r.2 ++ q.2)
    else remapPending d m t

/-- A step boundary: pending logical cores are remapped (R457, R458). -/
def stepBoundary (d : Dev) (m : Mem) : Dev × List MemOp := remapPending d m (rangeFrom 0 (coresTotal d))

/-- Whether commits are enabled, COMMIT_CFG.ENABLE. -/
def commitEnabled (d : Dev) : Bool := natBit (regNat d 0x1200010) 0

/-- Every live context of a core faults, its context-end entry naming record `seq` (R457). -/
def faultAll (d : Dev) (n seq : Nat) (cs : List Nat) : Dev :=
  match cs with
  | [] => d
  | c :: t => faultAll (if ctxLive (ctxOf (coreOf d n) c) then endCtx d n c 6 9 0 seq else d) n seq t

/-- Logical core `n` is retired with record `r` (R457). A core already pending from wear has one entry (R484). -/
def retireCore (d : Dev) (m : Mem) (n : Nat) (r : RecArgs) : Dev × List MemOp :=
  let p := physOf d n
  let dup := d.boot.retired.contains p
  let d1 := if dup then d else retirePhys d p r.ev
  let d2 := postRecord d1 { r with ledger := !dup }
  let seq := lastSeq d2
  let d3 := faultAll (modCore d2 n (fun k => { k with
    ops := [], health := { k.health with mopaTry := noRetry, shadowTry := noRetry, vecTry := noRetry } })) n seq (rangeFrom 0 8)
  let d4 := modCore d3 n (fun k => { k with mapState := 1, stopped := true })
  let d5 := settleStopCmds { d4 with boot := { d4.boot with voteRetired := true } } d4.host.running
  if commitEnabled d5 then (d5, []) else stepBoundary d5 m

/-- A P-class record that retires core `n`, naming it by its logical number (R467). -/
def retireRec (n ev : Nat) (detail : List Byte) : RecArgs := { recOf ev 1 n detail with lcore := n }

/-- A second time within 24 hours (R219, R472). -/
def within24h (d : Dev) (t : Option Nat) : Bool :=
  match t with
  | some x => decide (gtimeNs d < x + 86400000000000)
  | none => false

/-- A scratchpad word corrects too often, or fails again within 24 hours, and retires its core (R219). -/
def execSpadWordFail (core word : Nat) (s : State) : Host.Outcome State Fault Refusal :=
  let k := coreOf s.dev core
  let limit := max 1 (regField s.dev (coreOff core 0x690) 0 8)
  let due := decide (limit < smapGet k.health.wordCe word 0) || k.health.failing.contains word
  finish s
    (if coreInService s.dev core && due then
      retireCore s.dev s.mem core (retireRec core 0x0442 (leBytes 4 word))
     else (s.dev, []))

/-- An uncorrectable instruction word of the fetching context is reloaded from the program image; the same word a second
time within 24 hours retires the core (R472). -/
def execIstoreReload (core index : Nat) (s : State) : Host.Outcome State Fault Refusal :=
  let d := s.dev
  let k := coreOf d core
  let c := k.cur
  finish s
    (if coreInService d core && (ctxOf k c).pc == index && ctxLive (ctxOf k c) then
      if within24h d (smapFind k.health.reloaded index) then
        retireCore d s.mem core (retireRec core 0x0341 (leBytes 2 index))
      else
        match k.image with
        | some (a, len) =>
          let w := if index < len then smapGet (imageStore s.mem (a + 16 * index) 1) 0 0#128 else 0#128
          let d1 := modCore d core (fun k => { k with
            istore := if w = 0#128 then smapDrop k.istore (fun i => i == index) else smapSet k.istore index w
            health := { k.health with reloaded := smapSet k.health.reloaded index (gtimeNs d) } })
          (postRecord d1 { retireRec core 0x0340 (leBytes 2 index) with cls := 0, ctx := c, pc := index }, [])
        | none => (d, [])
     else (d, []))

end Sys2Proof.Machine
end

