-- ==== Sys2Proof/Machine/Mtx.lean ====
section
/-! DEFINITION. MTX instructions: the matrix array, its two accumulator sets, drains, loads and retries (R36 to R56, R104
to R109, R139 to R169, R587). -/

namespace Sys2Proof.Machine

/-! ### Accumulators -/

/-- One product sum added to an integer accumulator (R48, R49). -/
def accAdd (a : AccCell) (p : Int) : AccCell :=
  match a with
  | .inf s => .inf s
  | .fp _ => .int p
  | .int v =>
    if 549755813887 < v + p then .inf false
    else if v + p < -549755813888 then .inf true
    else .int (v + p)

/-- One product added to an FP32 accumulator, rounded once (R50). -/
def accFma (acc : AccCell) (a b : W32) : AccCell :=
  match acc with
  | .fp c => .fp (fTo32 (fFma (fOf32 a) (fOf32 b) (fOf32 c)))
  | _ => .fp (fTo32 (fFma (fOf32 a) (fOf32 b) fZero))

/-- The cell at a row and a column; finite 0 where the set lists none. -/
def cellAt (s : AccSet) (i j : Nat) : AccCell :=
  smapGet s.cells (128 * i + j) (if s.tag = 2 then .fp 0#32 else .int 0)

/-- Whether a cell holds the finite 0 an unlisted one does. -/
def cellZero (tag : Nat) (c : AccCell) : Bool := c == (if tag = 2 then .fp 0#32 else .int 0)

/-- A set's cells with rows below `m` and columns below `n` given by `g`; the others kept from `old`. -/
def putCells (tag m n : Nat) (old : SMap AccCell) (g : Nat → Nat → AccCell) : SMap AccCell :=
  let inside := fun k => decide (k / 128 < m ∧ k % 128 < n)
  (rangeFrom 0 m).foldl (fun acc i =>
    (rangeFrom 0 n).foldl (fun acc j =>
      let c := g i j
      if cellZero tag c then acc else smapSet acc (128 * i + j) c) acc) (smapDrop old inside)

/-- res(x), the residue modulo 7 (R160). -/
def residue (x : Int) : Nat := (x % 7).toNat

/-- The residue that agrees with a cell: that of a finite integer, and 0 for the infinity state and for FP32 values, which
hold none (R159 to R161; assumption log 132, DEDUCED). -/
def cellRes (c : AccCell) : Nat := match c with | .int v => residue v | _ => 0

/-- Residue registers of rows below `m` and columns below `n` given by `g`; the others kept from `old`. -/
def putRes (m n : Nat) (old : SMap Nat) (g : Nat → Nat → Nat) : SMap Nat :=
  (rangeFrom 0 m).foldl (fun acc i =>
    (rangeFrom 0 n).foldl (fun acc j =>
      let r := g i j
      if r = 0 then acc else smapSet acc (128 * i + j) r) acc) (smapDrop old (fun k => decide (k / 128 < m ∧ k % 128 < n)))

/-- Whether a cell is in the infinity state, or holds an FP32 infinity or NaN: no residue comparison covers it (R161). -/
def cellOpen (c : AccCell) : Bool :=
  match c with
  | .int _ => false
  | .inf _ => true
  | .fp b => decide (0x7F800000 ≤ b.toNat % 2 ^ 31)

/-- Integers of a CB8 or CB4 book entry (R36). -/
def bookEntry (k : Core) (cb4 : Bool) (book code : Nat) : Int :=
  if cb4 then (smapGet k.cb4 (16 * book + code) 0#8).toInt else (smapGet k.cb8 (256 * book + code) 0#12).toInt

/-- Entry `c` of scale bank `b` (R39). -/
def scaleEntry (k : Core) (b c : Nat) : W32 := smapGet k.scales (128 * b + c) 0x3F800000#32

/-- The register number of a book (R38). -/
def bookReg (cb4 : Bool) (b : Nat) : Nat := if cb4 then 8 + b else b

/-- The shadow set's projected state: HELD once every outstanding drain and load is complete (R150). -/
def projectedHeld (k : Core) : Bool :=
  k.ops.foldl (fun h o =>
    if opClass o.word = 2 ∧ opCode o.word = 3 then natBit o.word.toNat 93
    else if opClass o.word = 2 ∧ opCode o.word = 4 then true else h) k.shadowHeld

/-- The issue conditions of an MTX operand in this core's scratchpad. An extent of 0 is a wrong shape, since these
instructions raise no DESC_EXTENT (R105, R108, R138; assumption log 16, DEDUCED). -/
def mtxConds (d : Dev) (n : Nat) (raw : BitVec 512) (fmt : Nat) : List Cond :=
  (descConds d n raw ownOnly [fmt]).map (fun c => if c.1 = 0x0308 then (0x030B, c.2) else c)

/-- The element format of MODE (R105). -/
def modeFmt (mode : Nat) : Nat := if mode = 0 then 2 else if mode = 1 then 3 else 1
/-- The tag of MODE. -/
def modeTag (mode : Nat) : Nat := if mode = 2 then 2 else 1
/-- The element format of FMT in MDRN and MLDS (R104). -/
def drainFmt (f : Nat) : Nat := if f = 0 then 0 else if f = 1 then 1 else 5

/-- The product of the extents of dimensions 1 to 4 (R105). -/
def outerCount (t : TDesc) : Nat := extOf t 1 * extOf t 2 * extOf t 3 * extOf t 4

/-- Whether a MOPA's shape breaks R105 or R142. -/
def mopaShapeBad (a b : TDesc) : Bool :=
  extOf a 0 == 0 || decide (128 < extOf a 0) || extOf b 0 == 0 || decide (128 < extOf b 0) ||
    outerCount a != outerCount b || decide (16777216 < outerCount a) || !packed0 a || !packed0 b

/-- One cell after a MOPA's K products, in ascending k (R48, R50, R139, R141). -/
def mopaCell (k : Core) (mode booka bookb : Nat) (va vb : Nat → Nat) (kk : Nat) (c : AccCell) : AccCell :=
  if mode = 2 then
    (rangeFrom 0 kk).foldl (fun acc i => accFma acc (wide 1 (va i)) (wide 1 (vb i))) c
  else
    let prod := fun i => bookEntry k (mode == 1) booka (va i) * bookEntry k (mode == 1) bookb (vb i)
    if mode = 0 then (rangeFrom 0 kk).foldl (fun acc i => accAdd acc (prod i)) c
    else (rangeFrom 0 ((kk + 1) / 2)).foldl (fun acc i =>
      accAdd acc (prod (2 * i) + (if 2 * i + 1 < kk then prod (2 * i + 1) else 0))) c

/-- A cell that R587 leaves unpredictable: finite or the infinity state, from a free word. -/
def freeCell (tag : Nat) (w : W64) : AccCell :=
  if tag = 2 then
    (let b := BitVec.ofNat 32 w.toNat
     .fp (if f32IsNan b then b &&& 0xFF800000#32 else b))
  else if natBit w.toNat 63 then .inf (natBit w.toNat 62)
  else .int (signedOf 40 w.toNat)

/-- RA after a MOPA's K products, from RA before it: each feeder lane forms the residues of what it looks up (R160,
R162). -/
def mopaRes (k : Core) (mode booka bookb : Nat) (va vb : Nat → Nat) (kk ra : Nat) : Nat :=
  (rangeFrom 0 kk).foldl (fun r i =>
    (r + residue (bookEntry k (mode == 1) booka (va i)) * residue (bookEntry k (mode == 1) bookb (vb i))) % 7) ra

/-- Whether a MOPA of core `k` that finds a poisoned word is incomplete, with no MOPA behind it that clears the set: what
accumulates behind it is unpredictable too (R587; assumption log 133, DEDUCED). -/
def mopaTainted (k : Core) : Bool :=
  k.ops.foldl (fun t o =>
    if opClass o.word = 2 ∧ opCode o.word = 1 then o.fault.isSome || (t && !natBit (bvBits o.word 112 4) 2) else t) false

/-- The set a MOPA starts from: cleared with ZERO (R147). -/
def mopaStart (k : Core) (mode : Nat) (zero : Bool) : AccSet :=
  if zero then { tag := modeTag mode, cells := [], res := [] } else { activeOf k with tag := modeTag mode }

/-- The active set after a MOPA (R106, R139, R147, R160, R587); `bad`: its cells are unpredictable, their residues
agreeing with them. -/
def mopaSet (d : Dev) (k : Core) (mode booka bookb : Nat) (zero bad : Bool) (m n kk : Nat) (ea eb : List (Nat × Bool)) : AccSet :=
  let tag := modeTag mode
  let start := mopaStart k mode zero
  let va := fun i q => (listGet ea (q * m + i) (0, false)).1
  let vb := fun j q => (listGet eb (q * n + j) (0, false)).1
  let cells := putCells tag m n start.cells (fun i j =>
    if bad then freeCell tag (Config.freeWord (d.free + 128 * i + j))
    else mopaCell k mode booka bookb (va i) (vb j) kk (cellAt start i j))
  let after : AccSet := { tag := tag, cells := cells, res := [] }
  { after with res := putRes m n start.res (fun i j =>
      if bad ∨ cellOpen (cellAt after i j) ∨ tag = 2 then cellRes (cellAt after i j)
      else mopaRes k mode booka bookb (va i) (vb j) kk (smapGet start.res (128 * i + j) 0)) }

/-- The cells that no comparison of a MOPA covers: those in the infinity state, or holding an FP32 infinity or NaN, once
its first accumulate cycle is done (R161). -/
def mopaSkip (d : Dev) (k : Core) (mode booka bookb : Nat) (zero : Bool) (m n kk : Nat) (ea eb : List (Nat × Bool)) : List Nat :=
  let first := mopaSet d k mode booka bookb zero false m n (min kk (if mode = 1 then 2 else 1)) ea eb
  (first.cells.filter (fun c => cellOpen c.2)).map (fun c => c.1)

/-- The effect of MOPA (R105, R106, R139 to R147, R587). -/
def execMopa (core : Nat) (f : BitVec 4) (o : BitVec 112) (errs : List MemErr) (s : State) :
    Host.Outcome State Fault Refusal :=
  let w := mkWord 2 0x01 f o
  finish s (issue s.dev core w (fun d c x =>
    let k := coreOf d core
    let mode := f.toNat % 4
    let zero := natBit f.toNat 2
    let booka := fld o 92 4
    let bookb := fld o 88 4
    let ra := descOf k (fld o 104 8)
    let rb := descOf k (fld o 96 8)
    let a := tdesc (ownSlot d) ra
    let b := tdesc (ownSlot d) rb
    let books := if mode = 2 then [] else [bookReg (mode == 1) booka, bookReg (mode == 1) bookb]
    let srcs := descGranules d core a ++ descGranules d core b
    let used := [(104, 8), (96, 8), (7, 1), (0, 6)] ++ (if mode = 2 then [] else [(92, 4), (88, 4)])
    let cur := (activeOf k).tag
    guarded ((0x0303, natBit f.toNat 3 || mode == 3 || !onlyFields o used) ::
        (0x030B, mopaShapeBad a b) ::
        (0x0124, mode == 0 && (decide (7 < booka) || decide (7 < bookb))) ::
        (0x0123, !zero && cur != 0 && cur != modeTag mode) ::
        (mtxConds d core ra (modeFmt mode) ++ mtxConds d core rb (modeFmt mode)))
      (whenReady (longReady k srcs [] && bookReady k books)
        (let r := applyErrs d s.mem errs
         let v := localView r.1 (memApplyAll s.mem r.2)
         let ea := readElems v a
         let eb := readElems v b
         let m := extOf a 0
         let n := extOf b 0
         let flt := match srcFault r.1 a ea with | some g => some g | none => srcFault r.1 b eb
         let set := mopaSet r.1 k mode booka bookb zero (flt.isSome || (!zero && mopaTainted k)) m n (outerCount a) ea eb
         let d1 := modCore r.1 core (fun k => setActive k set)
         .next (pushOp { d1 with free := d1.free + 16384 } core
           { newOp k c x.pc w srcs [] with
             booksRead := books, fault := flt, skip := mopaSkip r.1 k mode booka bookb zero m n (outerCount a) ea eb }) r.2))))

/-- MTX_STATE as the roles stand, SWAP aside (R169). -/
def mtxWord (k : Core) : Nat :=
  k.activeSet + (activeOf k).tag * 2 + (shadowOf k).tag * 8 + k.shadowHeld.toNat * 32 +
    (opBusy k 2 1).toNat * 128 + (opBusy k 2 3 || opBusy k 2 4).toNat * 256 +
    (k.health.mopaTry.op.isSome || k.health.shadowTry.op.isSome).toNat * 512

/-- The effect of MSWP (R107, R152, R153): it completes in its issue cycle, the swap cycle, in which MTX_STATE reads the
roles from before with SWAP. -/
def execMswp (core : Nat) (f : BitVec 4) (o : BitVec 112) (s : State) : Host.Outcome State Fault Refusal :=
  finish s (issue s.dev core (mkWord 2 0x02 f o) (fun d _ _ =>
    let k := coreOf d core
    guarded [(0x0303, f.toNat / 2 != 0 || !onlyFields o [(7, 1), (0, 6)])]
      (whenReady (decide (k.ops.length < 512) && !k.ops.any (fun p => opClass p.word == 2))
        (let k1 := { k with activeSet := 1 - k.activeSet, shadowHeld := true, swap := some (mtxWord k + 64) }
         let d1 := setCore d core (if natBit f.toNat 0 then setActive k1 ⟨0, [], []⟩ else k1)
         .next (match evField o with | some e => addEvent d1 core e 1 | none => d1) []))))

/-- The 64-bit image of an accumulator (R51). -/
def accImage (c : AccCell) : Nat :=
  match c with
  | .int v => wrapInt 48 v
  | .inf s => 2 ^ 48 + (if s then 2 ^ 49 else 0)
  | .fp _ => 0

/-- The accumulator an image loads (R52). -/
def imageAcc (x : Nat) : AccCell :=
  if natBit x 48 then .inf (natBit x 49) else .int (signedOf 40 x)

/-- The element a drain writes for a cell: its value times the scales, rounded once (R54, R55, R108). -/
def drainElem (fmt tag : Nat) (c : AccCell) (sr sc : Option W32) : Nat :=
  if tag = 0 then 0
  else if fmt = 5 then accImage c
  else
    let sf := fun (s : Option W32) => match s with | some w => fOf32 w | none => fOne
    let scaled := fun x => narrowTo fmt (fMul (fMul x (sf sr)) (sf sc))
    match c with
    | .int v => scaled (fOfInt v)
    | .inf g => narrowTo fmt (.inf g)
    | .fp b => if f32IsNan b then (if fmt = 1 then (fNarrow b).toNat else b.toNat) else scaled (fOf32 b)

/-- Whether element bits of FP32 (0) or BF16 (1) are an infinity. -/
def elemInf (fmt x : Nat) : Bool := if fmt = 1 then x % 0x8000 == 0x7F80 else x % 0x80000000 == 0x7F800000
/-- Whether element bits are a NaN. -/
def elemNan (fmt x : Nat) : Bool := if fmt = 1 then decide (0x7F80 < x % 0x8000) else decide (0x7F800000 < x % 0x80000000)

/-- Whether a drain's or load's shape breaks R108. -/
def drainShapeBad (t : TDesc) : Bool :=
  extOf t 0 == 0 || decide (128 < extOf t 0) || extOf t 1 == 0 || decide (128 < extOf t 1) ||
    extOf t 2 != 1 || extOf t 3 != 1 || extOf t 4 != 1

/-- The sticky flags and the count of a drain (R56, R158). -/
def drainMarks (d : Dev) (n fmt : Nat) (es : List Nat) : Dev :=
  if fmt = 5 then regBump d (coreOff n 0x604) (es.filter (fun x => natBit x 48)).length
  else
    let infs := (es.filter (elemInf fmt)).length
    let nans := (es.filter (elemNan fmt)).length
    let d1 := if infs = 0 then d else setNumStatus d n 2
    let d2 := if nans = 0 then d1 else setNumStatus d1 n 3
    regBump d2 (coreOff n 0x604) (infs + nans)

/-- The effect of MDRN (R53 to R56, R108, R154 to R158): the operation keeps the elements it will write. -/
def execMdrn (core : Nat) (f : BitVec 4) (o : BitVec 112) (s : State) : Host.Outcome State Fault Refusal :=
  let w := mkWord 2 0x03 f o
  finish s (issue s.dev core w (fun d c x =>
    let k := coreOf d core
    let fm := f.toNat % 4
    let fmt := drainFmt fm
    let scol := natBit f.toNat 2
    let srow := natBit f.toNat 3
    let sbc := fld o 99 5
    let sbr := fld o 94 5
    let raw := descOf k (fld o 104 8)
    let t := tdesc (ownSlot d) raw
    let sh := shadowOf k
    let books := if sh.tag = 0 then [] else
      (if scol then [32 + sbc] else []) ++ (if srow then [32 + sbr] else [])
    let dsts := descGranules d core t
    let used := [(104, 8), (93, 1), (7, 1), (0, 6)] ++ (if scol then [(99, 5)] else []) ++ (if srow then [(94, 5)] else [])
    guarded ((0x0303, fm == 3 || !onlyFields o used) :: (0x030B, drainShapeBad t) ::
        (0x0125, (fm == 2 && (scol || srow)) || (fm == 2 && sh.tag == 2) || (fm != 2 && sh.tag == 1 && !scol)) ::
        mtxConds d core raw fmt)
      (whenReady (longReady k [] dsts && bookReady k books && projectedHeld k)
        (let n := extOf t 0
         let es := (rangeFrom 0 (elemCount t)).map (fun e =>
           drainElem fmt sh.tag (cellAt sh (e / n) (e % n))
             (if srow then some (scaleEntry k sbr (e / n)) else none)
             (if scol then some (scaleEntry k sbc (e % n)) else none))
         .next (pushOp d core { newOp k c x.pc w [] dsts with booksRead := books, dd := raw, vals := es }) []))))

/-- The effect of MLDS (R52, R109, R155). Cells loaded from a poisoned word hold a free value (assumption log 15, DESIGN CHOICE). -/
def execMlds (core : Nat) (f : BitVec 4) (o : BitVec 112) (errs : List MemErr) (s : State) :
    Host.Outcome State Fault Refusal :=
  let w := mkWord 2 0x04 f o
  finish s (issue s.dev core w (fun d c x =>
    let k := coreOf d core
    let fm := f.toNat % 4
    let fmt := drainFmt fm
    let raw := descOf k (fld o 96 8)
    let t := tdesc (ownSlot d) raw
    let srcs := descGranules d core t
    guarded ((0x0303, f.toNat / 4 != 0 || fm == 3 || !onlyFields o [(96, 8), (7, 1), (0, 6)]) ::
        (0x030B, drainShapeBad t) :: mtxConds d core raw fmt)
      (whenReady (longReady k srcs [] && !projectedHeld k)
        (let r := applyErrs d s.mem errs
         let es := readElems (localView r.1 (memApplyAll s.mem r.2)) t
         let n := extOf t 0
         let tag := if fm = 2 then 1 else 2
         let cells := putCells tag (extOf t 1) n [] (fun i j =>
           let e := listGet es (i * n + j) (0, false)
           if e.2 then freeCell tag (Config.freeWord (r.1.free + 128 * i + j))
           else if fm = 2 then imageAcc e.1 else .fp (wide fmt e.1))
         let set : AccSet := { tag := tag, cells := cells
                               res := (cells.map (fun e => (e.1, cellRes e.2))).filter (fun e => e.2 != 0) }
         let d1 := modCore r.1 core (fun k => setShadow k set)
         .next (pushOp { d1 with free := d1.free + 16384 } core
           { newOp k c x.pc w srcs [] with fault := srcFault r.1 t es, ds := raw }) r.2))))

/-- The oldest outstanding operation of the active set's pipeline. -/
def oldestMopa (k : Core) : Option LongOp := oldestOp k (fun o => opClass o.word == 2 && opCode o.word == 1)
/-- The oldest outstanding operation of the shadow set (R75, R151). -/
def oldestShadow (k : Core) : Option LongOp :=
  oldestOp k (fun o => opClass o.word == 2 && (opCode o.word == 3 || opCode o.word == 4))

/-- The oldest MOPA completes (R75, R145). -/
def execMopaComplete (core : Nat) (s : State) : Host.Outcome State Fault Refusal :=
  finishDev s (match oldestMopa (coreOf s.dev core) with
    | some o => if arrayRuns s.dev core then completeOp s.dev core o else s.dev
    | none => s.dev)

/-- The first `rows` rows of a drain written (R154, R163). -/
def drainRows (d : Dev) (m : Mem) (o : LongOp) (rows : Nat) : List MemOp :=
  let t := tdesc (ownSlot d) o.dd
  (storeElems d m t ((o.vals.take (rows * extOf t 0)).map (fun v => (v, false)))).1

/-- The oldest shadow-set operation completes when it is an MDRN: its rows are written and counted, and the set is FREE, or
stays HELD (R56, R108, R154, R158). -/
def execMdrnComplete (core : Nat) (s : State) : Host.Outcome State Fault Refusal :=
  finish s (match oldestShadow (coreOf s.dev core) with
    | some o =>
      if opCode o.word = 3 ∧ arrayRuns s.dev core then
        let d1 := drainMarks s.dev core (drainFmt (bvBits o.word 112 2)) o.vals
        (completeOp (modCore d1 core (fun k => { k with shadowHeld := natBit o.word.toNat 93 })) core o,
         drainRows s.dev s.mem o 128)
      else (s.dev, [])
    | none => (s.dev, []))

/-- The oldest shadow-set operation completes when it is an MLDS: the set is HELD (R109, R155). -/
def execMldsComplete (core : Nat) (s : State) : Host.Outcome State Fault Refusal :=
  finishDev s (match oldestShadow (coreOf s.dev core) with
    | some o =>
      if opCode o.word = 4 ∧ arrayRuns s.dev core then
        completeOp (modCore s.dev core (fun k => { k with shadowHeld := true })) core o
      else s.dev
    | none => s.dev)

/-- DETAIL of a matrix mismatch (R469). -/
def mtxDetail (unit row col att : Nat) : List Byte := leBytes 1 unit ++ leBytes 1 row ++ leBytes 1 col ++ leBytes 1 att

/-- The operation that a mismatch of a unit concerns: 0 MOPA, 1 MDRN, 2 MLDS, 3 feeder. A MOPA that read poison is not
retried (R587). -/
def retriedOp (k : Core) (unit : Nat) : Option LongOp :=
  if unit = 0 ∨ unit = 3 then (oldestMopa k).filter (fun o => o.fault.isNone)
  else (oldestShadow k).filter (fun o => opCode o.word == unit + 2)

/-- The retry state that a unit's mismatches belong to. -/
def unitTry (h : CoreHealth) (unit : Nat) : Retry := if unit = 0 ∨ unit = 3 then h.mopaTry else h.shadowTry

/-- The same changed. -/
def putTry (h : CoreHealth) (unit : Nat) (r : Retry) : CoreHealth :=
  if unit = 0 ∨ unit = 3 then { h with mopaTry := r } else { h with shadowTry := r }

/-- The units of one mismatch that the operation compares: a cell not open, a feeder lane, or a row of the drain or load, its
column 0 (R161 to R163). -/
def comparedUnits (d : Dev) (o : LongOp) (unit : Nat) (cells : List (Nat × Nat)) : List (Nat × Nat) :=
  let rows := extOf (tdesc (ownSlot d) (if unit = 1 then o.dd else o.ds)) 1
  (cells.map (fun c => if unit = 1 ∨ unit = 2 then (c.1, 0) else c)).filter (fun c =>
    decide (c.1 < 128 ∧ c.2 < 128) &&
      (if unit = 0 then !o.skip.contains (128 * c.1 + c.2) else if unit = 3 then true else decide (c.1 < rows)))

/-- Comparisons of one cycle of the oldest operation of a unit fail at `cell` and `others`; the record names the first of them. The work
is done again, or the core retired: where a cell, a feeder lane or a drain row mismatches in a second attempt, any unit in a
third, or a cell for the MTX_CELL_LIMIT-th time (R164 to R167). An attempt counts for the oldest MOPA alone (assumption log
134, DEDUCED). -/
def execMatrixResidueMismatch (core unit : Nat) (cell : Nat × Nat) (others : List (Nat × Nat)) (s : State) :
    Host.Outcome State Fault Refusal :=
  let d := s.dev
  let k := coreOf d core
  finish s (match (if unit < 4 then retriedOp k unit else none) with
    | none => (d, [])
    | some o =>
      match comparedUnits d o unit (cell :: others) with
      | [] => (d, [])
      | (row, col) :: rest =>
        let all := (row, col) :: rest
        let t := unitTry k.health unit
        let same := t.op == some o.id
        let att := if same then t.attempt else 1
        let keys := all.map (fun c => 65536 * unit + 128 * c.1 + c.2)
        let seen := same && unit != 2 && keys.any (fun x => t.units.contains x)
        let miss := if unit = 0 then all.foldl (fun h c => smapMod h (128 * c.1 + c.2) 0 (fun x => x + 1)) k.health.cellMiss
          else k.health.cellMiss
        let limit := max 1 (regField d (coreOff core 0x610) 0 4)
        let d1 := regPutNat (coreDay d core) (coreOff core 0x60C) (row + 128 * col + 2 ^ 14 * unit + 2 ^ 16 * (att % 4))
        let d2 := modCore d1 core (fun k => { k with
          health := putTry { k.health with cellMiss := miss } unit ⟨some o.id, 0, keys ++ (if same then t.units else []), att + 1⟩ })
        if seen || decide (3 ≤ att) || (unit == 0 && all.any (fun c => decide (limit ≤ smapGet miss (128 * c.1 + c.2) 0))) then
          let ops := if unit = 1 then drainRows d s.mem o row else []
          let r := retireCore d2 (memApplyAll s.mem ops) core (retireRec core 0x0141 (mtxDetail unit row col att))
          (r.1, ops ++ r.2)
        else
          (dayBump (regBump (postRecord d2 { recOf 0x0140 0 core (mtxDetail unit row col att) with
            lcore := core, ctx := o.ctx, pc := o.pc }) (coreOff core 0x608) 1) 0 1, []))

end Sys2Proof.Machine
end

