-- ==== Sys2Proof/Machine/RegRead.lean ====
section
/-! DEFINITION. What each register reads: words that hold a value of their own, and words the state computes (R30, R91,
R169, R211, R221, R251, R272, R273, R318, R362, R398, R438, R439, R463 to R465, R486 to R488, R528 to R531, R551, R552,
R564). -/

namespace Sys2Proof.Machine

/-- The word at byte `o` of a block of bytes; 0 beyond its end. -/
def wordAt (bs : List Byte) (o : Nat) : Nat := leNat ((bs.drop o).take 4)

/-- One half of a 64-bit value. -/
def halfOf (v : Nat) (hi : Bool) : Nat := (if hi then v / 2 ^ 32 else v) % 2 ^ 32

/-- The live lag of a core (R267). -/
def liveLag (d : Dev) (b : CoreBeat) : Nat :=
  if b.kept && b.enabled then max b.lag (gtimeNs d - (beatT0 d + (b.n + 1) * beatLen d)) else 0

/-- The largest live lag and the lowest-numbered core that has it, of the cores that keep a local beat (R272). -/
def lagMax (d : Dev) : Nat × Nat :=
  ((rangeFrom 0 (coresTotal d)).foldl (fun (acc : Option (Nat × Nat)) n =>
    let b := (coreOf d n).beat
    let l := liveLag d b
    if !b.kept then acc
    else match acc with
      | some a => if a.1 < l then some (l, n) else some a
      | none => some (l, n)) none).getD (0, 0)

/-- The CRC of the beat configuration (R261). -/
def beatCheck (d : Dev) : Nat :=
  crc16 (leBytes 8 (beatT0 d) ++ leBytes 4 (beatLen d) ++ leBytes 4 (beatMin d) ++ leBytes 2 (regField d 0x200118 0 16))

/-- Bit `i` set where `p i`, for `i < k`. -/
def maskOf (k : Nat) (p : Nat → Bool) : Nat :=
  (rangeFrom 0 k).foldl (fun acc i => if p i then acc + 2 ^ i else acc) 0

/-- Contexts of a core in a state for which `p` holds, as a mask. -/
def ctxMask (k : Core) (p : Ctx → Bool) : Nat := maskOf 8 (fun c => p (ctxOf k c))

/-- The current core clock of die `i` in MHz: the lower of what R545 and R546 allow (R550). -/
def dieClock (d : Dev) (i : Nat) : Nat := min d.pwr.capClock (smapGet d.pwr.clocks i 1800)

/-- CTX_STATE_c (R91). -/
def ctxStateWord (x : Ctx) (hi : Bool) : Nat :=
  if hi then min x.hold 0xFFFFFFFF
  else x.pc % 2 ^ 14 + x.st * 2 ^ 14 + x.loops.length * 2 ^ 18 + x.calls.length * 2 ^ 21

/-- MTX_STATE (R152, R169). -/
def mtxState (k : Core) : Nat := k.swap.getD (mtxWord k)

/-- BEAT_FLAGS beside its stored SLIPS (R273). -/
def beatFlags (d : Dev) (b : CoreBeat) : Nat :=
  (b.kept && b.enabled && decide (beatT0 d + (b.n + 1) * beatLen d < gtimeNs d)).toNat +
    2 * b.slipped.toNat + 4 * b.late.toNat

/-- A computed word of core `n`'s block, at offset `o` of it. -/
def coreWord (d : Dev) (m : Mem) (n o : Nat) : Option Nat :=
  let k := coreOf d n
  let a := ageOf d (physOf d n)
  if o = 0 then some (ctxMask k (fun x => decide (1 ≤ x.st ∧ x.st ≤ 5)) + 256 * ctxMask k (fun x => x.st == 6) +
    65536 * k.ops.length)
  else if 8 ≤ o ∧ o < 0x48 then some (ctxStateWord (ctxOf k ((o - 8) / 8)) (o % 8 == 4))
  else if o = 0x600 then some (mtxState k)
  else if o = 0x640 then some ((k.ops.any (fun p => opClass p.word == 3)).toNat + 2 * k.health.vecTry.op.isSome.toNat)
  else if o = 0x68C then
    some (m.poison.filter (fun x => decide (spadBase n ≤ x ∧ x < spadBase n + 0x600000))).length
  else if o = 0x700 then some (halfOf k.beat.n false)
  else if o = 0x704 then some (halfOf k.beat.n true)
  else if o = 0x708 then some (min k.beat.lag 0xFFFFFFFF)
  else if o = 0x70C then some (min (liveLag d k.beat) 0xFFFFFFFF)
  else if o = 0x710 then some (beatFlags d k.beat + 65536 * regField d (coreOff n 0x710) 16 16)
  else if o = 0x800 then some (k.phys % 64 + 64 * (k.mapState % 4))
  else if o = 0x840 then some (wrapInt 16 a.margin + 65536 * ((a.commission + a.rise) % 65536))
  else if o = 0x844 then some (wrapInt 16 a.shift + 65536 * (a.rise % 256))
  else if o = 0x880 then some (regNat d (coreOff n 0x880) + 4 * (k.gated || d.pwr.st == 1).toNat)
  else none

/-- The bytes of a ledger entry with sequence number `i` (R452). -/
def ledgerBytes (i : Nat) (e : LedgerEntry) : List Byte :=
  let body := leBytes 4 i ++ leBytes 1 e.kind ++ leBytes 1 e.flags ++ leBytes 2 e.event ++ leBytes 8 e.unit ++
    leBytes 4 e.start ++ leBytes 4 e.opSeconds ++ leBytes 4 0
  body ++ leBytes 4 (if e.good then crc32 body else (crc32 body + 1) % 2 ^ 32)

/-- Ledger entries of lines and channels, with their numbers (R251, R452). -/
def lineEntries (d : Dev) : List LedgerEntry := d.boot.ledger.filter (fun e => e.kind == 2 || e.kind == 3)

/-- RETIRED_ENTRY (R251). -/
def retiredEntry (d : Dev) : Nat :=
  match (lineEntries d)[regField d 0x2001010 0 16]? with
  | some e => if e.kind = 3 then e.unit % 2 ^ 11 + 2 ^ 35 else e.unit % 2 ^ 35
  | none => 0

/-- A stack as it stands; a stack nothing has measured. -/
def stackOf (d : Dev) (k : Nat) : StackState :=
  smapGet d.stk k ⟨0, 0, 0, 0, 0, none, false, false, 0, 0, 0, 0, 0, 0, 0, []⟩

/-- A computed word of stack `k`'s block. -/
def stackWord (d : Dev) (k o : Nat) : Option Nat :=
  let x := stackOf d k
  if o = 0 then some (x.temp % 256 + 256 * (x.maxTemp % 256) + 2 ^ 16 * x.step + 2 ^ 18 * x.classB.toNat +
    2 ^ 19 * x.failed.toNat + 2 ^ 20 * x.ageFactor + 2 ^ 23 * (x.margin % 256))
  else if o = 0x10 then some (halfOf (maskOf 64 (fun c => x.retired.contains c)) false)
  else if o = 0x14 then some (halfOf (maskOf 64 (fun c => x.retired.contains c)) true)
  else if o = 0x18 then some (min x.passes 0xFFFFFFFF)
  else none

/-- MAX_AGE in nanoseconds (R303). -/
def maxAgeNs (d : Dev) : Nat := regField d 0x1000000 16 16 * 1000
/-- The re-send timeout in effect, in nanoseconds: never shorter than twice MAX_AGE (R331, R362). -/
def e2eTimeoutNs (d : Dev) : Nat := max (regField d 0x1100004 0 16 * 1000) (2 * maxAgeNs d)
/-- Whether `ns` of the always-on counter have passed since `t`. -/
def aonPassed (d : Dev) (t ns : Nat) : Bool := decide (t + ns ≤ d.boot.aonNs)

/-- A stream of a peer, blank where there is none. -/
def streamReset : Stream := ⟨0, false, 0, [], [], [], 0, 0⟩
/-- The stream record of a peer. -/
def streamOf (d : Dev) (peer : Nat) : Stream := smapGet d.ni.streams peer streamReset
/-- A receiver's binding in no use. -/
def rxReset : RxBind := ⟨none, 0, 0, 0, [], 0, 0, [], false, false, false, 0, 0, 0, 0⟩
/-- A sender's binding in no use. -/
def txReset : TxBind := ⟨0, 0, 0, none, 0, 0, 0, 0, 0, 0, 0, 0, false, false, 0, [], []⟩

/-- Tokens this end has granted that are outstanding (R329). -/
def tokensOut (x : Stream) : Nat :=
  x.rx.foldl (fun acc b => acc + ((b.2.limit + 2 ^ 32 - b.2.low) % 2 ^ 32 - b.2.seen.length)) 0
/-- Tokens this end holds or has spent without acknowledgement (R329). -/
def tokensHeld (x : Stream) : Nat := x.tx.foldl (fun acc b => acc + (b.2.limit + 2 ^ 32 - b.2.ack) % 2 ^ 32) 0

/-- CTX_STATUS_c (R362). -/
def ctxStatus (d : Dev) (c : Nat) : Nat :=
  match smapFind d.ni.slots c with
  | none => 0
  | some p =>
    let x := streamOf d p
    let pinned := decide (c < regField d 0x1100008 0 11) && natBit (regNat d (0x1101000 + 4 * c)) 16
    p % 65536 + 2 ^ 16 + 2 ^ 17 * pinned.toNat + 2 ^ 18 * x.flagged.toNat + 2 ^ 19 * (tokensOut x % 2 ^ 11) +
      2 ^ 30 * (tokensHeld x % 2 ^ 11) +
      2 ^ 41 * maskOf 16 (fun b => (smapGet x.rx b rxReset).coll.isSome || (smapGet x.tx b txReset).use != 0 || (smapGet x.tx b txReset).open_)

/-- Collectives that run (R344). -/
def runningColls (d : Dev) : List Coll := d.ni.colls.filter (fun c => c.phase == 1 && decide (c.kind < 16))

/-- A shard in force, if entry `t` is valid. -/
def shardOf (d : Dev) (t : Nat) : Option Shard := smapFind d.upd.shards t

/-- A computed word of shard entry `t`, at offset `o` (R381). -/
def shardWord (d : Dev) (t o : Nat) : Option Nat :=
  if o < 192 then none
  else
    let v := (shardOf d t).getD ⟨[], 0, 0, false, 0, 0, 0, [], 0#32, false, false, none, 0, false, []⟩
    some (if o = 192 then v.cur + 2 * v.other else if o = 196 then v.version % 2 ^ 32
      else if o = 200 then min v.clips 0xFFFFFFFF else if o = 204 then v.flags % 256 else 0)

/-- An optical lane at reset. -/
def laneReset : LaneState := ⟨0, 0, false, false, 0, 0, 0, 0, 0, 0, 0, 0, (0, 0), (0, 0), 0, 0, 0, none, 0, 0⟩
/-- Lane `l` of optical port `q`. -/
def optLane (d : Dev) (q l : Nat) : LaneState := smapGet d.opt.lanes (8 * q + l) laneReset
/-- A bobbin at reset; its commissioning power and bias limit are not given (assumption log 3, DESIGN CHOICE). -/
def laserReset : LaserState := ⟨0, false, false, 0, 0, 0, 0, 0, 4095, 0, 0, none, 0, none, 0⟩
/-- Bobbin `k` of engine `e`. -/
def laserOf (d : Dev) (e k : Nat) : LaserState := smapGet d.opt.lasers (8 * e + k) laserReset

/-- EOL_DB in effect (R437). -/
def eolDb (d : Dev) : Nat := max 20 (min 40 (regField d 0x3000000 24 8))
/-- SPARE_DB in effect (R437). -/
def spareDb (d : Dev) : Nat := max 5 (min (eolDb d - 5) (regField d 0x3000000 16 8))
/-- SPARE_DB_EFF of a bobbin (R488). -/
def spareEff (d : Dev) (x : LaserState) : Nat := x.spareDb.getD (spareDb d)

/-- A computed word of engine `e`'s block. -/
def engineWord (d : Dev) (e o : Nat) : Option Nat :=
  if 0x10 ≤ o ∧ o < 0x50 then
    let x := laserOf d e ((o - 0x10) / 8)
    let v := x.st + 8 * x.active.toNat + 16 * x.spareOk.toNat + 2 ^ 16 * (x.power % 2 ^ 16) + 2 ^ 32 * (x.bias % 2 ^ 12) +
      2 ^ 48 * (x.freqOfs % 2 ^ 16)
    some (halfOf v (o % 8 == 4))
  else if 0x100 ≤ o ∧ o < 0x120 then let x := laserOf d e ((o - 0x100) / 4)
    some ((if x.active then x.pcSpare else x.pc) % 2 ^ 16)
  else if 0x200 ≤ o ∧ o < 0x220 then
    let x := laserOf d e ((o - 0x200) / 4)
    some (spareEff d x % 256 + 2 ^ 16 * (x.trend % 2 ^ 16))
  else none

/-- A computed word of optical port `q`'s block. -/
def optPortWord (d : Dev) (q o : Nat) : Option Nat :=
  if o = 8 then
    let v := regField d (0x3020008 + 0x400 * q) 0 16
    some (if v = 0 then regField d 0x3000000 0 16 else v)
  else if 0x40 ≤ o ∧ o < 0xC0 then
    let x := optLane d q ((o - 0x40) / 16)
    let w0 := x.txLock + 8 * x.rxLock + 64 * (x.hopTx || x.hopRx).toNat + 2 ^ 16 * (x.txHeater % 2 ^ 16) + 2 ^ 32 * (x.rxHeater % 2 ^ 16) +
      2 ^ 48 * (x.eye % 2 ^ 16)
    let w1 := x.rxPwr % 2 ^ 16 + 2 ^ 16 * (x.txDetune % 2 ^ 16) + 2 ^ 32 * (x.rxDetune % 2 ^ 16) +
      2 ^ 48 * (min x.retries 255) + 2 ^ 56 * (min x.unlocks 255)
    some (halfOf (if o % 16 < 8 then w0 else w1) (o % 8 == 4))
  else none

/-- BURGEE_STATUS (R529). -/
def burgeeStatus (d : Dev) : Nat :=
  d.own.owner + 8 * d.own.st + 32 * d.own.successor + 2 ^ 16 * (d.own.ownerNode % 2 ^ 16)

/-- CLAIM_m (R529). -/
def claimWord (d : Dev) (m : Nat) : Nat :=
  let c := smapGet d.own.claims m (0, 0)
  2 * c.1 + 16 * c.2

/-- A word of bytes kept by offset. -/
def bytesWord (b : SMap Byte) (o : Nat) : Nat := leNat ((rangeFrom o 4).map (fun i => smapGet b i 0#8))

/-- The firmware slot running. -/
def fwSlot (d : Dev) : FwSlot := if d.own.bootSlot = 0 then d.own.slotA else d.own.slotB

/-- A computed word of the identity and global control region (R29, R30, R463, R508, R564). -/
def idWord (d : Dev) (o : Nat) : Option Nat :=
  let part := d.boot.part
  let per := coresPerDie d
  let absent := fun n => (coreOf d n).mapState == 2 && decide (n < coresTotal d)
  if o = 0 then some (0x4A58 + 65536 * part)
  else if o = 0x14 then some (per + 256 * 52 + 65536 * (4 * per) + 2 ^ 24 * ((rangeFrom 0 (coresTotal d)).filter absent).length)
  else if o = 0x18 then some (partGib part + 256 * 20 + 65536 * partBands part)
  else if 0x880 ≤ o ∧ o < 0x8A0 then
    let die := (o - 0x880) / 8
    some (halfOf (maskOf 52 (fun i => d.boot.retired.contains (52 * die + i)) + 2 ^ 52 * (freeSpares d die).length) (o % 8 == 4))
  else if 0x8A0 ≤ o ∧ o < 0x8B8 then some (halfOf (maskOf 64 (fun i => absent (64 * ((o - 0x8A0) / 8) + i))) (o % 8 == 4))
  else if 0x1000 ≤ o ∧ o < 0x1280 then some (wordAt (smapGet d.boot.pennants ((o - 0x1000) / 64) []) (o % 64))
  else if 0x2000 ≤ o ∧ o < 0x2080 then some (wordAt d.boot.applied (o - 0x2000))
  else if 0x4000 ≤ o ∧ o < 0x4400 then some (smapGet d.host.msixTable (o - 0x4000) (if o % 16 = 12 then 1#32 else 0#32)).toNat
  else if o = 0x4800 then some (halfOf (maskOf 64 (fun v => d.host.msixPending.contains v)) false)
  else if o = 0x4804 then some (halfOf (maskOf 64 (fun v => d.host.msixPending.contains v)) true)
  else if o = 0xA000 then some (d.mon.mode + 2 * d.mon.baud)
  else none

/-- A computed word of the ownership region (R529). -/
def ownWord (d : Dev) (o : Nat) : Option Nat :=
  if o = 0x100000 then some (burgeeStatus d)
  else if o = 0x100004 then some d.own.leaseLeft
  else if o = 0x100010 then some (halfOf d.own.nonce.toNat false)
  else if o = 0x100014 then some (halfOf d.own.nonce.toNat true)
  else if 0x100040 ≤ o ∧ o < 0x100060 then some (if o % 8 = 0 then claimWord d ((o - 0x100040) / 8 + 1) else 0)
  else if 0x104000 ≤ o ∧ o < 0x114000 then some (bytesWord d.own.claimBuf (o - 0x104000))
  else none

/-- A computed word of the time and beat region (R272). -/
def timeWord (d : Dev) (o : Nat) : Option Nat :=
  if o = 0x200000 then some (halfOf (gtimeNs d) false)
  else if o = 0x200004 then some (halfOf (gtimeNs d) true)
  else if o = 0x200008 then some d.tm.frac
  else if o = 0x200018 then some (d.tm.st + 4 * (d.tm.depth % 64) + 256 * (d.tm.parent % 64) + 2 ^ 14 * d.tm.root.toNat +
    2 ^ 16 * (d.tm.rootNode % 2 ^ 16))
  else if o = 0x20001C then some (wrapInt 32 d.tm.offset)
  else if o = 0x20011C then some (beatCheck d)
  else if o = 0x200128 then some (halfOf (gridBeat d (gtimeNs d)) false)
  else if o = 0x20012C then some (halfOf (gridBeat d (gtimeNs d)) true)
  else if o = 0x200130 then some (min (lagMax d).1 0xFFFFFFFF)
  else if o = 0x200134 then some (lagMax d).2
  else none

/-- A computed word of the network die region (R318, R362, R381, R398). -/
def netWord (d : Dev) (o : Nat) : Option Nat :=
  let bank := regField d 0x1000008 0 1
  if 0x1002000 ≤ o ∧ o < 0x1004000 then some (natBits d.fab.members (8 * (o - 0x1002000)) 32)
  else if 0x1004000 ≤ o ∧ o < 0x1005000 then some (smapGet d.fab.racks (1024 * bank + (o - 0x1004000) / 4) 0#32).toNat
  else if 0x1005000 ≤ o ∧ o < 0x1005200 then
    some (halfOf (smapGet d.fab.locals (64 * bank + (o - 0x1005000) / 8) 0#64).toNat (o % 8 == 4))
  else if 0x1006000 ≤ o ∧ o < 0x1006800 then some (wordAt d.fab.lastMap (o - 0x1006000))
  else if o = 0x1100010 then
    some (d.ni.slots.length % 2 ^ 13 + 2 ^ 13 * (runningColls d).length + 2 ^ 20 * regField d 0x1100010 20 1)
  else if 0x1108000 ≤ o ∧ o < 0x1110000 then some (halfOf (ctxStatus d ((o - 0x1108000) / 8)) (o % 8 == 4))
  else if o = 0x1200000 then some (regField d 0x1200000 0 16 + 65536 * maskOf 16 (fun e => (smapFind d.upd.running e).isSome))
  else if 0x1240000 ≤ o ∧ o < 0x1340000 then shardWord d ((o - 0x1240000) / 256) (o % 256)
  else none

/-- A computed word of the memory and stack region (R251). -/
def memWord (d : Dev) (o : Nat) : Option Nat :=
  if 0x2000400 ≤ o ∧ o < 0x2000680 then stackWord d ((o - 0x2000400) / 0x20) ((o - 0x2000400) % 0x20)
  else if o = 0x2001004 then some d.mm.pendingAck.length
  else if o = 0x2001008 then some ((lineEntries d).length % 2 ^ 16 + 2 ^ 16 * regField d 0x2001008 16 16)
  else if o = 0x2001018 then some (halfOf (retiredEntry d) false)
  else if o = 0x200101C then some (halfOf (retiredEntry d) true)
  else none

/-- A computed word of the power region (R551). -/
def pwrWord (d : Dev) (o : Nat) : Option Nat :=
  if o = 0x3800004 then
    some (d.pwr.st + 4 * d.pwr.entering.toNat + 8 * d.pwr.latched.toNat + 16 * (d.pwr.lastWake % 8))
  else if 0x3800080 ≤ o ∧ o < 0x3800090 then
    let i := (o - 0x3800080) / 4
    some (regField d o 8 8 * 256 + smapGet d.pwr.temps i 0 % 256 + 2 ^ 16 * (dieClock d i % 2 ^ 12) +
      2 ^ 28 * (smapGet d.pwr.throttled i false).toNat)
  else none

/-- A computed word of the security region (R524, R525, R530). -/
def secWord (d : Dev) (o : Nat) : Option Nat :=
  if o = 0x3C00000 then some d.own.bootSlot
  else if o = 0x3C00004 then some ((fwSlot d).version % 2 ^ 32)
  else if o = 0x3C00008 then some ((fwSlot d).svn % 2 ^ 32)
  else if o = 0x3C00028 then some (2 * d.own.fwUpd)
  else if o = 0x3C00048 then some (2 * d.own.keyUpd)
  else if o = 0x3C00060 then some (d.own.log.length + 2 ^ 11 * (decide (1024 ≤ d.own.log.length)).toNat)
  else if o = 0x3C00078 then some (2 * d.own.varUpd)
  else if 0x3C00080 ≤ o ∧ o < 0x3C000C0 then some (wordAt d.own.logAcc (o - 0x3C00080))
  else if 0x3C01000 ≤ o ∧ o < 0x3C03800 then some (bytesWord d.own.keys (o - 0x3C01000))
  else if 0x3C04000 ≤ o ∧ o < 0x3C0C000 then
    some (if o % 0x2000 = 0x24 then smapGet d.own.attestSt ((o - 0x3C04000) / 0x2000 + 1) 0 else bytesWord d.own.attest (o - 0x3C04000))
  else if 0x3C10000 ≤ o ∧ o < 0x3C30000 then some (wordAt (smapGet d.own.log ((o - 0x3C10000) / 128) []) (o % 128))
  else if 0x3C40000 ≤ o ∧ o < 0x3C50000 then some (bytesWord d.own.cert (o - 0x3C40000))
  else none

/-- A computed word of the fault records and telemetry region (R465, R471, R486). -/
def telWord (d : Dev) (o : Nat) : Option Nat :=
  if o = 0x3E04000 then
    some (d.boot.ledger.length + 2 ^ 14 * (decide (8192 ≤ d.boot.ledger.length)).toNat +
      2 ^ 15 * (d.boot.ledger.any (fun e => !e.good)).toNat)
  else if 0x3E04020 ≤ o ∧ o < 0x3E04040 then
    let i := regField d 0x3E04004 0 13
    some (match d.boot.ledger[i]? with | some e => wordAt (ledgerBytes i e) (o - 0x3E04020) | none => 0)
  else if o = 0x3E08004 then some (d.boot.opSeconds / 86400 % 2 ^ 32)
  else if 0x3E09000 ≤ o ∧ o < 0x3E0A000 then
    some (wordAt ((d.boot.ageLog[regField d 0x3E08008 0 12]?).getD []) (o - 0x3E09000))
  else if 0x3E10000 ≤ o ∧ o < 0x3E14000 then
    some (wordAt (smapGet d.rcd.log ((o - 0x3E10000) / 64) []) (o % 64))
  else none

/-- A word the state computes, where the word at `off` is one. -/
def computedWord (d : Dev) (m : Mem) (off : Nat) : Option Nat :=
  match bar0Region off with
  | 0 => idWord d off
  | 1 => ownWord d off
  | 2 => timeWord d off
  | 3 => if (off - coreBase) / 0x1000 < coresTotal d then coreWord d m ((off - coreBase) / 0x1000) ((off - coreBase) % 0x1000) else some 0
  | 4 => netWord d off
  | 5 => memWord d off
  | 6 => if 0x3010000 ≤ off ∧ off < 0x3018000 then engineWord d ((off - 0x3010000) / 0x1000) (off % 0x1000)
         else if 0x3020000 ≤ off ∧ off < 0x3028000 then optPortWord d ((off - 0x3020000) / 0x400) (off % 0x400) else none
  | 7 => pwrWord d off
  | 8 => secWord d off
  | _ => telWord d off

/-- The 32-bit word a read at an aligned BAR0 offset returns: an offset no chapter defines reads 0 (R30). Reading it so
clears no RC field (R6, R21). -/
def peekReg (d : Dev) (m : Mem) (off : Nat) : W32 :=
  match computedWord d m off with
  | some v => BitVec.ofNat 32 v
  | none => if (regRow off).isSome then regGet d off else 0#32

/-- The same of 4 or 8 bytes. -/
def peekWidth (d : Dev) (m : Mem) (off width : Nat) : Nat :=
  if width = 8 then (peekReg d m off).toNat + 2 ^ 32 * (peekReg d m (off + 4)).toNat else (peekReg d m off).toNat

/-- Bytes of the register mirror (R21). -/
def mirrorView (d : Dev) (m : Mem) : ByteView :=
  ⟨fun a => let o := a - 0x3F000000000
            BitVec.ofNat 8 ((peekReg d m (o / 4 * 4)).toNat >>> (8 * (o % 4))),
   fun _ => false⟩

end Sys2Proof.Machine
end

