-- ==== Sys2Proof/Machine/Own.lean ====
section
/-! DEFINITION. The burgee: who may write, what a dropped write counts, and how ownership changes (R10, R489 to R500). -/

namespace Sys2Proof.Machine

/-- A write dropped under R10, of master `m`, to BAR0 offset `off` (0 for BAR2) (R499). -/
def dropWrite (d : Dev) (m off : Nat) : Dev :=
  let d1 := regBump d 0x100080 1
  let d2 := if 1 ≤ m ∧ m ≤ 4 then regBump d1 (0x100084 + 4 * (m - 1)) 1 else d1
  regPutNat d2 0x100098 (m % 8 + off % 2 ^ 26 * 64)

/-- Whether master `m` owns the device now (R492, R499). -/
def isOwner (d : Dev) (m : Nat) : Bool := d.own.st == 1 && d.own.owner == m && m != 0

/-- A write by `m`, dropped and counted unless `m` is the owner (R499). -/
def asOwner (d : Dev) (m off : Nat) (go : Dev) : Dev := if isOwner d m then go else dropWrite d m off

/-- BURGEE_STATUS.OWNER or STATE changes: vector 1 (R508), the monitor's line (R562), and, where the owner changes, the
host queues fetch nothing more because they ask who the owner is (R511). -/
def burgeeSet (d : Dev) (owner st : Nat) : Dev :=
  if d.own.owner = owner ∧ d.own.st = st then d
  else monSay (raiseVector { d with own := { d.own with owner := owner, st := st } } 1)
    [.txt "!O", .dec owner, .dec st]

/-- The burgee becomes VACANT (R496 to R498). -/
def burgeeVacate (d : Dev) : Dev :=
  burgeeSet { d with own := { d.own with successor := 0, succNode := 0, ownerNode := 0, leaseLeft := 0 } } 0 0

/-- The lease in effect, LEASE_CFG held to 100 to 60,000 (R529). -/
def leaseMs (d : Dev) : Nat := max 100 (min 60000 (regField d 0x100008 0 16))

/-- A measurement extends LOG_ACC and, while fewer than 1,024 are stored, joins the log (R524). -/
def measure (d : Dev) (kind : Nat) (digest info : List Byte) : Dev :=
  let dg := padTo 64 digest
  let n := d.own.logCount
  let time := if d.tm.st = 2 then gtimeNs d else 0
  let entry := leBytes 4 n ++ leBytes 1 kind ++ leBytes 3 0 ++ leBytes 8 time ++ dg ++ padTo 48 info
  { d with own := { d.own with
      logAcc := padTo 64 (Config.shake256 (padTo 64 d.own.logAcc ++ dg))
      logCount := n + 1
      log := if d.own.log.length < 1024 then smapSet d.own.log n entry else d.own.log } }

/-- The host loses or leaves its port (R498, R505). -/
def hostVacates (d : Dev) : Dev := if d.own.st = 1 ∧ d.own.owner = 1 then burgeeVacate d else d

/-- Whether a stage context of any core is started and neither halted nor faulted. -/
def anyLive (d : Dev) : Bool :=
  (rangeFrom 0 (coresTotal d)).any (fun n => (rangeFrom 0 8).any (fun c => ctxLive (ctxOf (coreOf d n) c)))

end Sys2Proof.Machine
end

