-- ==== Sys2Proof/Machine/UpdCore.lean ====
section
/-! DEFINITION. Shard entries, program images and buckets, and how a bucket moves from state to state (R363 to R373,
R381, R388, R398). -/

namespace Sys2Proof.Machine

/-! ### A command's work in progress -/

/-- The device and memory as a command has left them so far, and the changes of memory it has made. -/
structure Work where
  dev : Dev
  mem : Mem
  ops : List MemOp

/-- The start of a command's work. -/
def workOf (s : State) : Work := ⟨s.dev, s.mem, []⟩
/-- Memory changed. -/
def wMem (w : Work) (ops : List MemOp) : Work := { dev := w.dev, mem := memApplyAll w.mem ops, ops := w.ops ++ ops }
/-- The device changed. -/
def wDev (w : Work) (g : Dev → Dev) : Work := { w with dev := g w.dev }
/-- Device and memory changed together. -/
def wBoth (w : Work) (g : Dev → Mem → Dev × List MemOp) : Work :=
  let r := g w.dev w.mem
  wMem { w with dev := r.1 } r.2
/-- The work's result. -/
def wOut (w : Work) : Dev × List MemOp := (w.dev, w.ops)
/-- Errors that the network die's reads meet (R217, R237, R240). -/
def wErrs (errs : List MemErr) (w : Work) : Work := wBoth w (fun d m => portErrs d m errs)
/-- A record written. -/
def wRec (w : Work) (r : RecArgs) : Work := wDev w (fun d => postRecord d r)

/-! ### Shard entries (R381) -/

/-- `k` bytes at `o` of an entry or image, as a number. -/
def bytesNat (bs : List Byte) (o k : Nat) : Nat := leNat ((bs.drop o).take k)
/-- A field of a shard entry. -/
def shN (x : Shard) (o k : Nat) : Nat := bytesNat x.entry o k
/-- KIND: 1 UPDATE, 2 VIEW, 3 SPARSE. -/
def shKind (x : Shard) : Nat := shN x 0 1 % 4
/-- ACTIVE -/
def shActive (x : Shard) : Bool := natBit (shN x 0 1) 2
/-- ORDERED -/
def shOrdered (x : Shard) : Bool := natBit (shN x 0 1) 3
/-- PROGRAM -/
def shProg (x : Shard) : Nat := shN x 1 1
/-- ELEMS -/
def shElems (x : Shard) : Nat := shN x 4 4
/-- ROW_LEN -/
def shRowLen (x : Shard) : Nat := shN x 8 4
/-- Rows of the shard. -/
def shRows (x : Shard) : Nat := shElems x / max 1 (shRowLen x)
/-- BUCKET_FIRST -/
def shFirst (x : Shard) : Nat := shN x 12 2 % 4096
/-- BUCKET_COUNT -/
def shBuckets (x : Shard) : Nat := shN x 14 1
/-- The shard's bucket slots. -/
def shSlots (x : Shard) : List Nat := rangeFrom (shFirst x) (shBuckets x)
/-- BASE0 (`r` 0) or BASE1 of stream `i`: IN0 to IN3, then OUT0 to OUT3. -/
def shBase (x : Shard) (i r : Nat) : Nat := natBits (shN x (32 + 16 * i) 16) (42 * r) 42
/-- EXPECTED (R364). -/
def shExpected (x : Shard) : Nat := shN x 16 4 * shN x 15 1

/-- A shard in force changed. -/
def modShard (d : Dev) (t : Nat) (g : Shard → Shard) : Dev :=
  match shardOf d t with
  | some x => { d with upd := { d.upd with shards := smapSet d.upd.shards t (g x) } }
  | none => d

/-! ### Program images (R373, R374) -/

/-- The validated image in slot `p`, empty where there is none. -/
def progOf (d : Dev) (p : Nat) : List Byte := smapGet d.upd.progs p []
/-- NINSTR -/
def pgCount (b : List Byte) : Nat := bytesNat b 0 1
/-- PASS2 -/
def pgPass2 (b : List Byte) : Nat := bytesNat b 1 1
/-- K0 to K7 -/
def pgConst (b : List Byte) (i : Nat) : W32 := BitVec.ofNat 32 (bytesNat b (8 + 4 * i) 4)
/-- KIND of IN_i. -/
def pgInKind (b : List Byte) (i : Nat) : Nat := bytesNat b (40 + i) 1 % 8
/-- FMT of IN_i. -/
def pgInFmt (b : List Byte) (i : Nat) : Nat := bytesNat b (40 + i) 1 / 16
/-- KIND of OUT_i: 1 ELEM, 2 ROWSUM, 3 COLSUM, 4 ROWMAX. -/
def pgOutKind (b : List Byte) (i : Nat) : Nat := bytesNat b (44 + i) 1 % 8
/-- FMT of OUT_i. -/
def pgOutFmt (b : List Byte) (i : Nat) : Nat := bytesNat b (44 + i) 1 / 16
/-- INSTR_k -/
def pgInstr (b : List Byte) (k : Nat) : Nat := bytesNat b (96 + 4 * k) 4
/-- Whether some instruction has operation `op` and passes `p` on its X field. -/
def pgUses (b : List Byte) (op : Nat) (p : Nat → Bool) : Bool :=
  (rangeFrom 0 (pgCount b)).any (fun k => natBits (pgInstr b k) 27 5 == op && p (natBits (pgInstr b k) 0 12))
/-- Whether the program writes an output stream of one of these kinds (R372). -/
def pgWrites (b : List Byte) (kinds : List Nat) : Bool := pgUses b 0x0F (fun x => kinds.contains (pgOutKind b (x % 4)))
/-- Whether the program writes a stream that is folded (R366, R372). -/
def pgFolds (b : List Byte) : Bool := pgWrites b [2, 3, 4]
/-- Whether the program has an exchange: it writes a COLSUM stream or reads XSUM (R372, R382). -/
def pgExchanges (b : List Byte) : Bool := pgWrites b [3] || pgUses b 0x0E (fun x => x == 12)

/-! ### Buckets (R364 to R372) -/

/-- BUCKET_s (R398). -/
def bktOff (s : Nat) : Nat := 0x1220000 + 8 * s
/-- A field of BUCKET_s. -/
def bktGet (d : Dev) (s lo w : Nat) : Nat := natBits (regNat64 d (bktOff s)) lo w
/-- A field of BUCKET_s set. -/
def bktSet (d : Dev) (s lo w v : Nat) : Dev := regPut64 d (bktOff s) (natPut (regNat64 d (bktOff s)) lo w v)
/-- STATE: 0 IDLE, 1 OPEN, 2 FULL, 3 WAIT_X, 4 PASS2, 5 DONE (R366). -/
def bktState (d : Dev) (s : Nat) : Nat := bktGet d s 0 3
/-- POISON -/
def bktPoison (d : Dev) (s : Nat) : Bool := bktGet d s 3 1 == 1
/-- SHARD: the entry that owns the slot. -/
def bktShard (d : Dev) (s : Nat) : Nat := bktGet d s 4 12
/-- Address of bucket slot `s` in the accumulation store. -/
def bktBase (s : Nat) : Nat := 0x21000000000 + s * 0x8000

/-- Writes that zero `k` bytes of memory. -/
def zeroRange (m : Mem) (lo k : Nat) : List MemOp :=
  if m.undef.any (fun u => decide (u.lo < lo + k ∧ lo < u.hi)) then wrBytes lo (List.replicate k 0#8)
  else (m.cells.filter (fun c => decide (lo ≤ c.1 ∧ c.1 < lo + k))).map (fun c => MemOp.wr c.1 0#8)

/-- An abort code that applies in this step (R391). -/
def addCode (d : Dev) (c : Nat) : Dev := { d with upd := { d.upd with codes := keyInsert d.upd.codes c } }

/-- The program of the shard that owns bucket `s`. -/
def bktProg (d : Dev) (s : Nat) : List Byte :=
  match shardOf d (bktShard d s) with
  | some x => progOf d (shProg x)
  | none => []

/-- A bucket joins the engine queue (R371). -/
def bktQueue (d : Dev) (s : Nat) : Dev := { d with upd := { d.upd with queue := d.upd.queue ++ [s] } }

/-- The last pass of a bucket has completed: its slot is zeroed, which clears POISON, and with the shard's last bucket OTHER becomes BUILT
(R366, R388). -/
def bktDone (w : Work) (s : Nat) : Work :=
  let w1 := wMem (wDev w (fun d => bktSet (bktSet d s 0 3 5) s 3 1 0)) (zeroRange w.mem (bktBase s) 0x8000)
  let t := bktShard w1.dev s
  match shardOf w1.dev t with
  | some x =>
    if (shSlots x).all (fun q => bktState w1.dev q == 5) then
      wDev w1 (fun d => modShard d t (fun x => { x with other := 2, held := false }))
    else w1
  | none => w1

/-- A bucket becomes PASS2 and joins the queue; a POISON bucket's pass is not run (R370, R371). -/
def bktPass2 (w : Work) (s : Nat) : Work :=
  let w1 := wDev w (fun d => bktSet d s 0 3 4)
  if bktPoison w1.dev s then bktDone w1 s else wDev w1 (fun d => bktQueue d s)

/-- A bucket's first pass, of program `b`, has ended (R372). -/
def bktPass1Done (w : Work) (s : Nat) (b : List Byte) : Work :=
  if pgFolds b then wDev w (fun d => bktSet d s 0 3 3)
  else if pgPass2 b != 0 then bktPass2 w s
  else bktDone w s

/-- A bucket becomes FULL and joins the queue; a POISON bucket moves on without its pass (R366, R370). -/
def bktFull (w : Work) (s : Nat) : Work :=
  let w1 := wDev w (fun d => bktSet d s 0 3 2)
  if bktPoison w1.dev s then bktPass1Done w1 s (bktProg w1.dev s) else wDev w1 (fun d => bktQueue d s)

/-- One contribution to a bucket counts (R364 to R366). -/
def bktArrive (w : Work) (s : Nat) : Work :=
  let n := bktGet w.dev s 16 24 + 1
  let w1 := wDev w (fun d => bktSet d s 16 24 n)
  if bktState w1.dev s = 1 ∧ n = bktGet w1.dev s 40 24 then bktFull w1 s else w1

/-- DETAIL of an update or commit record (R469). -/
def updDetail (t slot bit rank : Nat) : List Byte :=
  leBytes 2 t ++ leBytes 2 slot ++ leBytes 1 bit ++ leBytes 1 0 ++ leBytes 2 rank

/-- A bucket becomes POISON with its record, and the step's vote carries the code (R370, R391). -/
def bktTaint (w : Work) (s : Nat) : Work :=
  if bktPoison w.dev s then w
  else wRec (wDev w (fun d => addCode (bktSet d s 3 1 1) 3)) (recOf 0x0C42 0 0xFF (updDetail (bktShard w.dev s) s 0 0))

/-- Elements of the shard in its `b`-th bucket. -/
def bktElems (x : Shard) (b : Nat) : Nat := min 8192 (shElems x - 8192 * b)

/-- A value added to element `e` of a shard's buckets, in FP32 (R65, R367). -/
def bktAdd (w : Work) (x : Shard) (e : Nat) (v : W32) : Work :=
  let a := bktBase (shFirst x + e / 8192) + 4 * (e % 8192)
  let old := BitVec.ofNat 32 (leNat (memBytes w.mem a 4))
  wMem w (wrBytes a (leBytes 4 (f32Add old v).toNat))

/-- Values added from element `e` on. -/
def bktAddAll (w : Work) (x : Shard) (e : Nat) (vs : List W32) : Work :=
  match vs with
  | [] => w
  | v :: t => bktAddAll (bktAdd w x e v) x (e + 1) t

/-- A bucket reopens after a commit or an abort (R366). -/
def bktReopen (w : Work) (s : Nat) : Work :=
  if bktState w.dev s = 0 then w
  else wMem (wDev w (fun d => bktSet (bktSet (bktSet d s 0 3 1) s 3 1 0) s 16 24 0)) (zeroRange w.mem (bktBase s) 0x8000)

/-- The bucket slots of every valid shard. -/
def allSlots (d : Dev) : List Nat :=
  d.upd.shards.flatMap (fun x => if shKind x.2 = 2 then [] else shSlots x.2)

/-- Every bucket that is not IDLE reopens, and no pass is queued or running. -/
def bktReopenAll (w : Work) : Work :=
  (allSlots w.dev).foldl bktReopen (wDev w (fun d => { d with upd := { d.upd with queue := [], running := [], image := [], attempt := [], badLanes := [] } }))

end Sys2Proof.Machine
end

