-- ==== Sys2Proof/Machine/StreamCore.lean ====
section
/-! DEFINITION. Streams, bindings and the state of collectives: sequence numbers, what each member waits for, and how a
part that fails ends (R319 to R334, R346, R352). -/

namespace Sys2Proof.Machine

/-! ### Sequence numbers (R326) -/

/-- How far `b` lies after `a`, modulo 2^32. -/
def seqDist (a b : Nat) : Nat := (b + 2 ^ 32 - a) % 2 ^ 32
/-- Whether `b` is newer than `a`: one of the 2^31 - 1 numbers after it. -/
def seqNewer (a b : Nat) : Bool := decide (1 ≤ seqDist a b ∧ seqDist a b < 2 ^ 31)
/-- A sequence number `k` further on. -/
def seqAdd (a k : Nat) : Nat := (a + k) % 2 ^ 32

/-! ### Streams -/

/-- The stream of a peer changed. -/
def modStream (d : Dev) (peer : Nat) (g : Stream → Stream) : Dev :=
  { d with ni := { d.ni with streams := smapSet d.ni.streams peer (g (streamOf d peer)) } }
/-- The receiver's side of a binding. -/
def rxOf (d : Dev) (peer b : Nat) : RxBind := smapGet (streamOf d peer).rx b rxReset
/-- The sender's side of a binding. -/
def txOf (d : Dev) (peer b : Nat) : TxBind := smapGet (streamOf d peer).tx b txReset
/-- The receiver's side changed. -/
def modRx (d : Dev) (peer b : Nat) (g : RxBind → RxBind) : Dev :=
  modStream d peer (fun x => { x with rx := smapMod x.rx b rxReset g })
/-- The sender's side changed. -/
def modTx (d : Dev) (peer b : Nat) (g : TxBind → TxBind) : Dev :=
  modStream d peer (fun x => { x with tx := smapMod x.tx b txReset g })
/-- The slot a peer's stream is resident in. -/
def slotOf (d : Dev) (peer : Nat) : Option Nat := (d.ni.slots.find? (fun e => e.2 == peer)).map (fun e => e.1)
/-- Peers whose streams are resident. -/
def residents (d : Dev) : List Nat := d.ni.slots.map (fun e => e.2)
/-- Tokens of one receiving binding that are outstanding (R329). -/
def rxOut (b : RxBind) : Nat := seqDist b.low b.limit - b.seen.length
/-- The stream is active now (R321, R322). -/
def touchStream (d : Dev) (peer : Nat) : Dev := modStream d peer (fun x => { x with active := gtimeNs d })

/-- The outstanding tokens of a receiving binding are written off (R329). -/
def writeOff (d : Dev) (peer b : Nat) : Dev :=
  modRx (regBump d 0x1100030 (rxOut (rxOf d peer b))) peer b (fun x => { x with low := x.limit, seen := [] })

/-! ### The layout epoch (R350) -/

/-- LAYOUT_EPOCH.EPOCH -/
def epochNow (d : Dev) : Nat := regField d 0x110000C 0 16
/-- LAYOUT_EPOCH.DRAINING -/
def draining (d : Dev) : Bool := natBit (regNat d 0x110000C) 16
/-- Whether an epoch is older than LAYOUT_EPOCH, or than the epoch a draining device moves to. -/
def epochOld (d : Dev) (e : Nat) : Bool :=
  let x := ((epochNow d + (draining d).toNat) + 2 ^ 16 - e) % 2 ^ 16
  decide (1 ≤ x ∧ x ≤ 32767)

/-! ### Collectives -/

/-- CSEND and CRECV. -/
def isMessage (k : Nat) : Bool := k == 8 || k == 9
/-- A collective by its number. -/
def collFind (d : Dev) (n : Nat) : Option Coll := d.ni.colls.find? (fun c => c.num == n)
/-- A collective changed. -/
def modColl (d : Dev) (n : Nat) (g : Coll → Coll) : Dev :=
  { d with ni := { d.ni with colls := d.ni.colls.map (fun c => if c.num = n then g c else c) } }
/-- The running collective a COLL_ID names, messages apart (R344). -/
def collById (d : Dev) (id : Nat) : Option Coll :=
  d.ni.colls.find? (fun c => c.phase == 1 && c.id == id && !isMessage c.kind)
/-- The node of rank `r`. -/
def rankNode (c : Coll) (r : Nat) : Nat := listGet c.group r 0
/-- The rank of a node. -/
def nodeRank (c : Coll) (node : Nat) : Option Nat := c.group.findIdx? (fun x => x == node)
/-- Every rank. -/
def allRanks (c : Coll) : List Nat := rangeFrom 0 c.size
/-- Every rank but this device's own. -/
def otherRanks (c : Coll) : List Nat := (allRanks c).filter (fun r => r != c.rank)

/-! The tree of R352. -/

/-- The rank offset of rank `r` from the root. -/
def treeOff (c : Coll) (r : Nat) : Nat := (r + c.size - c.root) % max 1 c.size
/-- The rank at a tree offset. -/
def treeRank (c : Coll) (o : Nat) : Nat := (o + c.root) % max 1 c.size
/-- The ranks below a rank in the tree. -/
def treeKids (c : Coll) (r : Nat) : List Nat :=
  let o := treeOff c r
  ((rangeFrom (c.fan * o + 1) c.fan).filter (fun x => decide (x < c.size))).map (treeRank c)
/-- The rank above a rank in the tree, itself at the root. -/
def treeParent (c : Coll) (r : Nat) : Nat :=
  let o := treeOff c r
  if o = 0 then r else treeRank c ((o - 1) / max 1 c.fan)
/-- Whether this device is the root. -/
def isRoot (c : Coll) : Bool := c.rank == c.root
/-- Kinds that run on a tree: CMCST, CRED, CBAR, the vote and an exchange. -/
def isTree (k : Nat) : Bool := k == 5 || k == 6 || k == 7 || k == 16 || k == 17

/-- Whether a collective has nothing left to wait for (R77, and the table of "What each collective does"). -/
def collDone (c : Coll) : Bool :=
  let all := fun (l : List Nat) => (allRanks c).all (fun r => l.contains r)
  if c.kind = 1 then all c.got
  else if c.kind = 2 then all c.sent
  else if c.kind = 3 then all c.sent && all c.got
  else if c.kind = 4 then c.sent.contains c.root && !c.got.isEmpty
  else if c.kind = 5 then c.got.contains c.rank && c.kids.all (fun k => c.kidsDone.contains k)
  else if c.kind = 8 then c.sent.contains 1
  else if c.kind = 9 then c.got.contains 1
  else c.released

/-- Whether a failure of rank `r` leaves a part of the destination without its data (R347). -/
def partLost (c : Coll) (r : Nat) : Bool :=
  if c.kind = 4 then decide (r = c.parent ∨ r = c.rank) && c.got.isEmpty
  else if c.kind = 5 then !isRoot c && !c.got.contains c.rank
  else if c.kind = 6 then !c.released
  else !c.got.contains r

/-- The ranks above this one in its tree, up to the root. -/
def treeAbove (c : Coll) (r fuel : Nat) : List Nat :=
  match fuel with
  | 0 => []
  | fuel + 1 => if treeParent c r = r then [] else treeParent c r :: treeAbove c (treeParent c r) fuel
/-- A rank and those below it in the tree. -/
def treeBelow (c : Coll) (r : Nat) : List Nat :=
  (allRanks c).filter (fun q => q == r || (treeAbove c q c.size).contains r)

/-- A status that affects some ranks and ends nothing (R346). -/
def markColl (c : Coll) (code : Nat) (rs : List Nat) : Coll :=
  { c with status := max c.status code, bad := rs.foldl keyInsert c.bad }

/-- A multicast without rank `r` (R346, R352; assumption log 143, DEDUCED). A child lost takes those below it along and the other children
go on; a parent lost before the message is here ends the node with all below it. -/
def castFail (c : Coll) (r code : Nat) : Coll :=
  if c.kids.contains r && !c.kidsDone.contains r then
    { markColl c code (treeBelow c r) with kids := c.kids.filter (fun k => k != r) }
  else if r == c.parent && !isRoot c && !c.got.contains c.rank then
    { markColl c code (r :: treeBelow c c.rank) with
      lost := keyInsert c.lost c.rank, got := keyInsert c.got c.rank, kids := [], parent := c.rank }
  else { markColl c code [r] with sent := keyInsert c.sent r }

/-- A reduction or a barrier without rank `r`: it ends as a whole, unless its result is already here (R346). -/
def treeFail (c : Coll) (r code : Nat) : Coll :=
  let c1 := { markColl c code (if c.kids.contains r then treeBelow c r else [r]) with
    lost := if partLost c r then keyInsert c.lost r else c.lost
    sent := keyInsert c.sent r, got := keyInsert c.got r }
  if c.released then c1
  else { c1 with released := true, got := keyInsert c1.got c.rank, kids := [], parent := c.rank }

/-- A rank's part fails with a status: nothing more is awaited of it (R346, R347). -/
def failPart (c : Coll) (r code : Nat) : Coll :=
  if c.kind = 5 then castFail c r code
  else if isTree c.kind then treeFail c r code
  else
    { markColl c code [r] with
      lost := if partLost c r then keyInsert c.lost r else c.lost
      sent := if c.kind = 4 ∧ r ≠ c.root then c.sent else keyInsert c.sent r
      got := if c.kind = 4 ∧ r ≠ c.parent ∧ r ≠ c.rank then c.got else keyInsert c.got r }

/-- A rank's part of a collective of this device fails with a status. -/
def failRank (d : Dev) (n r code : Nat) : Dev := modColl d n (fun c => failPart c r code)

/-- A rank's part arrived or left poisoned: the status, and nothing else, says so (R360). -/
def markRank (d : Dev) (n r code : Nat) : Dev := modColl d n (fun c => markColl c code [r])

/-- Several parts fail. -/
def failRanks (d : Dev) (n code : Nat) (rs : List Nat) : Dev := rs.foldl (fun e r => failRank e n r code) d

/-- Ranks of a collective that are still awaited at this device. -/
def ranksMissing (c : Coll) : List Nat :=
  if c.kind = 1 then (allRanks c).filter (fun r => !c.got.contains r)
  else if c.kind = 2 then (allRanks c).filter (fun r => !c.sent.contains r)
  else if c.kind = 3 then (allRanks c).filter (fun r => !c.got.contains r || !c.sent.contains r)
  else if c.kind = 4 then
    (if c.sent.contains c.root then [] else [c.root]) ++ (if c.got.isEmpty then [c.rank] else [])
  else if c.kind = 8 ∨ c.kind = 9 then [1]
  else if c.kind = 5 then
    (if c.got.contains c.rank then [] else [c.parent]) ++ c.kids.filter (fun k => !c.kidsDone.contains k)
  else
    let up := c.kids.filter (fun k => !c.kidsDone.contains k)
    if up.isEmpty then [c.parent] else up

/-- One sending binding of a failed stream is given up at this end (R333). -/
def dropTx (d : Dev) (peer b code : Nat) : Dev :=
  let t := txOf d peer b
  let d1 := modTx d peer b (fun t => { t with use := 0, req := none, open_ := false, next := t.limit, ack := t.limit, retries := [], times := [] })
  if t.use = 1 then failRank d1 t.coll t.rank code else d1

/-- One receiving binding of a failed stream: its tokens are written off and its collective completes (R333, R334). -/
def dropRx (d : Dev) (peer b code : Nat) : Dev :=
  let x := rxOf d peer b
  match x.coll with
  | none => d
  | some n =>
    let d1 := modRx (writeOff d peer b) peer b (fun x => { x with coll := none, closed := true })
    match collFind d1 n with
    | some c => if c.got.contains x.rank then markRank d1 n x.rank code else failRank d1 n x.rank code
    | none => d1

/-- Every binding of a stream ends with a status (R333, R334). -/
def streamFail (d : Dev) (peer code : Nat) : Dev :=
  let d1 := (rangeFrom 0 16).foldl (fun e b => dropRx (dropTx e peer b code) peer b code) d
  modStream d1 peer (fun x => { x with reqs := [], asked := 0 })

/-- A stream flagged (R334): its collectives complete with STREAM_FLAGGED, and it grants nothing until the owner clears
FLAGGED. -/
def flagStream (d : Dev) (peer : Nat) : Dev := modStream (streamFail d peer 8) peer (fun x => { x with flagged := true })

/-- The peer of the stream in slot `c`, if one is resident (R319). -/
def slotPeer (d : Dev) (c : Nat) : Option Nat := smapFind d.ni.slots c

end Sys2Proof.Machine
end

