-- ==== Sys2Proof/Machine/LinkCore.lean ====
section
/-! DEFINITION. External router ports: their status, widths and rates, and what retires one (R274, R277, R282, R310 to
R315, R413 to R420, R436). -/

namespace Sys2Proof.Machine

/-! ### Ports -/

/-- PORT_STATUS_p. -/
def portOff (p : Nat) : Nat := 0x1000100 + 8 * p
/-- PORT_STATUS_p.STATE -/
def portSt (d : Dev) (p : Nat) : Nat := regField d (portOff p) 0 3
/-- PORT_STATUS_p.LANES -/
def portLanes (d : Dev) (p : Nat) : Nat := regField d (portOff p) 3 4
/-- PORT_STATUS_p.RATE -/
def portRate (d : Dev) (p : Nat) : Nat := regField d (portOff p) 7 4
/-- PORT_STATUS_p.FENCE_OPEN -/
def portOpen (d : Dev) (p : Nat) : Bool := natBit (regNat d (portOff p)) 11
/-- The external ports. -/
def allPorts : List Nat := rangeFrom 0 39
/-- Trained ports (STATE 2). -/
def upPorts (d : Dev) : List Nat := allPorts.filter (fun p => portSt d p == 2)
/-- Optical ports the variant record enables (R2, R449). -/
def optEnabled (d : Dev) (q : Nat) : Bool := natBit (bytesNat d.boot.applied 52 4) q
/-- Whether a router port is an optical port. -/
def isOptical (p : Nat) : Bool := decide (7 ≤ p ∧ p < 39)
/-- PORT_OPT_q of router port `p`. -/
def optOff (p : Nat) : Nat := 0x3020000 + 0x400 * (p - 7)

/-- A port's link at the start of its training. -/
def linkReset : LinkState :=
  { nextLseq := 0, store := [], rxNext := 0, ranges := [], reqNum := 0, waiting := [], reqSeen := 0,
    slots := 0, halDue := none, align := [], held := none, uncorr := [], echo := none, mask := 0, gen := 0, farMask := 0, farMode := 0, badMarks := [],
    req := none, opNum := 0, opEcho := 0, opDone := false, ops := [], asked := [], addDue := none, paused := none, pauseEcho := false, turnDue := 0, dark := false, step := 0, stepEye := 0, departs := [],
    trips := (0, 0), rtt := 0, asym := 0, failed := 0, retired := 0, adaptNext := 0, interval := 0 }
/-- The link of port `p`. -/
def linkOf (d : Dev) (p : Nat) : LinkState := smapGet d.fab.links p linkReset
/-- The link of port `p` changed. -/
def modLink (d : Dev) (p : Nat) (g : LinkState → LinkState) : Dev :=
  { d with fab := { d.fab with links := smapSet d.fab.links p (g (linkOf d p)) } }

/-- Bits set among the first eight. -/
def popcount8 (m : Nat) : Nat := ((rangeFrom 0 8).filter (fun i => natBit m i)).length
/-- Lanes in service in both directions: the lower of the two counts (R414). -/
def laneCount (x : LinkState) : Nat := min (popcount8 x.mask) (popcount8 x.farMask)

/-! ### Root and parent (R253, R257) -/

/-- TIME_CTL.ROOT_ENABLE -/
def rootEnable (d : Dev) : Bool := natBit (regNat d 0x200020) 0

/-- Trained neighbours that advertise a root: those whose time state is not FREE, and that do not follow this device's
own withdrawn candidacy. -/
def rootOffers (d : Dev) : List (Nat × Nat × Nat) :=
  (upPorts d).filterMap (fun p =>
    match smapFind d.tm.heard p with
    | some (root, depth, st, _, _) => if st != 0 && root != ownNode d then some (p, root, depth) else none
    | none => none)

/-- The lowest root offered, this device's own candidacy among them. -/
def winningRoot (d : Dev) : Option Nat :=
  let own := if rootEnable d then [ownNode d] else []
  (own ++ (rootOffers d).map (fun o => o.2.1)).foldl (fun acc r =>
    match acc with
    | none => some r
    | some a => some (min a r)) none

/-- The trained neighbour that offers root `r` with the least depth, the lowest port on a tie. -/
def bestParent (d : Dev) (r : Nat) : Option (Nat × Nat) :=
  ((rootOffers d).filter (fun o => o.2.1 == r)).foldl (fun acc o =>
    match acc with
    | none => some (o.1, o.2.2)
    | some a => if o.2.2 < a.2 then some (o.1, o.2.2) else some a) none

/-- The device follows root `r` through port `p` at a depth. A device that is LOCKED stays LOCKED through a change of
parent, since its GTIME never decreases (R252; assumption log 31, DEDUCED). -/
def followParent (d : Dev) (r p depth : Nat) : Dev :=
  let t := d.tm
  let same := t.parent == p && t.st != 3 && t.st != 0
  let t1 := { t with root := false, rootNode := r, parent := p, depth := min 63 (depth + 1) }
  if same || (t.st == 2) then { d with tm := t1 }
  else { d with tm := { t1 with st := 1, good := 0, setDue := true, fromHoldover := t.st == 3 || (t.fromHoldover && t.st == 1) } }

/-- Nothing to follow: the parent is given up, and a device that is not LOCKED or in HOLDOVER becomes FREE (R257). A
withdrawn root becomes FREE. -/
def followNone (d : Dev) : Dev :=
  let t := d.tm
  let keep := !t.root && (t.st == 2 || t.st == 3)
  { d with tm := { t with
      root := false
      parent := 63
      rootNode := if keep then t.rootNode else 0
      depth := if keep then t.depth else 0
      st := if keep then t.st else 0
      fromHoldover := keep && t.fromHoldover
      setDue := false
      good := 0
      slew := if keep then t.slew else 0 } }

/-- Root and parent chosen again (R253). -/
def chooseRoot (d : Dev) : Dev :=
  match winningRoot d with
  | none => followNone d
  | some r =>
    if rootEnable d && r == ownNode d then
      { d with tm := { d.tm with
          root := true
          rootNode := r
          depth := 0
          parent := 63
          st := 2
          setDue := false
          fromHoldover := false
          offset := 0
          slew := 0 } }
    else match bestParent d r with
      | some (p, depth) => followParent d r p depth
      | none => followNone d

/-- What was heard on port `p` is forgotten, and root and parent are chosen again (R257). -/
def unheard (d : Dev) (p : Nat) : Dev :=
  chooseRoot { d with tm := { d.tm with heard := smapDrop d.tm.heard (fun k => k == p) } }

/-! ### Bunting counts (R315) -/

/-- A count of the map being made raised by `k`; a field of `w` bits saturates. -/
def mapBump (d : Dev) (key w k : Nat) : Dev :=
  { d with fab := { d.fab with map := smapMod d.fab.map key 0 (fun x => min (x + k) (2 ^ w - 1)) } }
/-- A count of port `p`, by its byte in the port entry. -/
def portBump (d : Dev) (p field w k : Nat) : Dev := mapBump d (32 * p + field) w k
/-- A count of the device: 0 to 15 AGE, 16 to 19 STALL, 20 INJECTED, 21 GOLDEN, 22 AGE_DROPS, 23 ROUTE_EMPTY,
24 NOSLOT, 25 HELD. -/
def devBump (d : Dev) (i : Nat) : Dev := mapBump d (2048 + i) 32 1

/-! ### Records (R312, R436, R461, R467, R469) -/

/-- A port event: 0x08xx on a board port, 0x09xx on an optical port. -/
def portEv (p e : Nat) : Nat := if p < 7 then 0x0800 + e else 0x0900 + e
/-- DETAIL of a link, board or optical record. -/
def laneDetail (lane lanes reason chan : Nat) : List Byte :=
  leBytes 1 lane ++ leBytes 1 lanes ++ leBytes 1 reason ++ leBytes 1 chan
/-- A record about port `p`: the board port or the optical port is its instance. -/
def linkRec (d : Dev) (p ev cls lane lanes reason : Nat) : Dev :=
  postRecord d (recPort ev cls (if p < 7 then p else p - 7) p (laneDetail lane lanes reason 0))

/-! ### The lanes that are failed or retired (R419, R439) -/

/-- Lanes failed. -/
def failedLanes (d : Dev) (p : Nat) : Nat := if isOptical p then regField d (optOff p) 12 8 else (linkOf d p).failed
/-- Lanes retired. -/
def retiredLanes (d : Dev) (p : Nat) : Nat := if isOptical p then regField d (optOff p) 20 8 else (linkOf d p).retired
/-- One lane's failed bit set or cleared. -/
def putFailed (d : Dev) (p l v : Nat) : Dev :=
  if isOptical p then regPutField d (optOff p) (12 + l) 1 v else modLink d p (fun x => { x with failed := natPut x.failed l 1 v })
/-- One lane's retired bit set. -/
def putRetired (d : Dev) (p l : Nat) : Dev :=
  if isOptical p then regPutField d (optOff p) (20 + l) 1 1 else modLink d p (fun x => { x with retired := natPut x.retired l 1 1 })
/-- Lanes that could come back: neither failed nor retired. -/
def lanesLeft (d : Dev) (p : Nat) : Nat :=
  ((rangeFrom 0 8).filter (fun l => !natBit (failedLanes d p) l && !natBit (retiredLanes d p) l)).length

/-! ### Rates (R282) -/

/-- The largest rate whose acknowledgement delay the replay store covers; `rtt` in sixteenths. -/
def rateFor (rtt lanes : Nat) : Nat :=
  match (rangeFrom 0 8).find? (fun i => decide ((rtt + 4800) * (8 - i) * 14392 * lanes ≤ 910 * 156672 * 8 * 16)) with
  | some i => 8 - i
  | none => 1

/-- The rate re-planned for the measured round trip; a reduction is recorded (R282, R312). -/
def replanRate (d : Dev) (p : Nat) : Dev :=
  let r := rateFor (linkOf d p).rtt (portLanes d p)
  let was := portRate d p
  let d1 := regPutField d (portOff p) 7 4 r
  if r < was then linkRec d1 p (portEv p 0x43) 0 0 (portLanes d p) 0 else d1

/-! ### Slots (R276, R282) -/

/-- Whether the next slot of port `p` is a control slot (R276). -/
def controlNext (d : Dev) (p : Nat) : Bool := (linkOf d p).slots % 64 == 0
/-- Whether the port's rate lets its next packet slot carry a packet: one of the first RATE of each eight (R282). -/
def rateOpen (d : Dev) (p : Nat) : Bool := decide ((linkOf d p).nextLseq % 8 < portRate d p)

/-! ### Fences (R310) -/

/-- Whether the latest halyard message of port `p` names slice `s`. -/
def heardSlice (d : Dev) (p s : Nat) : Bool :=
  match smapFind d.tm.heard p with
  | some h => h.2.2.2.1 == s
  | none => false

/-- SLICE_STATE.SLICE_ID and VALID. -/
def ownSlice (d : Dev) : Nat := regField d 0x1000020 0 10
def sliceValid (d : Dev) : Bool := natBit (regNat d 0x1000020) 15

/-- PORT_STATUS_p.FENCE_OPEN follows R310; a closure while PORT_SLICE_p.OPEN is 1 raises the port's fence count. -/
def settleFence (d : Dev) (p : Nat) : Dev :=
  let cfg := regNat d (0x1001000 + 4 * p)
  let open_ := natBit cfg 15 && natBits cfg 0 10 == ownSlice d && sliceValid d && heardSlice d p (ownSlice d)
  let d1 := regPutField d (portOff p) 11 1 open_.toNat
  if portOpen d p && !open_ && natBit cfg 15 then portBump d1 p 24 16 1 else d1

/-- Whether packets of slice `s` may use port `p` (R310). -/
def openTo (d : Dev) (p s : Nat) : Bool := portOpen d p && ownSlice d == s

/-- Optical port `q` beside its registers; one that nothing has touched. -/
def optPortReset : OptPort := ⟨0, none, false, false, [], [], 0⟩
/-- Optical port `q`. -/
def optPortOf (d : Dev) (q : Nat) : OptPort := smapGet d.opt.ports q optPortReset
/-- Optical port `q` changed. -/
def modOptPort (d : Dev) (q : Nat) (g : OptPort → OptPort) : Dev :=
  { d with opt := { d.opt with ports := smapSet d.opt.ports q (g (optPortOf d q)) } }
/-- Where a port's lanes are kept: optical port number, or 32 plus the board port. -/
def laneIdx (p : Nat) : Nat := if p < 7 then 32 + p else p - 7
/-- Lane `l` of router port `p`. -/
def portLane (d : Dev) (p l : Nat) : LaneState := optLane d (laneIdx p) l
/-- A link with no lanes, no pause and no lane operation. -/
def linkDown (x : LinkState) : LinkState :=
  { x with mask := 0, farMask := 0, paused := none, req := none, ops := [], asked := [], addDue := none }
/-- A handover makes port `p` pause (R427). -/
def hoPauses (d : Dev) (p : Nat) : Bool := isOptical p && (optPortOf d (p - 7)).hoPause

/-! ### Width, pause and retirement (R312, R313, R420) -/

/-- MODE in this end's markers: SLEEP before P3, STANDBY in P2, PAUSE while fewer than six lanes are ready, a handover pauses or
the other end does, else UP (R413, R420, R434). -/
def ownMode (d : Dev) (p : Nat) : Nat :=
  let x := linkOf d p
  if d.pwr.st = 2 then 2 else if d.pwr.st = 3 then 3
  else if popcount8 x.mask < 6 ∨ hoPauses d p ∨ (x.pauseEcho ∧ x.paused.isSome ∧ x.farMode = 1) then 1 else 0

/-- The port offers packet slots: up, and neither end pauses, stands by or sleeps (R299, R420, R434). -/
def linkRuns (d : Dev) (p : Nat) : Bool :=
  portSt d p == 2 && (linkOf d p).paused.isNone && (linkOf d p).farMode == 0 && decide (d.pwr.st ≤ 1)

/-- Port `p` is retired until the next start (R312, R313). -/
def retirePort (d : Dev) (p lane reason : Nat) : Dev :=
  if portSt d p = 3 then d
  else
    let d1 := regPutField (regPutField (regPutField d (portOff p) 0 3 3) (portOff p) 3 8 0) (portOff p) 11 1 0
    let d2 := if isOptical p then regPutField (regPutField d1 (optOff p) 0 12 7) (optOff p) 31 1 0 else d1
    let d3 := modLink d2 p linkDown
    linkRec (unheard d3 p) p (portEv p 0x42) 1 lane 0 reason

/-- The widths, the pause and PORT_STATUS after a change of either end's lanes (R414, R420, R439). -/
def settleWidth (d : Dev) (p : Nat) : Dev :=
  if portSt d p != 2 then d
  else
    let x := linkOf d p
    let n := laneCount x
    let both := x.mask &&& x.farMask
    let d1 := if isOptical p then regPutField d (optOff p) 4 8 both else d
    let d2 := if both = 0 then modLink d1 p (fun x => { x with dark := true }) else d1
    match x.paused with
    | none =>
      if n < 6 || x.farMode == 1 || hoPauses d p then
        let d3 := modLink (regPutField d2 (portOff p) 3 4 0) p (fun x => { x with paused := some (gtimeNs d), pauseEcho := decide (6 ≤ n) && !hoPauses d p })
        let d4 := if isOptical p then regBump (regPutField d3 (optOff p) 0 4 4) 0x300001C 1 else d3
        linkRec d4 p (if p < 7 then 0x0846 else 0x0947) 0 0 n 0
      else regPutField d2 (portOff p) 3 4 n
    | some _ =>
      if x.mask = x.farMask ∧ 6 ≤ n ∧ x.farMode = 0 ∧ !hoPauses d p then
        let d3 := modLink (regPutField d2 (portOff p) 3 4 n) p (fun x => { x with paused := none })
        if isOptical p then regPutField d3 (optOff p) 0 4 3 else d3
      else d2

/-- This end's lanes change: a new mask generation (R413, R414). -/
def putMask (d : Dev) (p m : Nat) : Dev :=
  if (linkOf d p).mask = m then d
  else settleWidth (modLink d p (fun x => { x with mask := m, gen := (x.gen + 1) % 16 })) p

/-- Lane `l` leaves this end's direction. -/
def dropLane (d : Dev) (p l : Nat) : Dev := putMask d p (natPut (linkOf d p).mask l 1 0)
/-- Lane `l` joins it. -/
def joinLane (d : Dev) (p l : Nat) : Dev := putMask d p (natPut (linkOf d p).mask l 1 1)

/-- A lane operation is shown under a new number (R415). -/
def laneShow (d : Dev) (p : Nat) (q : Nat × Nat × Nat) : Dev :=
  let d1 := modLink d p (fun x => { x with req := some q, opNum := (x.opNum + 1) % 256, opDone := false })
  emit d1 (.laneOp p q.1 q.2.1 q.2.2 (linkOf d1 p).opNum)

/-- The operation shown has been received: the next that waits is shown, and with none waiting the link is as `g` says. -/
def laneNext (d : Dev) (p : Nat) (g : LinkState → LinkState) : Dev :=
  match (linkOf d p).ops with
  | [] => modLink d p g
  | q :: t => laneShow (modLink d p (fun x => { x with ops := t })) p q

/-- A lane operation of this end: shown at once, or after those before it have been echoed; a REMOVE or an ADD then waits for
its answer (R415; assumption log 149, DEDUCED). -/
def laneAsk (d : Dev) (p op lane reason : Nat) : Dev :=
  let q := (op, lane, reason)
  let d1 := if op = 1 ∨ op = 2 then modLink d p (fun x => { x with asked := x.asked ++ [q] }) else d
  if (linkOf d1 p).req.isNone || (linkOf d1 p).opDone then laneShow d1 p q
  else modLink d1 p (fun x => { x with ops := x.ops ++ [q] })

/-- This end's unanswered request about lane `l`. -/
def laneAsked (d : Dev) (p l : Nat) : Option (Nat × Nat × Nat) := (linkOf d p).asked.find? (fun q => q.2.1 == l)

/-- Request `q` has its answer, which is also the receipt of it. -/
def laneAnswered (d : Dev) (p : Nat) (q : Nat × Nat × Nat) : Dev :=
  let d1 := modLink d p (fun x => { x with asked := x.asked.erase q, ops := x.ops.erase q })
  if (linkOf d1 p).req = some q then laneNext d1 p (fun x => { x with req := none }) else d1

/-- PORT_CAL_q.INTERVAL_MS, or ADAPT_INTERVAL_MS, in effect (R483). -/
def calMax (d : Dev) (p : Nat) : Nat := max 1000 (if isOptical p then regField d 0x3000000 0 16 else regField d 0x1000060 0 16)
/-- The port's own interval in effect. -/
def calInterval (d : Dev) (p : Nat) : Nat :=
  let v := if isOptical p then regField d (optOff p + 8) 0 16 else (linkOf d p).interval
  if v = 0 then calMax d p else min (calMax d p) v
/-- The port's next turn is one interval from now. -/
def nextTurn (d : Dev) (p : Nat) : Dev := modLink d p (fun x => { x with turnDue := d.boot.aonNs + 1000000 * calInterval d p })

/-- A port comes up at the width its lane set gives (R428, R429, R462): the link layer starts, the round trip and the
asymmetry are measured and the rate is set. A lane outside the set is failed, with its record (R419, R429; assumption log 150,
DEDUCED). -/
def portTrained (d : Dev) (p mask node rtt : Nat) (asym : Int) : Dev :=
  let n := popcount8 mask
  let failed := 255 - mask
  let d0 := unheard d p
  let old := linkOf d p
  let d1 := modLink d0 p (fun _ => { linkReset with
    mask := mask, farMask := mask, rtt := rtt, asym := asym, failed := failed, retired := old.retired, held := old.held, align := old.align,
    adaptNext := old.adaptNext, interval := old.interval })
  let w := 2 + 8 * n + 128 * rateFor rtt n + 65536 * (node % 65536)
  let d2 := regPut64 d1 (portOff p) (w + 2 ^ 42 * (min (nearDiv rtt 16) 0xFFFF))
  let d3 := if isOptical p then
      regPutNat d2 (optOff p) (3 + 16 * mask + 4096 * failed + 2 ^ 20 * retiredLanes d p)
    else d2
  ((rangeFrom 0 8).filter (fun l => natBit failed l)).foldl (fun e l => linkRec e p (if p < 7 then 0x0844 else 0x0945) 0 l n 5)
    (nextTurn d3 p)

end Sys2Proof.Machine
end

