-- ==== Sys2Proof/Machine/Eject.lean ====
section
/-! DEFINITION. Ejection: the end-to-end checks a packet meets at its destination (R289, R290, R323). -/

namespace Sys2Proof.Machine

/-- DETAIL of a router or network-interface record (R469). -/
def netDetail (src dst coll port : Nat) : List Byte := leBytes 2 src ++ leBytes 2 dst ++ leBytes 2 coll ++ leBytes 1 port

/-- A record about a packet; `port` 63 where no port is concerned. -/
def packetRec (ev cls port : Nat) (p : Packet) : RecArgs := recPort ev cls 0xFF port (netDetail p.src p.dst 0 port)

/-! ### Ages (R297, R315) -/

/-- The age of a packet in nanoseconds (R297). -/
def ageNs (d : Dev) (p : Packet) : Nat := (gtimeNs d + 2 ^ 32 - p.injTime % 2 ^ 32) % 2 ^ 32
/-- The bin of an age (R315). -/
def ageBin (a : Nat) : Nat := if a < 128 then 0 else min 15 (Nat.log2 (a / 64))

/-- An ejection counted in the map under way by the packet's age (R315). -/
def countAge (d : Dev) (p : Packet) : Dev := devBump d (ageBin (ageNs d p))

/-- The checks at ejection, in order; a packet that fails one is discarded, counted and recorded (R290). -/
def endCheck (d : Dev) (p : Packet) : Dev × Bool :=
  if packetCheck p != p.check then (postRecord (regBump d 0x100004C 1) (packetRec 0x0B50 0 63 p), false)
  else if p.typ = 0 ∨ 9 < p.typ then (postRecord (regBump d 0x1000050 1) (packetRec 0x0B31 2 63 p), false)
  else if p.len = 0 ∨ 256 < p.len then
    let d1 := postRecord (regBump d 0x1000054 1) (packetRec 0x0B30 2 63 p)
    (match slotPeer d1 p.dctx with | some peer => flagStream d1 peer | none => d1, false)
  else (d, true)

/-- A packet taken from ejection: one the router has ejected has been checked, any other is checked now. Without its supplies
the router takes none (R532). -/
def takeIn (d : Dev) (p : Packet) : Dev × Bool :=
  if !routerOn d then (d, false)
  else if d.ni.ejected.contains p then ({ d with ni := { d.ni with ejected := d.ni.ejected.erase p } }, true) else endCheck (countAge d p) p

/-- A packet whose SUB its TYPE reserves: discarded and counted (R339). -/
def typeBad (d : Dev) (p : Packet) : Dev := postRecord (regBump d 0x1000050 1) (packetRec 0x0B31 2 63 p)

/-- SUB as the row of a packet reads it: without bit 7, which is POISON in COLL packets (R339), and in DATA packets by
R360 (assumption log 24, DEDUCED). -/
def subOf (p : Packet) : Nat := if p.typ = 1 ∨ p.typ = 2 then p.sub % 128 else p.sub

/-- Whether a packet's TYPE reserves its SUB (R339); those of MGMT packets are R517's. -/
def subReserved (p : Packet) : Bool :=
  decide (listGet [0, 0, 9, 0, 0, 4, 1, 5, 255, 0] p.typ 0 < subOf p)

/-- A packet handled when it is of `typ` and `sub` and is admitted. One whose SUB is reserved is discarded by any row
(R339); another is left for the row it belongs to. -/
def onPacket (d : Dev) (p : Packet) (typ sub : Nat) (go : Dev → Dev × List MemOp) : Dev × List MemOp :=
  if p.typ = typ ∧ subReserved p then
    (match takeIn d p with | (d1, true) => (typeBad d1 p, []) | (d1, false) => (d1, []))
  else if (p.typ = typ ∧ subOf p = sub) ∨ p.typ = 0 ∨ 9 < p.typ then
    (match takeIn d p with | (d1, true) => go d1 | (d1, false) => (d1, []))
  else (d, [])

/-- Bytes `o` to `o + k - 1` of a payload, as a number. -/
def payNat (p : Packet) (o k : Nat) : Nat := leNat ((p.payload.drop o).take k)

end Sys2Proof.Machine
end

