-- ==== Sys2Proof/Machine/Board.lean ====
section
/-! DEFINITION. Requests to board peers: the fence, credits and packets of the board channels (R28, R306, R335, R336). -/

namespace Sys2Proof.Machine

/-- The node number of the device in a slot of this board. -/
def slotNode (d : Dev) (slot : Nat) : Nat := ownNode d / 8 * 8 + slot % 8

/-- Whether a node is set in the member bitmap (R306). -/
def isMember (d : Dev) (node : Nat) : Bool := natBit d.fab.members node

/-- A board request's packet queued at the local port of the core that made it; a host's enters as the network interface's own
(R274). -/
def queueReq (d : Dev) (r : BoardReq) (p : Packet) : Dev := if r.kind ≤ 2 then queueOf d r.core p else queuePacket d p

/-- A packet with its check (R289). -/
def sealPacket (p : Packet) : Packet := { p with check := packetCheck p }

/-- Requests of a channel that hold a credit (R335). -/
def creditsUsed (d : Dev) (slot : Nat) : Nat := (d.ni.board.filter (fun r => r.slot == slot && r.sent)).length

/-- The packet of a board request (R336). -/
def reqPacket (d : Dev) (r : BoardReq) : Packet :=
  let p := mkPacket d (if r.kind = 0 ∨ r.kind = 3 then 3 else if r.kind = 2 then 9 else 4) (slotNode d r.slot) 0
    (if r.kind = 0 ∨ r.kind = 3 then leBytes 2 r.len ++ leBytes 6 0 else r.payload)
  sealPacket { p with seq := r.seq, offset := r.addr, epoch := r.acc }

/-- Whether a host write must wait for an earlier one to the same line of the same peer (R504). -/
def lineOrdered (before : List BoardReq) (r : BoardReq) : Bool :=
  r.kind == 4 && before.any (fun q => q.kind == 4 && q.slot == r.slot && q.addr / 256 == r.addr / 256)

/-- Whether the credits of a channel are withheld while the slice drains (R359). -/
def creditsWithheld (d : Dev) (slot : Nat) : Bool := natBit d.ni.draining (slotNode d slot)

/-- Whether the last GRANT and the last reply to a drained peer are behind it (R359). -/
def drainOver (d : Dev) (peer : Nat) : Bool := natBit d.ni.draining peer && decide (d.ni.drainBy ≤ gtimeNs d)

/-- The first request of a channel that waits and may leave, of those after `before`. -/
def firstWaiting (before rest : List BoardReq) (slot : Nat) : Option BoardReq :=
  match rest with
  | [] => none
  | r :: t => if r.slot == slot && !r.sent && !lineOrdered before r then some r else firstWaiting (before ++ [r]) t slot

/-- A board request made: refused at the fence (counted), sent while credits last, or waiting for one (R306, R335). The
second result is false where the fence refused it. -/
def boardSend (d : Dev) (r : BoardReq) : Dev × Bool :=
  if !isMember d (slotNode d r.slot) then (regBump d 0x100005C 1, false)
  else
    let seq := smapGet d.ni.boardSeq r.slot 0
    let go := decide (creditsUsed d r.slot < 256) && !creditsWithheld d r.slot && !lineOrdered d.ni.board r
    let q := { r with seq := seq, sent := go, sentAt := d.boot.aonNs }
    let d1 := { d with ni := { d.ni with
      board := d.ni.board ++ [q], boardSeq := smapSet d.ni.boardSeq r.slot ((seq + 1) % 2 ^ 32) } }
    (if go then queueReq d1 q (reqPacket d1 q) else d1, true)

/-- Requests made in order; none are made once one is refused. -/
def boardSendAll (d : Dev) (rs : List BoardReq) : Dev × Bool :=
  match rs with
  | [] => (d, true)
  | r :: t => (match boardSend d r with | (d1, true) => boardSendAll d1 t | (d1, false) => (d1, false))

/-- Up to `fuel` requests that wait on a channel leave, oldest first, while credits last (R335). -/
def pumpSome (fuel : Nat) (d : Dev) (slot : Nat) : Dev :=
  match fuel with
  | 0 => d
  | fuel + 1 =>
    if creditsUsed d slot < 256 ∧ !creditsWithheld d slot then
      match firstWaiting [] d.ni.board slot with
      | some r =>
        let d1 := { d with ni := { d.ni with board := d.ni.board.map (fun q => if q == r then { q with sent := true, sentAt := d.boot.aonNs } else q) } }
        pumpSome fuel (queueReq d1 r (reqPacket d1 r)) slot
      | none => d
    else d

/-- The requests of a channel that wait and may leave do so (R335). -/
def boardPump (d : Dev) (slot : Nat) : Dev := pumpSome 256 d slot

/-- A request of no instruction yet. -/
def blankReq (slot kind core ctx pc : Nat) (w : W128) : BoardReq :=
  ⟨slot, 0, kind, core, ctx, pc, w, 0, 0, 0, 0, [], 0, false, 0⟩

end Sys2Proof.Machine
end

