-- ==== Sys2Proof/Machine/VecOps.lean ====
section
/-! DEFINITION. What every VEC instruction shares: its plan, overlapping operands, and the arithmetic of its elements
(R170 to R193). -/

namespace Sys2Proof.Machine

/-- What running an instruction at issue yields. -/
structure RunOut where
  dev : Dev
  ops : List MemOp
  fault : Option OpFault

/-- An instruction's conditions, granules, books and effect. -/
structure RunPlan where
  conds : List Cond
  srcs : List Nat
  dsts : List Nat
  books : List Nat
  run : Dev → Mem → RunOut

/-- A long operation issues by its plan (R79, R80, R82). -/
def issuePlan (s : State) (core : Nat) (w : W128) (errs : List MemErr) (plan : Dev → Core → Ctx → RunPlan) :
    Dev × List MemOp :=
  issue s.dev core w (fun d c x =>
    let k := coreOf d core
    let p := plan d k x
    guarded p.conds
      (whenReady (longReady k p.srcs p.dsts && bookReady k p.books)
        (let r := applyErrs d s.mem errs
         let v := p.run r.1 (memApplyAll s.mem r.2)
         .next (pushOp v.dev core { newOp k c x.pc w p.srcs p.dsts with booksRead := p.books, fault := v.fault })
           (r.2 ++ v.ops))))

/-- The fields of every VEC instruction (R110), by the names used here. -/
structure VecFields where
  dd : BitVec 512
  ds1 : BitVec 512
  ds2 : BitVec 512
  d3 : BitVec 512
  sub : Nat
  sa : W64
  sb : W64
  book : Nat
  bank : Nat
  cdim : Nat
  rmask : Nat
  keep16 : Nat

/-- The fields read at issue. -/
def vecFields (k : Core) (x : Ctx) (o : BitVec 112) : VecFields :=
  { dd := descOf k (fld o 104 8), ds1 := descOf k (fld o 96 8), ds2 := descOf k (fld o 88 8), d3 := descOf k (fld o 80 8),
    sub := fld o 72 8, sa := sreg x (fld o 67 5), sb := sreg x (fld o 62 5), book := fld o 58 4, bank := fld o 53 5,
    cdim := fld o 50 3, rmask := fld o 45 5, keep16 := fld o 29 16 }

/-- Field places of R110. -/
def vDD : Nat × Nat := (104, 8)
/-- DS1 -/
def vDS1 : Nat × Nat := (96, 8)
/-- DS2 -/
def vDS2 : Nat × Nat := (88, 8)
/-- D3 -/
def vD3 : Nat × Nat := (80, 8)
/-- SUB -/
def vSUB : Nat × Nat := (72, 8)
/-- SA -/
def vSA : Nat × Nat := (67, 5)
/-- SB -/
def vSB : Nat × Nat := (62, 5)
/-- BOOK, BANK and CDIM -/
def vBook : List (Nat × Nat) := [(58, 4), (53, 5), (50, 3)]

/-- The reserved-field condition of a VEC instruction: flags above bit 0 (or all), and unused operand bits (R85). EVN is a
field of every VEC instruction, whatever EV is (assumption log 65, DEDUCED). -/
def vecReserved (f : BitVec 4) (o : BitVec 112) (flag : Bool) (used : List (Nat × Nat)) : Bool :=
  (if flag then f.toNat / 2 != 0 else f != 0#4) || !onlyFields o (used ++ [(7, 1), (0, 6)])

/-- Every element format. -/
def allFmts : List Nat := [0, 1, 2, 3, 4, 5]
/-- A floating-point format. -/
def isFp (fmt : Nat) : Bool := fmt == 0 || fmt == 1
/-- A floating-point format or INT32. -/
def isNum (fmt : Nat) : Bool := isFp fmt || fmt == 4

/-- Whether two descriptors name the same elements the same way (R185). -/
def sameShape (a b : TDesc) : Bool := a.base == b.base && a.fmt == b.fmt && a.ext == b.ext && a.str == b.str

/-- The overlap of a destination's span with a source's, unless they are the same (R185). -/
def overlapOf (t u : TDesc) : Option (Int × Int) :=
  let lo := max (spanLo t) (spanLo u)
  let hi := min (spanHi t) (spanHi u)
  if sameShape t u || decide (hi < lo) then none else some (lo, hi)

/-- Whether element `e` of a destination lies in an overlap. -/
def inOverlap (t : TDesc) (os : List (Int × Int)) (e : Nat) : Bool :=
  let a : Int := (elemAddr t e : Nat)
  os.any (fun o => decide (o.1 ≤ a + (elemSize t.fmt : Nat) - 1) && decide (a ≤ o.2))

/-- Bits of an element. -/
def elemBits (fmt : Nat) : Nat := if fmt = 3 then 4 else 8 * elemSize fmt

/-- Results written to a destination: those in an overlap are free (R185). -/
def overlapFix (d : Dev) (t : TDesc) (srcs : List TDesc) (vals : List (Nat × Bool)) : Dev × List (Nat × Bool) :=
  let os := srcs.filterMap (overlapOf t)
  if os.isEmpty then (d, vals)
  else
    ({ d with free := d.free + vals.length },
     vals.zipIdx.map (fun v =>
       if inOverlap t os v.2 then ((Config.freeWord (d.free + v.2)).toNat % 2 ^ elemBits t.fmt, v.1.2) else v.1))

/-- Results, overlaps and flags written: the memory operations and the fault of a poisoned source. -/
def writeResult (d : Dev) (m : Mem) (n : Nat) (t : TDesc) (srcs : List TDesc) (vals : List (Nat × Bool)) (flags : Nat)
    (flt : Option OpFault) : RunOut :=
  let r := overlapFix d t srcs vals
  let st := storeElems r.1 m t r.2
  { dev := if flags = 0 then r.1 else setVflags r.1 n flags
    ops := st.1
    fault := match flt with | some g => some g | none => st.2.map (dropFault d) }

/-- The first fault of several sources read whole. -/
def firstSrc (d : Dev) (l : List (TDesc × List (Nat × Bool))) : Option OpFault :=
  match l with
  | [] => none
  | (t, v) :: rest => match srcFault d t v with | some g => some g | none => firstSrc d rest

/-- A value and its flags. -/
abbrev Flagged := Nat × Nat

/-- An exact result rounded into a floating-point format, with its flags; `xs` are its operands (R181). -/
def fpOut (fmt : Nat) (x : FExact) (xs : List FExact) : Flagged :=
  let b := narrowTo fmt x
  (b, arithFlags x fmt b (xs.all fIsFin))

/-- An integer saturated to INT32, with its flag (R184). -/
def satOut (v : Int) : Flagged :=
  if 2147483647 < v then (0x7FFFFFFF, vfSat) else if v < -2147483648 then (0x80000000, vfSat) else (wrapInt 32 v, 0)

/-- 1 in a format (R183). -/
def oneOf (fmt : Nat) : Nat := if fmt = 0 then 0x3F800000 else if fmt = 1 then 0x3F80 else 1

/-- Sources that a SUB value reads: 1 DS1, 2 DS2, 3 D3 (R112). -/
def vopSources (sub : Nat) : List Nat :=
  if sub = 0x04 ∨ sub = 0x0C then [1, 2, 3]
  else if sub = 0x00 ∨ sub = 0x07 ∨ sub = 0x08 ∨ sub = 0x09 ∨ sub = 0x0D ∨ sub = 0x0E then [1]
  else if sub = 0x0F then [1, 3]
  else [1, 2]

/-- The formats that R180 accepts, sources in the order of `vopSources`. -/
def vopFmtOk (sub : Nat) (fs : List Nat) (fd : Nat) : Bool :=
  if sub = 0x00 then fs.all (fun f => f == fd)
  else if sub = 0x09 then fs.all isNum && isNum fd
  else if sub = 0x0A ∨ sub = 0x0B then (fs.all isFp || fs.all (fun f => f == 4)) && isNum fd
  else if sub = 0x0C then isNum (fs.headD 9) && (fs.drop 1).all (fun f => f == fd)
  else (fs.all isFp && isFp fd) ||
    ([0x01, 0x02, 0x05, 0x06, 0x07, 0x08].contains sub && fs.all (fun f => f == 4) && fd == 4)

/-- Conversion to INT32 (R184). -/
def cvtInt (x : FExact) : Flagged :=
  match x with
  | .nan _ _ => (0, vfCvtNan)
  | .inf s => ((if s then 0x80000000 else 0x7FFFFFFF), vfSat)
  | .fin v => satOut (dyToInt v)

/-- CVT (R181, R184): a floating-point source is widened and rounded into DD's format, a NaN made quiet (R33). -/
def cvtElem (fs fd x : Nat) : Flagged :=
  if fs = 4 then
    (if fd = 4 then (x, 0) else fpOut fd (fOfInt (signedOf 32 x)) [])
  else if fd = 4 then cvtInt (fOf32 (wide fs x))
  else fpOut fd (fOf32 (wide fs x)) [fOf32 (wide fs x)]

/-- ABS and NEG of floating-point bits change the sign bit alone (R182); into BF16 from FP32 R34 converts. -/
def signElem (neg : Bool) (fs fd x : Nat) : Flagged :=
  let top := if fs = 1 then 2 ^ 15 else 2 ^ 31
  let y := if neg then (if x / top % 2 = 1 then x - top else x + top) else x % top
  if fs = fd then (y, 0)
  else if fd = 0 then ((wide fs y).toNat, 0)
  else fpOut fd (fOf32 (wide fs y)) [fOf32 (wide fs y)]

/-- One element of a VOP (R112, R181 to R184); `a`, `b`, `c` are the elements it reads as DS1, DS2 or the scalar, and
D3, with their formats. -/
def vopElem (sub fa fb fc fd a b c : Nat) : Flagged :=
  let x := fOf32 (wide fa a)
  let y := fOf32 (wide fb b)
  let z := fOf32 (wide fc c)
  let ia := signedOf 32 a
  let ib := signedOf 32 b
  let int := fa == 4
  let rel := fun (p : Bool) => ((if p then oneOf fd else 0), 0)
  match sub with
  | 0x00 => (a, 0)
  | 0x01 => if int then satOut (ia + ib) else fpOut fd (fAdd x y) [x, y]
  | 0x02 => if int then satOut (ia - ib) else fpOut fd (fSub x y) [x, y]
  | 0x03 => fpOut fd (fMul x y) [x, y]
  | 0x04 => fpOut fd (fFma x y z) [x, y, z]
  | 0x05 => if int then (wrapInt 32 (min ia ib), 0) else fpOut fd (fMin x y) [x, y]
  | 0x06 => if int then (wrapInt 32 (max ia ib), 0) else fpOut fd (fMax x y) [x, y]
  | 0x07 => if int then satOut (ia.natAbs : Nat) else signElem false fa fd a
  | 0x08 => if int then satOut (-ia) else signElem true fa fd a
  | 0x09 => cvtElem fa fd a
  | 0x0A => rel (if int then decide (ia < ib) else fLt x y)
  | 0x0B => rel (if int then ia == ib else fEq x y)
  | 0x0C => ((if (if int then a != 0 else (wide fa a).toNat % 2 ^ 31 != 0) then b else c), 0)
  | 0x0D => fpOut fd (fAdd x y) [x, y]
  | 0x0E => fpOut fd (fMul x y) [x, y]
  | _ => fpOut fd (fFma x y z) [x, y, z]

/-! ### Reductions -/

/-- Extents of the dimensions whose RMASK bit is `bit`. -/
def maskExts (ext : List Nat) (mask dim : Nat) (bit : Bool) : List Nat :=
  match ext with
  | [] => []
  | e :: t => if natBit mask dim == bit then e :: maskExts t mask (dim + 1) bit else maskExts t mask (dim + 1) bit

/-- Indices of all dimensions from those of the unreduced and of the reduced ones. -/
def mergeIdx (mask dim fuel : Nat) (us rs : List Nat) : List Nat :=
  match fuel with
  | 0 => []
  | fuel + 1 =>
    if natBit mask dim then rs.headD 0 :: mergeIdx mask (dim + 1) fuel us (rs.drop 1)
    else us.headD 0 :: mergeIdx mask (dim + 1) fuel (us.drop 1) rs

/-- The product of a list. -/
def prodList (l : List Nat) : Nat := l.foldl (fun a b => a * b) 1

/-- The loop-order element numbers of output `u`'s group, in ascending r (R190). -/
def groupElems (ext : List Nat) (mask u : Nat) : List Nat :=
  let ue := maskExts ext mask 0 false
  let re := maskExts ext mask 0 true
  (rangeFrom 0 (prodList re)).map (fun r => ravel ext (mergeIdx mask 0 5 (unravel ue u) (unravel re r)))

/-- An FP32 sum in progress: its bits, and whether it is a NaN that an addition created. -/
abbrev SumCell := W32 × Bool

/-- One FP32 addition of R191. -/
def sumAdd (a b : SumCell) : SumCell :=
  if f32IsNan a.1 then (a.1 ||| 0x00400000#32, a.2)
  else if f32IsNan b.1 then (b.1 ||| 0x00400000#32, b.2)
  else
    let r := f32Add a.1 b.1
    (r, f32IsNan r)

/-- Lane `l`'s elements of a group: r mod 128 = l. -/
def laneOf {α : Type} (l : Nat) (xs : List α) : List α :=
  (xs.zipIdx.filter (fun p => p.2 % 128 == l)).map (fun p => p.1)

/-- The tree of R191 over lane sums: lane l + step into lane l, the step halving. -/
def foldLanes {α : Type} (add : α → α → α) (fuel : Nat) (ls : List α) : List α :=
  match fuel with
  | 0 => ls
  | fuel + 1 =>
    let step := ls.length / 2
    foldLanes add fuel ((ls.take step).zipWith add (ls.drop step))

/-- The sum of a group in the order of R191. -/
def treeSum {α : Type} (add : α → α → α) (zero : α) (xs : List α) : α :=
  ((foldLanes add 7 ((rangeFrom 0 128).map (fun l => (laneOf l xs).foldl add zero))).head?).getD zero

/-- A floating-point SUM rounded into the destination (R191). -/
def sumFp (fd : Nat) (xs : List W32) : Flagged :=
  let s := treeSum sumAdd (0#32, false) (xs.map (fun x => (x, false)))
  let b := if fd = 1 then (fNarrow s.1).toNat else s.1.toNat
  (b, (if s.2 then vfInvalid else 0) + (if elemInf fd b && xs.all (fun x => fIsFin (fOf32 x)) then vfOverflow else 0))

/-- 64-bit saturating addition with its flag (R192). -/
def sat64Add (a b : Int × Bool) : Int × Bool :=
  let v := a.1 + b.1
  if 9223372036854775807 < v then (9223372036854775807, true)
  else if v < -9223372036854775808 then (-9223372036854775808, true)
  else (v, a.2 || b.2)

/-- An INT32 SUM (R192). -/
def sumInt (xs : List Nat) : Flagged :=
  let s := treeSum sat64Add (0, false) (xs.map (fun x => (signedOf 32 x, false)))
  let r := satOut s.1
  (r.1, if s.2 then vfSat else r.2)

/-- The winner of MAX or MIN among floating-point elements: its r (R193). -/
def bestFp (mx : Bool) (xs : List W32) : Nat :=
  match xs.findIdx? f32IsNan with
  | some r => r
  | none =>
    (xs.zipIdx.foldl (fun best p =>
      match best with
      | none => some p
      | some q => if (if mx then fLtZero (fOf32 q.1) (fOf32 p.1) else fLtZero (fOf32 p.1) (fOf32 q.1)) then some p else best)
      none).elim 0 (fun p => p.2)

/-- The winner among INT32 elements. -/
def bestInt (mx : Bool) (xs : List Nat) : Nat :=
  (xs.zipIdx.foldl (fun best p =>
    match best with
    | none => some p
    | some q =>
      let a := signedOf 32 q.1
      let b := signedOf 32 p.1
      if (if mx then decide (a < b) else decide (b < a)) then some p else best) none).elim 0 (fun p => p.2)

end Sys2Proof.Machine
end

