-- ==== Sys2Proof/Machine/Vec.lean ====
section
/-! DEFINITION. VEC instructions (R110 to R113, R170 to R211) and the encoding to codes (R43 to R47, R57, R58). -/

namespace Sys2Proof.Machine

/-! ### VOP and VRED -/

/-- The plan of VOP (R112, R179 to R185). -/
def vopPlan (core : Nat) (f : BitVec 4) (o : BitVec 112) (d : Dev) (k : Core) (x : Ctx) : RunPlan :=
  let v := vecFields k x o
  let ss := vopSources v.sub
  let raws := ss.map (fun i => if i = 1 then v.ds1 else if i = 2 then v.ds2 else v.d3)
  let ts := raws.map (tdesc (ownSlot d))
  let t := tdesc (ownSlot d) v.dd
  let sc := v.sa.toNat % 2 ^ 32
  let fm := fun i => (ts[i]?.elim 0 (fun u => u.fmt))
  { conds := (0x0303, decide (0x10 ≤ v.sub) || vecReserved f o false [vDD, vDS1, vDS2, vD3, vSUB, vSA]) ::
      (0x030A, !vopFmtOk v.sub (ts.map (fun u => u.fmt)) t.fmt) ::
      (0x030B, ts.any (fun u => elemCount u != elemCount t)) ::
      (descConds d core v.dd ownOnly allFmts ++ raws.flatMap (fun r => descConds d core r ownOnly allFmts))
    srcs := ts.flatMap (descGranules d core)
    dsts := descGranules d core t
    books := []
    run := fun d m =>
      let es := ts.map (fun u => (u, readElems (localView d m) u))
      let at_ := fun i e => listGet ((es[i]?).elim [] (fun p => p.2)) e (0, false)
      let res := (rangeFrom 0 (elemCount t)).map (fun e =>
        let a := at_ 0 e
        let second := if 0x0D ≤ v.sub then (sc, false) else at_ 1 e
        let third := if v.sub = 0x0F then at_ 1 e else at_ 2 e
        let r := vopElem v.sub (fm 0) (if 0x0D ≤ v.sub then 0 else fm 1) (if v.sub = 0x0F then fm 1 else fm 2) t.fmt
          a.1 second.1 third.1
        ((r.1, es.any (fun p => (listGet p.2 e (0, false)).2)), r.2))
      writeResult d m core t ts (res.map (fun r => r.1)) (res.foldl (fun acc r => acc ||| r.2) 0) (firstSrc d es) }

/-- The effect of VOP. -/
def execVop (core : Nat) (f : BitVec 4) (o : BitVec 112) (errs : List MemErr) (s : State) :
    Host.Outcome State Fault Refusal :=
  finish s (issuePlan s core (mkWord 3 0x01 f o) errs (vopPlan core f o))

/-- The plan of VRED (R113, R189 to R193). -/
def vredPlan (core : Nat) (f : BitVec 4) (o : BitVec 112) (d : Dev) (k : Core) (x : Ctx) : RunPlan :=
  let v := vecFields k x o
  let idx := natBit f.toNat 0
  let a := tdesc (ownSlot d) v.ds1
  let t := tdesc (ownSlot d) v.dd
  let i3 := tdesc (ownSlot d) v.d3
  let groups := prodList (maskExts a.ext v.rmask 0 false)
  { conds := (0x0303, decide (3 ≤ v.sub) || (idx && v.sub == 0) ||
        vecReserved f o true ([vDD, vDS1, vSUB, (45, 5)] ++ (if idx then [vD3] else []))) ::
      (0x030A, !((isFp a.fmt && isFp t.fmt) || (a.fmt == 4 && t.fmt == 4)) || (idx && i3.fmt != 4)) ::
      (0x030B, elemCount t != groups || (idx && elemCount i3 != groups) || decide (2 ^ a.ndim ≤ v.rmask)) ::
      (descConds d core v.dd ownOnly allFmts ++ descConds d core v.ds1 ownOnly allFmts ++
        (if idx then descConds d core v.d3 ownOnly [4] else []))
    srcs := descGranules d core a
    dsts := descGranules d core t ++ (if idx then descGranules d core i3 else [])
    books := []
    run := fun d m =>
      let es := readElems (localView d m) a
      let res := (rangeFrom 0 groups).map (fun u =>
        let xs := (groupElems a.ext v.rmask u).map (fun e => listGet es e (0, false))
        let bad := xs.any (fun p => p.2)
        let ws := xs.map (fun p => wide a.fmt p.1)
        let win := if a.fmt = 4 then bestInt (v.sub == 1) (xs.map (fun p => p.1)) else bestFp (v.sub == 1) ws
        let r : Flagged :=
          if v.sub = 0 then (if a.fmt = 4 then sumInt (xs.map (fun p => p.1)) else sumFp t.fmt ws)
          else if a.fmt = 4 then ((listGet xs win (0, false)).1, 0)
          else fpOut t.fmt (fOf32 (listGet ws win 0#32)) [fOf32 (listGet ws win 0#32)]
        (((r.1, bad), r.2), ((a.idxBase + win) % 2 ^ 32, bad)))
      let r1 := writeResult d m core t [a] (res.map (fun r => r.1.1)) (res.foldl (fun acc r => acc ||| r.1.2) 0)
        (srcFault d a es)
      if idx then
        let r2 := writeResult r1.dev (memApplyAll m r1.ops) core i3 [a, t] (res.map (fun r => r.2)) 0 r1.fault
        { dev := r2.dev, ops := r1.ops ++ r2.ops, fault := r2.fault }
      else r1 }

/-- The effect of VRED. -/
def execVred (core : Nat) (f : BitVec 4) (o : BitVec 112) (errs : List MemErr) (s : State) :
    Host.Outcome State Fault Refusal :=
  finish s (issuePlan s core (mkWord 3 0x02 f o) errs (vredPlan core f o))

/-! ### VLUT -/

/-- An FP32 word of a table image. -/
def tabWord (tab : List Nat) (i : Nat) : W32 :=
  BitVec.ofNat 32 (leNat ((rangeFrom i 4).map (fun j => BitVec.ofNat 8 (listGet tab j 0))))

/-- Where an input falls: a NaN t, below or above, or a segment with the exact u = t - s (R187, R188). -/
inductive LutAt where
  | nan (x : FExact)
  | below
  | above
  | seg (s : Nat) (u : FExact)

/-- A segment number within 0 to 255, or the ends (R187). -/
def lutPlace (extrap : Bool) (s : Int) (t : FExact) : LutAt :=
  if s < 0 then (if extrap then .seg 0 t else .below)
  else if 255 < s then (if extrap then .seg 255 (fSub t (fOfInt 255)) else .above)
  else .seg s.toNat (fSub t (fOfInt s))

/-- The segment an input selects (R187, R188); `x` is no NaN. -/
def lutLocate (tab : List Nat) (x : W32) : LutAt :=
  let hdr := listGet tab 0 0
  let extrap := natBit hdr 6
  match fOf32 x with
  | .inf s => if s then .below else .above
  | _ =>
    if natBit hdr 0 then
      let mb := natBits hdr 3 3
      let fr := bvBits x 0 23
      let unit := 2 ^ (23 - mb)
      let s : Int := ((bvBits x 23 8 : Nat) - (listGet tab 1 0 : Nat) : Int) * (2 ^ mb : Nat) + (fr / unit : Nat)
      let t : Int := s * (unit : Nat) + (fr % unit : Nat)
      lutPlace extrap s (.fin ⟨decide (t < 0), t.natAbs, -((23 - mb : Nat) : Int)⟩)
    else
      let a := fSub (fOf32 x) (fOf32 (tabWord tab 4))
      let b := match a with
        | .nan p q => FExact.nan p q
        | _ => fMul (fOf32 (fTo32 a)) (fOf32 (tabWord tab 8))
      match b with
      | .nan p q => .nan (.nan p q)
      | _ =>
        let t := fOf32 (fTo32 b)
        match t with
        | .fin v => lutPlace extrap (dyFloor v) t
        | .inf s => lutPlace extrap (if s then -1 else 256) t
        | .nan p q => .nan (.nan p q)

/-- lut(x) in the destination format, with its flags (R181, R187, R188); of several NaNs, D's comes first, then u's, then
Y0's (assumption log 135, DESIGN CHOICE). -/
def lutValue (tab : List Nat) (fmt : Nat) (x : W32) : Flagged :=
  let fin := fIsFin (fOf32 x)
  let end_ := fun i => let y := fOf32 (tabWord tab i); (narrowTo fmt y, arithFlags y fmt (narrowTo fmt y) (fIsFin y))
  match lutLocate tab x with
  | .nan t => (narrowTo fmt t, arithFlags t fmt (narrowTo fmt t) false)
  | .below => end_ 12
  | .above => end_ 16
  | .seg s u =>
    let y0 := fOf32 (tabWord tab (64 + 8 * s))
    let dd := fOf32 (tabWord tab (68 + 8 * s))
    let linear := !natBit (listGet tab 0 0) 0
    let ok := fin && fIsFin y0 && fIsFin dd &&
      (!linear || (fIsFin (fOf32 (tabWord tab 4)) && fIsFin (fOf32 (tabWord tab 8))))
    let r := fFma dd u y0
    (narrowTo fmt r, arithFlags r fmt (narrowTo fmt r) ok)

/-- One element of VLUT (R187, R188): −0 is +0 in both modes, and −lut(−x) has the other sign also where it is a NaN
(assumption log 135, DEDUCED). -/
def lutElem (tab : List Nat) (fmt : Nat) (x : W32) : Flagged :=
  let hdr := listGet tab 0 0
  let y := BitVec.ofNat 32 (x.toNat % 2 ^ 31)
  if f32IsNan x then (narrowTo fmt (fOf32 x), 0)
  else if natBit hdr 0 && x.msb && y != 0#32 then
    match natBits hdr 1 2 with
    | 0 => let z := fOf32 (tabWord tab 12); (narrowTo fmt z, arithFlags z fmt (narrowTo fmt z) (fIsFin z))
    | 1 =>
      let r := lutValue tab fmt y
      let top := if fmt = 1 then 2 ^ 15 else 2 ^ 31
      ((if r.1 / top % 2 = 1 then r.1 - top else r.1 + top), r.2)
    | 2 => lutValue tab fmt y
    | _ => (narrowTo fmt fDefaultNan, vfInvalid)
  else lutValue tab fmt (if natBit hdr 0 || y == 0#32 then y else x)

/-- The plan of VLUT (R186). -/
def vlutPlan (core : Nat) (f : BitVec 4) (o : BitVec 112) (d : Dev) (k : Core) (x : Ctx) : RunPlan :=
  let v := vecFields k x o
  let a := tdesc (ownSlot d) v.ds1
  let tb := tdesc (ownSlot d) v.ds2
  let t := tdesc (ownSlot d) v.dd
  { conds := (0x0303, vecReserved f o false [vDD, vDS1, vDS2]) ::
      (0x030B, elemCount a != elemCount t || tb.ndim != 1 || extOf tb 0 != 2112 || tb.base % 64 != 0) ::
      (descConds d core v.dd ownOnly [0, 1] ++ descConds d core v.ds1 ownOnly [0, 1] ++
        descConds d core v.ds2 ownOnly [2])
    srcs := descGranules d core a ++ descGranules d core tb
    dsts := descGranules d core t
    books := []
    run := fun d m =>
      let es := readElems (localView d m) a
      let tv := readElems (localView d m) tb
      let tab := tv.map (fun p => p.1)
      let tbad := tv.any (fun p => p.2)
      let res := es.map (fun e => let r := lutElem tab t.fmt (wide a.fmt e.1); ((r.1, e.2 || tbad), r.2))
      writeResult d m core t [a, tb] (res.map (fun r => r.1)) (res.foldl (fun acc r => acc ||| r.2) 0)
        (firstSrc d [(a, es), (tb, tv)]) }

/-- The effect of VLUT. -/
def execVlut (core : Nat) (f : BitVec 4) (o : BitVec 112) (errs : List MemErr) (s : State) :
    Host.Outcome State Fault Refusal :=
  finish s (issuePlan s core (mkWord 3 0x03 f o) errs (vlutPlan core f o))

/-! ### VPERM, VGATH and VSCAT -/

/-- The plan of VPERM (R113, R194 to R196). -/
def vpermPlan (core : Nat) (f : BitVec 4) (o : BitVec 112) (d : Dev) (k : Core) (x : Ctx) : RunPlan :=
  let v := vecFields k x o
  let a := tdesc (ownSlot d) v.ds1
  let ix := tdesc (ownSlot d) v.ds2
  let t := tdesc (ownSlot d) v.dd
  let c := v.cdim
  let trap := natBit (regNat d (coreOff core 0x308)) 0
  { conds := (0x0303, vecReserved f o false [vDD, vDS1, vDS2, (50, 3)]) ::
      (0x030A, a.fmt != t.fmt) ::
      (0x030B, decide (4 < c) || decide (a.ndim ≤ c) || ix.ext != t.ext ||
        listSet a.ext c 1 != listSet t.ext c 1) ::
      (descConds d core v.dd ownOnly allFmts ++ descConds d core v.ds1 ownOnly allFmts ++
        descConds d core v.ds2 ownOnly [4])
    srcs := descGranules d core a ++ descGranules d core ix
    dsts := descGranules d core t
    books := []
    run := fun d m =>
      let vw := localView d m
      let is := readElems vw ix
      let present := extOf a c
      let off := is.findIdx? (fun p => !p.2 && decide (present ≤ p.1))
      match trap, off with
      | true, some e =>
        let r := writeResult d m core t [a, ix] (is.map (fun _ => (0, false))) vfRange none
        { r with fault := some ⟨0x0220, 2, leBytes 4 e⟩ }
      | _, _ =>
        let res := is.zipIdx.map (fun p =>
          if present ≤ p.1.1 then (0, p.1.2, 0)
          else
            let e := ravel a.ext (listSet (unravel t.ext p.2) c p.1.1)
            (elemRaw vw a e, p.1.2 || elemBad vw a e, e))
        let bad := res.find? (fun r => r.2.1)
        writeResult d m core t [a, ix] (res.map (fun r => (r.1, r.2.1))) (if off.isSome then vfRange else 0)
          (match srcFault d ix is with
            | some g => some g
            | none => bad.map (fun r => poisonFault d (elemAddr a r.2.2))) }

/-- The effect of VPERM. -/
def execVperm (core : Nat) (f : BitVec 4) (o : BitVec 112) (errs : List MemErr) (s : State) :
    Host.Outcome State Fault Refusal :=
  finish s (issuePlan s core (mkWord 3 0x04 f o) errs (vpermPlan core f o))

/-- Rows of a table (R197). -/
def tableRows (t : TDesc) : Nat := outerCount t

/-- The plan of VGATH (R170, R197, R198). -/
def vgathPlan (core : Nat) (f : BitVec 4) (o : BitVec 112) (d : Dev) (k : Core) (x : Ctx) : RunPlan :=
  let v := vecFields k x o
  let a := tdesc (ownSlot d) v.ds1
  let ix := tdesc (ownSlot d) v.ds2
  let t := tdesc (ownSlot d) v.dd
  let r := extOf a 0
  { conds := (0x0303, vecReserved f o false [vDD, vDS1, vDS2]) ::
      (0x030A, a.fmt != t.fmt) :: (0x030B, elemCount t != r * elemCount ix) ::
      (descConds d core v.dd ownOnly allFmts ++ descConds d core v.ds1 ownOrAperture allFmts ++
        descConds d core v.ds2 ownOnly [4])
    srcs := descGranules d core a ++ descGranules d core ix
    dsts := descGranules d core t
    books := []
    run := fun d m =>
      let vw := localView d m
      let is := readElems vw ix
      let rows := tableRows a
      let beyond := is.any (fun p => !p.2 && p.1 != 0xFFFFFFFF && decide (rows ≤ p.1))
      let res := is.flatMap (fun p => (rangeFrom 0 r).map (fun i =>
        if rows ≤ p.1 ∨ p.1 = 0xFFFFFFFF then (0, p.2, 0)
        else (elemRaw vw a (p.1 * r + i), p.2 || elemBad vw a (p.1 * r + i), p.1 * r + i)))
      let bad := res.find? (fun q => q.2.1)
      writeResult d m core t [a, ix] (res.map (fun q => (q.1, q.2.1))) (if beyond then vfIndex else 0)
        (match srcFault d ix is with
          | some g => some g
          | none => bad.map (fun q => poisonFault d (elemAddr a q.2.2))) }

/-- The effect of VGATH. -/
def execVgath (core : Nat) (f : BitVec 4) (o : BitVec 112) (errs : List MemErr) (s : State) :
    Host.Outcome State Fault Refusal :=
  finish s (issuePlan s core (mkWord 3 0x05 f o) errs (vgathPlan core f o))

/-- Contributions to memory in progress: the device, the memory they have left, its changes, and a fault. -/
structure AccRun where
  dev : Dev
  mem : Mem
  ops : List MemOp
  fault : Option OpFault

/-- One accumulate-write of an element into DRAM through the base die (R217, R229, R239, R241): `t` names the element
`e`, `v` is the incoming value and whether it is poison. -/
def accElem (t : TDesc) (a : AccRun) (e : Nat) (v : Nat × Bool) : AccRun :=
  let key := memKey (elemAddr t e)
  let unit := poisonUnit key
  let drop := { a with fault := match a.fault with | some g => some g | none => some (dropFault a.dev key) }
  if pcRetired a.dev (keyPc key) then drop
  else if v.2 then
    let ops := zeroUnit unit ++ [.poison unit]
    { a with mem := memApplyAll a.mem ops, ops := a.ops ++ ops }
  else if a.mem.poison.contains unit then drop
  else
    let size := elemSize t.fmt
    let old := leNat (memBytes a.mem key size)
    let r : Flagged :=
      if t.fmt = 4 then satOut (signedOf 32 old + signedOf 32 v.1)
      else fpOut t.fmt (fAdd (fOf32 (wide t.fmt old)) (fOf32 (wide t.fmt v.1)))
        [fOf32 (wide t.fmt old), fOf32 (wide t.fmt v.1)]
    let exc := r.2 == vfSat || r.2 == vfOverflow
    let ops := wrBytes key (leBytes size r.1)
    { dev := if exc then regBump a.dev (stackOff (keyPc key / 64) + 0xC) 1 else a.dev
      mem := memApplyAll a.mem ops, ops := a.ops ++ ops, fault := a.fault }

/-- Insertion by key. -/
def insertKey {α : Type} (x : Nat × α) (l : List (Nat × α)) : List (Nat × α) :=
  match l with
  | [] => [x]
  | y :: t => if x.1 < y.1 then x :: y :: t else y :: insertKey x t

/-- A list in an order that nothing fixes (assumption log 18, DESIGN CHOICE): sorted by free keys from number `base`. -/
def freeOrder {α : Type} (base : Nat) (l : List α) : List α :=
  (l.zipIdx.foldl (fun acc p => insertKey ((Config.freeWord (base + p.2)).toNat, p.1) acc) []).map (fun p => p.2)

/-- Contributions (element number, value) added through the base dies, in some order (R132, R200). Nothing is added into a
line that some contribution poisons (R217). -/
def accAll (d : Dev) (m : Mem) (t : TDesc) (cs : List (Nat × (Nat × Bool))) (flt : Option OpFault) : RunOut :=
  let start : AccRun := { dev := { d with free := d.free + cs.length }, mem := m, ops := [], fault := none }
  let unit := fun (c : Nat × (Nat × Bool)) => poisonUnit (memKey (elemAddr t c.1))
  let dirty := cs.filter (fun c => c.2.2)
  let bad := distinct (dirty.map unit)
  let r := ((freeOrder d.free cs).filter (fun c => !bad.contains (unit c)) ++ dirty).foldl (fun a c => accElem t a c.1 c.2) start
  { dev := r.dev, ops := r.ops, fault := match flt with | some g => some g | none => r.fault }

/-- Rows added one at a time into a table in this core's scratchpad (R200): values and flags. -/
def scatAdd (t : TDesc) (d : Dev) (acc : Mem × List MemOp × Nat) (e : Nat) (v : Nat × Bool) : Mem × List MemOp × Nat :=
  let vw := localView d acc.1
  let old := elemRaw vw t e
  let r : Flagged :=
    if t.fmt = 4 then satOut (signedOf 32 old + signedOf 32 v.1)
    else fpOut t.fmt (fAdd (fOf32 (wide t.fmt old)) (fOf32 (wide t.fmt v.1)))
      [fOf32 (wide t.fmt old), fOf32 (wide t.fmt v.1)]
  let bad := v.2 || elemBad vw t e
  let st := (storeCells d acc.1 ((elemBytes t e (r.1, bad) (0, false)).map (fun w => (memKey w.1, w.2)))).1
  (memApplyAll acc.1 st, acc.2.1 ++ st, acc.2.2 ||| (if bad then 0 else r.2))

/-- The plan of VSCAT (R170, R185, R197 to R200). -/
def vscatPlan (core : Nat) (f : BitVec 4) (o : BitVec 112) (d : Dev) (k : Core) (x : Ctx) : RunPlan :=
  let v := vecFields k x o
  let add := natBit f.toNat 0
  let a := tdesc (ownSlot d) v.ds1
  let ix := tdesc (ownSlot d) v.ds2
  let t := tdesc (ownSlot d) v.dd
  let r := extOf t 0
  { conds := (0x0303, vecReserved f o true [vDD, vDS1, vDS2]) ::
      (0x030A, a.fmt != t.fmt || (add && !isNum t.fmt)) :: (0x030B, elemCount a != r * elemCount ix) ::
      (descConds d core v.dd ownOrAperture allFmts ++ descConds d core v.ds1 ownOnly allFmts ++
        descConds d core v.ds2 ownOnly [4])
    srcs := descGranules d core a ++ descGranules d core ix
    dsts := descGranules d core t
    books := []
    run := fun d m =>
      let vw := localView d m
      let is := readElems vw ix
      let es := readElems vw a
      let rows := tableRows t
      let beyond := is.any (fun p => !p.2 && p.1 != 0xFFFFFFFF && decide (rows ≤ p.1))
      let used := is.zipIdx.filter (fun p => !p.1.2 && p.1.1 != 0xFFFFFFFF && decide (p.1.1 < rows))
      let flt := firstSrc d [(ix, is), (a, es)]
      let own := match spanRegion d.boot.part (spanLo t) (spanHi t) with | .spad _ => true | _ => false
      let os := [a, ix].filterMap (overlapOf t)
      let free := fun (e : Nat) (v : Nat × Bool) =>
        if inOverlap t os e then ((Config.freeWord (d.free + e)).toNat % 2 ^ elemBits t.fmt, v.2) else v
      let rowVals := fun b => (rangeFrom 0 r).map (fun i => listGet es (b * r + i) (0, false))
      let d0 := if beyond then setVflags d core vfIndex else d
      let d1 := if os.isEmpty then d0 else { d0 with free := d0.free + elemCount t }
      if !add then
        let ws := used.flatMap (fun p => (writeElems t (p.1.1 * r) ((rowVals p.2).zipIdx.map (fun v =>
          free (p.1.1 * r + v.2) v.1))).map (fun w => (memKey w.1, w.2)))
        let st := storeCells d1 m ws
        { dev := d1, ops := st.1, fault := match flt with | some g => some g | none => st.2.map (dropFault d) }
      else if own then
        let fin := used.foldl (fun acc p =>
          ((rowVals p.2).zipIdx).foldl (fun acc w => scatAdd t d1 acc (p.1.1 * r + w.2) w.1) acc) (m, [], 0)
        let mixed := used.flatMap (fun p => (rangeFrom 0 r).filterMap (fun i =>
          if inOverlap t os (p.1.1 * r + i) then some (p.1.1 * r + i) else none))
        { dev := if fin.2.2 = 0 then d1 else setVflags d1 core fin.2.2
          ops := fin.2.1 ++ (storeCells d1 fin.1 (mixed.flatMap (fun e =>
            (elemBytes t e (free e (0, false)) (0, false)).map (fun w => (memKey w.1, w.2))))).1
          fault := match flt with
            | some g => some g
            | none => (used.flatMap (fun p => (rangeFrom 0 r).map (fun i => p.1.1 * r + i))).findSome? (fun e =>
                if elemBad vw t e then some (poisonFault d (elemAddr t e)) else none) }
      else accAll d1 m t (used.flatMap (fun p => (rowVals p.2).zipIdx.map (fun w => (p.1.1 * r + w.2, w.1)))) flt }

/-- The effect of VSCAT. -/
def execVscat (core : Nat) (f : BitVec 4) (o : BitVec 112) (errs : List MemErr) (s : State) :
    Host.Outcome State Fault Refusal :=
  finish s (issuePlan s core (mkWord 3 0x06 f o) errs (vscatPlan core f o))

/-! ### VRNG -/

/-- mix of R202. -/
def rngMix (z : W64) : W64 :=
  let a := (z ^^^ (z >>> 30)) * 0xBF58476D1CE4E5B9#64
  let b := (a ^^^ (a >>> 27)) * 0x94D049BB133111EB#64
  b ^^^ (b >>> 31)

/-- Whether an element is kept (R202). -/
def rngKeep (seed step layer index : W64) (keep16 : Nat) : Bool :=
  let h := rngMix (rngMix (seed ^^^ step) ^^^ layer)
  let r := rngMix (h ^^^ rngMix index)
  keep16 == 0 || decide ((r >>> 48).toNat < keep16)

/-- The plan of VRNG (R201 to R204). -/
def vrngPlan (core : Nat) (f : BitVec 4) (o : BitVec 112) (d : Dev) (k : Core) (x : Ctx) : RunPlan :=
  let v := vecFields k x o
  let apply := natBit f.toNat 0
  let a := tdesc (ownSlot d) v.ds1
  let t := tdesc (ownSlot d) v.dd
  let seed := BitVec.ofNat 64 (regNat64 d 0x100)
  let g := if v.keep16 = 0 then fOne else fOf32 (fTo32 (fDiv (fOfInt 65536) (fOfInt (v.keep16 : Nat))))
  { conds := (0x0303, vecReserved f o true ([vDD, vSA, vSB, (29, 16)] ++ (if apply then [vDS1] else []))) ::
      (0x030B, apply && elemCount a != elemCount t) ::
      (descConds d core v.dd ownOnly (if apply then [0, 1] else [0, 1, 4]) ++
        (if apply then descConds d core v.ds1 ownOnly [0, 1] else []))
    srcs := if apply then descGranules d core a else []
    dsts := descGranules d core t
    books := []
    run := fun d m =>
      let es := if apply then readElems (localView d m) a else []
      let res := (rangeFrom 0 (elemCount t)).map (fun e =>
        let keep := rngKeep seed v.sa v.sb (BitVec.ofNat 64 (t.idxBase + e)) v.keep16
        if apply then
          let p := listGet es e (0, false)
          let xv := fOf32 (wide a.fmt p.1)
          let r := if keep then fpOut t.fmt (fMul xv g) [xv] else fpOut t.fmt (fMul xv fZero) [xv]
          ((r.1, p.2), r.2)
        else (((if keep then oneOf t.fmt else 0), false), 0))
      writeResult d m core t (if apply then [a] else []) (res.map (fun r => r.1))
        (res.foldl (fun acc r => acc ||| r.2) 0) (if apply then srcFault d a es else none) }

/-- The effect of VRNG. -/
def execVrng (core : Nat) (f : BitVec 4) (o : BitVec 112) (errs : List MemErr) (s : State) :
    Host.Outcome State Fault Refusal :=
  finish s (issuePlan s core (mkWord 3 0x07 f o) errs (vrngPlan core f o))

/-! ### VENC and VDEC -/

/-- What an encode of one element gives (R44). -/
structure EncOut where
  code : Nat
  clipped : Bool
  nonfinite : Bool

/-- The code R44 chooses among candidates: the least even one, else the least. -/
def pickCode (cand : List Nat) : Nat :=
  match cand.find? (fun i => i % 2 == 0) with
  | some i => i
  | none => cand.headD 0

/-- The greatest of a list of integers. -/
def maxInt (l : List Int) : Int := l.foldl max (l.headD 0)
/-- The least. -/
def minInt (l : List Int) : Int := l.foldl min (l.headD 0)

/-- Indices of the entries for which `m` is least. -/
def argMin (es : List Int) (m : Int → Int) : List Nat :=
  let best := minInt (es.map m)
  (es.zipIdx.filter (fun p => m p.1 == best)).map (fun p => p.2)

/-- The encoding of a quotient t into a book (R44, R45). -/
def encodeT (es : List Int) (t : FExact) : EncOut :=
  match t with
  | .nan _ _ => ⟨pickCode (argMin es (fun e => (e.natAbs : Nat))), true, true⟩
  | .inf s => if s then ⟨pickCode (argMin es (fun e => e)), true, true⟩ else ⟨pickCode (argMin es (fun e => -e)), true, true⟩
  | .fin v =>
    let q := min v.exp 0
    let ti := dySigned v q
    let sc : Int := (2 ^ (-q).toNat : Nat)
    ⟨pickCode (argMin es (fun e => ((ti - e * sc).natAbs : Nat))),
      decide (ti < minInt es * sc) || decide (maxInt es * sc < ti), false⟩

/-- The encoding of an element x with scale s (R44). -/
def encodeElem (es : List Int) (x s : W32) : EncOut := encodeT es (fOf32 (fTo32 (fDiv (fOf32 x) (fOf32 s))))

/-- A list in pieces of `k`. -/
def chunksOf {α : Type} (k fuel : Nat) (l : List α) : List (List α) :=
  match fuel, l with
  | _, [] => []
  | 0, _ => []
  | fuel + 1, x :: t => ((x :: t).take k) :: chunksOf k fuel ((x :: t).drop k)

/-- The clips of one stream cycle: counters rise, and WIDEN, FIRST_BANK and NONFINITE follow (R46, R57, R58). Each
element is its bank with whether it is clipped and nonfinite. -/
def addClips (d : Dev) (n : Nat) (els : List (Nat × Bool × Bool)) : Dev :=
  let clips := els.filter (fun e => e.2.1)
  if clips.isEmpty then d
  else
    let banks := (distinct (clips.map (fun e => e.1))).filter (fun b => clipGet d n b != 0xFFFFFFFF)
    let d1 := banks.foldl (fun d b =>
      regBump d (coreOff n (0x380 + 4 * b)) (clips.filter (fun e => e.1 == b)).length) d
    let nf := clips.filter (fun e => e.2.2)
    let d2 := if nf.isEmpty then d1 else setNumStatus d1 n 1
    match (rangeFrom 0 32).find? (fun b =>
      (banks.contains b && clipOver d2 n b) || nf.any (fun e => e.1 == b)) with
    | some b => setWiden d2 n b
    | none => d2

/-- Whether an operand is packed in dimension 0 for the rates of R172. -/
def ratePacked (t : TDesc) : Bool := t.fmt == 3 || strOf t 0 == 0 || strOf t 0 == (elemSize t.fmt : Nat)

/-- The channel of element `e` (R205). -/
def channelOf (t : TDesc) (cdim e : Nat) : Nat := listGet (unravel t.ext e) cdim 0

/-- Banks that an instruction's channels use (R43). -/
def bankList (bank chans : Nat) : List Nat := rangeFrom bank ((chans + 127) / 128)

/-- The conditions VENC and VDEC share (R43, R113, R205). -/
def codeConds (f : BitVec 4) (o : BitVec 112) (v : VecFields) (a t : TDesc) : List Cond :=
  [ (0x0303, vecReserved f o true ([vDD, vDS1] ++ vBook)),
    (0x030B, decide (4 < v.cdim) || a.ext != t.ext),
    (0x0124, !natBit f.toNat 0 && decide (7 < v.book)),
    (0x0122, decide (31 < v.bank + (extOf a v.cdim - 1) / 128)) ]

/-- The books VENC and VDEC read (R38). -/
def codeBooks (f : BitVec 4) (v : VecFields) (a : TDesc) : List Nat :=
  bookReg (natBit f.toNat 0) v.book :: (bankList v.bank (extOf a v.cdim)).map (fun b => 32 + b)

/-- A book's entries. -/
def bookList (k : Core) (cb4 : Bool) (b : Nat) : List Int := (rangeFrom 0 (if cb4 then 16 else 256)).map (bookEntry k cb4 b)

/-- The plan of VENC (R44 to R46, R205). Elements read from poison count no clip (assumption log 15, DESIGN CHOICE). -/
def vencPlan (core : Nat) (f : BitVec 4) (o : BitVec 112) (d : Dev) (k : Core) (x : Ctx) : RunPlan :=
  let v := vecFields k x o
  let cb4 := natBit f.toNat 0
  let a := tdesc (ownSlot d) v.ds1
  let t := tdesc (ownSlot d) v.dd
  { conds := codeConds f o v a t ++
      (descConds d core v.dd ownOnly [if cb4 then 3 else 2] ++ descConds d core v.ds1 ownOnly [0, 1])
    srcs := descGranules d core a
    dsts := descGranules d core t
    books := codeBooks f v a
    run := fun d m =>
      let es := readElems (localView d m) a
      let book := bookList k cb4 v.book
      let enc := es.zipIdx.map (fun p =>
        let c := channelOf a v.cdim p.2
        let b := v.bank + c / 128
        (encodeElem book (wide a.fmt p.1.1) (scaleEntry k b (c % 128)), b, p.1.2))
      let lanes := if ratePacked a && ratePacked t then 128 else 16
      let d1 := (chunksOf lanes enc.length enc).foldl (fun d ch =>
        addClips d core (ch.map (fun e => (e.2.1, !e.2.2 && e.1.clipped, !e.2.2 && e.1.nonfinite)))) d
      writeResult d1 m core t [a] (enc.map (fun e => (e.1.code, e.2.2))) 0 (srcFault d a es) }

/-- The effect of VENC. -/
def execVenc (core : Nat) (f : BitVec 4) (o : BitVec 112) (errs : List MemErr) (s : State) :
    Host.Outcome State Fault Refusal :=
  finish s (issuePlan s core (mkWord 3 0x08 f o) errs (vencPlan core f o))

/-- The plan of VDEC (R47, R205). -/
def vdecPlan (core : Nat) (f : BitVec 4) (o : BitVec 112) (d : Dev) (k : Core) (x : Ctx) : RunPlan :=
  let v := vecFields k x o
  let cb4 := natBit f.toNat 0
  let a := tdesc (ownSlot d) v.ds1
  let t := tdesc (ownSlot d) v.dd
  { conds := codeConds f o v a t ++
      (descConds d core v.dd ownOnly [0, 1] ++ descConds d core v.ds1 ownOnly [if cb4 then 3 else 2])
    srcs := descGranules d core a
    dsts := descGranules d core t
    books := codeBooks f v a
    run := fun d m =>
      let es := readElems (localView d m) a
      let res := es.zipIdx.map (fun p =>
        let c := channelOf a v.cdim p.2
        let r := fpOut t.fmt (fMul (fOfInt (bookEntry k cb4 v.book p.1.1))
          (fOf32 (scaleEntry k (v.bank + c / 128) (c % 128)))) []
        ((r.1, p.1.2), r.2))
      writeResult d m core t [a] (res.map (fun r => r.1)) (res.foldl (fun acc r => acc ||| r.2) 0) (srcFault d a es) }

/-- The effect of VDEC. -/
def execVdec (core : Nat) (f : BitVec 4) (o : BitVec 112) (errs : List MemErr) (s : State) :
    Host.Outcome State Fault Refusal :=
  finish s (issuePlan s core (mkWord 3 0x09 f o) errs (vdecPlan core f o))

/-! ### Completion and retries -/

/-- The oldest outstanding VEC operation (R75). -/
def oldestVec (k : Core) : Option LongOp := oldestOp k (fun o => opClass o.word == 3)

/-- The oldest VEC instruction completes (R75, R173). -/
def execVecComplete (core : Nat) (s : State) : Host.Outcome State Fault Refusal :=
  finishDev s (match oldestVec (coreOf s.dev core) with
    | some o => if arrayRuns s.dev core then completeOp s.dev core o else s.dev
    | none => s.dev)

/-- DETAIL of a vector mismatch (R469). -/
def vecDetail (lane op att : Nat) : List Byte := leBytes 1 lane ++ leBytes 1 op ++ leBytes 1 0 ++ leBytes 1 att

/-- Whether a VEC instruction does arithmetic that its lanes check: COPY, SEL, VPERM, VGATH and VSCAT without ADD move bits
(R208). -/
def laneChecked (w : W128) : Bool :=
  match opCode w with
  | 1 => bvBits w 72 8 != 0x00 && bvBits w 72 8 != 0x0C
  | 4 => false
  | 5 => false
  | 6 => natBit (bvBits w 112 4) 0
  | _ => true

/-- Checks of `lanes` mismatch in one attempt of stream cycle `cycle` of the oldest VEC instruction: the cycle is computed
again, or the core retired (R208 to R210). The record names the first lane. -/
def execVectorResidueRetry (core cycle : Nat) (lanes : List Nat) (s : State) : Host.Outcome State Fault Refusal :=
  let d := s.dev
  let k := coreOf d core
  finish s (match (oldestVec k).filter (fun o => laneChecked o.word), lanes.filter (fun l => decide (l < 128)) with
    | some o, lane :: rest =>
      let all := distinct (lane :: rest)
      let t := k.health.vecTry
      let same := t.op == some o.id && t.cycle == cycle
      let att := if same then t.attempt else 1
      let miss := all.foldl (fun h l => smapMod h l 0 (fun x => x + 1)) k.health.laneMiss
      let limit := max 1 (regField d (coreOff core 0x64C) 0 4)
      let op := opCode o.word
      let d1 := regPutNat (coreDay d core) (coreOff core 0x648) (lane + 128 * (op % 16) + 2 ^ 11 * (att % 4))
      let d2 := modCore d1 core (fun k => { k with health := { k.health with
        laneMiss := miss
        vecTry := ⟨some o.id, cycle, all ++ (if same then t.units else []), att + 1⟩ } })
      if (same && all.any (fun l => t.units.contains l)) || decide (3 ≤ att) ||
          all.any (fun l => decide (limit ≤ smapGet miss l 0)) then
        retireCore d2 s.mem core (retireRec core 0x0241 (vecDetail lane op att))
      else
        (dayBump (regBump (postRecord d2 { recOf 0x0240 0 core (vecDetail lane op att) with
          lcore := core, ctx := o.ctx, pc := o.pc }) (coreOff core 0x644) 1) 1 1, [])
    | _, _ => (d, []))

end Sys2Proof.Machine
end

