-- ==== Sys2Proof/Machine/Wire.lean ====
section
/-! DEFINITION. What the packets of streams carry: elements, shares, reduction pairs and gathered shards (R339, R348,
R349, R352, R355, R356, R388, R389). -/

namespace Sys2Proof.Machine

/-- The body of a stream packet before it has a token: type, sub-type, offset, payload, POISON and LAST. -/
structure Wire where
  typ : Nat
  sub : Nat
  off : Nat
  payload : List Byte
  bad : Bool
  last : Bool

/-! ### Elements -/

/-- Elements in a whole packet of a format (R325). -/
def perPacket (fmt : Nat) : Nat := if fmt = 3 then 512 else 256 / elemSize fmt
/-- Packets that carry `n` elements. -/
def packetsFor (fmt n : Nat) : Nat := (n + perPacket fmt - 1) / perPacket fmt

/-- Elements as bytes: two CB4 codes a byte, the first in the low nibble (R40). -/
def packElems (fmt : Nat) (vs : List Nat) : List Byte :=
  if fmt = 3 then
    (chunksOf 2 vs.length vs).map (fun p => BitVec.ofNat 8 (listGet p 0 0 % 16 + 16 * (listGet p 1 0 % 16)))
  else vs.flatMap (fun v => leBytes (elemSize fmt) v)

/-- Element `i` of packed bytes. -/
def unpackElem (fmt : Nat) (bs : List Byte) (i : Nat) : Nat :=
  if fmt = 3 then natBits (bytesNat bs (i / 2) 1) (4 * (i % 2)) 4 else bytesNat bs (i * elemSize fmt) (elemSize fmt)

/-- Elements that `len` payload bytes hold, at most `room`. -/
def elemsIn (fmt len room : Nat) : Nat := min room (if fmt = 3 then 2 * len else len / elemSize fmt)

/-- Elements `e` to `e + k - 1` of a tensor on this device. -/
def partElems (d : Dev) (m : Mem) (t : TDesc) (e k : Nat) : List (Nat × Bool) :=
  (rangeFrom e k).map (fun i => (elemRaw (localView d m) t i, elemBad (localView d m) t i))

/-- A packet of elements; one that reads poison carries zeros and POISON (R360). -/
def elemWire (typ sub fmt off : Nat) (vs : List (Nat × Bool)) (last : Bool) : Wire :=
  let bad := vs.any (fun v => v.2)
  let bytes := packElems fmt (vs.map (fun v => v.1))
  ⟨typ, sub, off, if bad then List.replicate bytes.length 0#8 else bytes, bad, last⟩

/-- Packet `i` of the `count` elements of a tensor that begin at element `first`. -/
def landingWire (d : Dev) (m : Mem) (typ : Nat) (t : TDesc) (first count i : Nat) : Wire :=
  let pp := perPacket t.fmt
  let n := min pp (count - i * pp)
  elemWire typ 0 t.fmt (256 * i) (partElems d m t (first + i * pp) n) (decide (count ≤ (i + 1) * pp))

/-- The byte write of one element, the other nibble of a CB4 byte kept, padding nibbles 0 (R40). -/
def putElem (m : Mem) (t : TDesc) (e : Nat) (v : Nat × Bool) : List (Nat × Byte × Bool) :=
  let a := elemAddr t e
  if t.fmt = 3 then
    let old := (memByte m (memKey a)).toNat
    let pad := decide (e % extOf t 0 + 1 = extOf t 0)
    let b := if elemHigh t e then old % 16 + 16 * (v.1 % 16) else v.1 % 16 + (if pad then 0 else old / 16 * 16)
    [(memKey a, BitVec.ofNat 8 b, v.2)]
  else (leBytes (elemSize t.fmt) v.1).zipIdx.map (fun b => (memKey (a + b.2), b.1, v.2))

/-- Elements written one after another from element `e`; a poisoned one poisons where it lands (R360). -/
def putElems (w : Work) (t : TDesc) (e : Nat) (vs : List (Nat × Bool)) : Work :=
  if t.fmt = 3 then
    match vs with
    | [] => w
    | v :: rest => putElems (wMem w (storeCells w.dev w.mem (putElem w.mem t e v)).1) t (e + 1) rest
  else wMem w (storeCells w.dev w.mem ((vs.zipIdx).flatMap (fun v => putElem w.mem t (e + v.2) v.1))).1
termination_by structural vs

/-! ### Shares (R349) -/

/-- Elements a share packet may hold. -/
def shareCap (fmt : Nat) : Nat := listGet [64, 128, 252, 504] fmt 64
/-- CHAN_LEN of a collective. -/
def chanLen (c : Coll) : Nat := max 1 (dword c.block 4 42 20)
/-- The elements of the share packet that begins at element `pos` of the part whose first element is `base`. -/
def shareSize (fmt chan base count pos : Nat) : Nat :=
  let room := min (shareCap fmt) (count - pos)
  if fmt = 2 ∨ fmt = 3 then min room (chan - (base + pos) % chan) else room
/-- The first element of share packet `i` of a part. -/
def shareStart (fmt chan base count i : Nat) : Nat :=
  match i with
  | 0 => 0
  | i + 1 => let p := shareStart fmt chan base count i; p + shareSize fmt chan base count p
/-- Packets of a part, counted from element `pos`. -/
def shareTotal (fmt chan base count pos fuel : Nat) : Nat :=
  match fuel with
  | 0 => 0
  | fuel + 1 =>
    if count ≤ pos then 0 else 1 + shareTotal fmt chan base count (pos + shareSize fmt chan base count pos) fuel

/-- The scale of a channel, with its poison. -/
def chanScale (d : Dev) (m : Mem) (c : Coll) (chan : Nat) : Nat × Bool :=
  let a := dword c.block 4 0 42 + 4 * chan
  (leNat ((rangeFrom a 4).map (localView d m).byte), (rangeFrom a 4).any (localView d m).bad)

/-- Share packet `i` of the part of rank `r`. -/
def shareWire (d : Dev) (m : Mem) (c : Coll) (r i : Nat) : Wire :=
  let t := tdesc (ownSlot d) c.ds
  let base := r * c.count
  let p := shareStart t.fmt (chanLen c) base c.count i
  let n := shareSize t.fmt (chanLen c) base c.count p
  let vs := partElems d m t (base + p) n
  let sc := if t.fmt = 2 ∨ t.fmt = 3 then some (chanScale d m c ((base + p) / chanLen c)) else none
  let bytes := (match sc with | some s => leBytes 4 s.1 | none => []) ++ packElems t.fmt (vs.map (fun v => v.1))
  let bad := vs.any (fun v => v.2) || (match sc with | some s => s.2 | none => false)
  ⟨2, 1, 4 * p, if bad then List.replicate bytes.length 0#8 else bytes, bad, decide (c.count ≤ p + n)⟩

/-- Entry `k` of a network-die book (R368). There are eight CB8 books; the entries of one beyond them are free (assumption
log 28, DEDUCED). -/
def ncbEntry (d : Dev) (cb4 : Bool) (b k : Nat) : Int :=
  if !cb4 && decide (8 ≤ b) then signedOf 12 (Config.freeWord (256 * b + k)).toNat
  else if cb4 then signedOf 8 (natBits (regNat d (0x1341000 + 16 * b + k / 4 * 4)) (8 * (k % 4)) 8)
  else signedOf 12 (natBits (regNat d (0x1340000 + 512 * b + k / 2 * 4)) (16 * (k % 2)) 16)

/-- One element of a share in FP32 (R47, R67): `code` under `scale`, with the book `book` names, or a value. -/
def shareValue (d : Dev) (fmt book scale code : Nat) : W32 :=
  if fmt = 2 ∨ fmt = 3 then
    fTo32 (fMul (fOfInt (ncbEntry d (natBit book 4) (book % 16) code)) (fOf32 (BitVec.ofNat 32 scale)))
  else wide fmt code

/-- The FP32 values a share payload adds, `n` of them. -/
def shareValues (d : Dev) (fmt book n : Nat) (bs : List Byte) : List W32 :=
  let coded := fmt = 2 ∨ fmt = 3
  (rangeFrom 0 n).map (fun i =>
    shareValue d fmt book (if coded then bytesNat bs 0 4 else 0) (unpackElem fmt (if coded then bs.drop 4 else bs) i))

/-! ### Reductions (R355, R384) -/

/-- Pairs of one CRED packet. -/
def pairsPer (fmt : Nat) : Nat := if fmt = 1 then 42 else 32
/-- Pairs as bytes: the value, then its index. -/
def packPairs (fmt : Nat) (ps : List Pair) : List Byte :=
  ps.flatMap (fun p => leBytes (elemSize fmt) (if fmt = 1 then p.val.toNat / 2 ^ 16 else p.val.toNat) ++ leBytes 4 p.idx)
/-- The pairs of a packet from rank `r`; all of them are poisoned where the packet is (R360). -/
def unpackPairs (fmt n r : Nat) (bad : Bool) (bs : List Byte) : List Pair :=
  let k := elemSize fmt + 4
  (rangeFrom 0 n).map (fun i => ⟨wide fmt (bytesNat bs (k * i) (elemSize fmt)), bytesNat bs (k * i + elemSize fmt) 4, r, bad⟩)

/-- Whether pair `a` beats pair `b` (R355): a NaN over every number, then the greater value, or the lesser with MIN; then
the lower index, then the lower rank. -/
def pairBeats (mn : Bool) (a b : Pair) : Bool :=
  let na := f32IsNan a.val
  let nb := f32IsNan b.val
  let higher := if na || nb then na && !nb else
    (if mn then fLtZero (fOf32 a.val) (fOf32 b.val) else fLtZero (fOf32 b.val) (fOf32 a.val))
  let under := if na || nb then nb && !na else
    (if mn then fLtZero (fOf32 b.val) (fOf32 a.val) else fLtZero (fOf32 a.val) (fOf32 b.val))
  higher || (!under && (decide (a.idx < b.idx) || (a.idx == b.idx && decide (a.rank < b.rank))))

/-- The winner of two pairs. -/
def pairPick (mn : Bool) (a b : Pair) : Pair := if pairBeats mn b a then b else a

/-- Two vectors joined element by element; what meets poison is poisoned. -/
def joinPairs (g : Pair → Pair → Pair) (a b : List Pair) : List Pair :=
  match a, b with
  | x :: s, y :: t => { g x y with bad := x.bad || y.bad } :: joinPairs g s t
  | _, _ => []

/-- Pairs of one packet of a tree collective: CRED pairs, or the 64 FP32 values of an exchange. -/
def treePer (c : Coll) : Nat := if c.kind = 17 then 64 else pairsPer c.fmt

/-- Packet `i` of a vector of pairs; one that holds a poisoned pair is sent as zeros with POISON (R360). -/
def treeWire (c : Coll) (sub : Nat) (ps : List Pair) (i : Nat) : Wire :=
  let per := treePer c
  let mine := (ps.drop (i * per)).take per
  let bytes := if c.kind = 17 then packElems 0 (mine.map (fun p => p.val.toNat)) else packPairs c.fmt mine
  let bad := mine.any (fun p => p.bad)
  ⟨2, if c.kind = 17 then 0 else sub, 256 * i, if bad then List.replicate bytes.length 0#8 else bytes, bad,
    decide (ps.length ≤ (i + 1) * per)⟩

/-- Where a partial of rank `r`, packet `i`, is kept. -/
def partKey (r i : Nat) : Nat := r * 2 ^ 32 + i

/-- The whole vector a rank has sent, once every packet of it is here. -/
def rankVector (c : Coll) (r : Nat) : List Pair :=
  (rangeFrom 0 ((c.count + treePer c - 1) / treePer c)).flatMap (fun i => smapGet c.partials (partKey r i) [])

/-! ### Gathered shards (R348, R388, R389) -/

/-- Whether stream `i` of a shard (IN0 to IN3, OUT0 to OUT3) is used by program `b`, and its shape: elements per row, rows. -/
def streamShape (b : List Byte) (x : Shard) (i : Nat) : Option (Nat × Nat × Nat) :=
  let kind := if i < 4 then pgInKind b i else pgOutKind b (i - 4)
  let fmt := if i < 4 then pgInFmt b i else pgOutFmt b (i - 4)
  let row := if i < 4 then kind == 2 else kind == 2 || kind == 4
  if kind = 0 then none
  else if kind = 1 then some (fmt, shRowLen x, shRows x)
  else if row then some (fmt, 1, shRows x)
  else some (fmt, shRowLen x, 1)

/-- Stream `i` of a shard in region `r` under program `b`, as a tensor: CB4 rows begin on byte boundaries (R40). -/
def streamUnder (b : List Byte) (x : Shard) (i r : Nat) : Option TDesc :=
  match streamShape b x i with
  | none => none
  | some (fmt, len, rows) =>
    if len = 1 ∧ fmt ≠ 3 then some ⟨shBase x i r, 0, false, fmt, 1, [rows, 1, 1, 1, 1], [(elemSize fmt : Nat), 0, 0, 0, 0], 0⟩
    else
      let pitch := if fmt = 3 then (len + 1) / 2 else len * elemSize fmt
      some ⟨shBase x i r, 0, false, fmt, 2, [len, rows, 1, 1, 1],
        [if fmt = 3 then 0 else (elemSize fmt : Nat), (pitch : Nat), 0, 0, 0], 0⟩

/-- Stream `i` of a shard in region `r` under the program its entry names. -/
def streamDesc (d : Dev) (x : Shard) (i r : Nat) : Option TDesc := streamUnder (progOf d (shProg x)) x i r

/-- What an owner does with a gather request. -/
inductive GatherAns where
  | serve (t : TDesc)
  | wait
  | gone
  | mismatch

/-- The entry and stream that TENSOR names: a VIEW's viewed stream, an UPDATE entry's IN0, a SPARSE entry's table, which
is its first ELEM stream. -/
def gatherStream (d : Dev) (tensor : Nat) : Option (Shard × Nat) :=
  match shardOf d tensor with
  | none => none
  | some x =>
    if shKind x = 2 then
      let v := shN x 2 2
      (shardOf d (v % 4096)).map (fun y => (y, 4 + natBits v 12 2))
    else if shKind x = 3 then
      let b := progOf d (shProg x)
      ((rangeFrom 0 8).find? (fun i => (if i < 4 then pgInKind b i else pgOutKind b (i - 4)) == 1)).map (fun i => (x, i))
    else some (x, 0)

/-- COMMIT_STATUS.STATE -/
def commitState (d : Dev) : Nat := regField d 0x1200030 0 3

/-- The region of a shard that holds a version: the first result says whether it is served, waits or is released. -/
def versionAt (d : Dev) (x : Shard) (v : Nat) : Option Nat × Bool :=
  let ahead := (v + 2 ^ 32 - x.version % 2 ^ 32) % 2 ^ 32
  if shKind x = 3 then
    if ahead = 0 then (if commitState d = 2 then (none, true) else (some 0, false))
    else (none, decide (ahead < 2 ^ 31))
  else if ahead = 0 then (some x.cur, false)
  else if ahead = 2 ^ 32 - 1 ∧ x.other = 0 ∧ x.held then (some (1 - x.cur), false)
  else (none, decide (ahead < 2 ^ 31))

/-- A gather request judged (R348). -/
def gatherJudge (d : Dev) (tensor version count fmt : Nat) : GatherAns :=
  match gatherStream d tensor with
  | none => .mismatch
  | some (x, i) =>
    match streamDesc d x i 0 with
    | none => .mismatch
    | some _ =>
      match versionAt d x version with
      | (some r, _) =>
        (match streamDesc d x i r with
         | some t => if t.fmt = fmt ∧ elemCount t = count then .serve t else .mismatch
         | none => .mismatch)
      | (none, true) => .wait
      | (none, false) => .gone

end Sys2Proof.Machine
end

