-- ==== Sys2Proof/Machine/Stream.lean ====
section
/-! DEFINITION. Streams at work: bindings bound and released, tokens granted, packets sent under them, and the local part
of each collective (R321 to R334, R348 to R360, R364 to R369). -/

namespace Sys2Proof.Machine

/-! ### What a collective sends and receives -/

/-- Elements of the part this device sends to rank `r`. -/
def sendElems (c : Coll) (r : Nat) : Nat :=
  if c.kind = 5 then (if c.kids.contains r then c.count else 0)
  else if c.kind = 7 then 0
  else if c.kind = 8 then smapGet c.sendCount 1 c.count
  else c.count

/-- Elements of the part this device receives from rank `r`. -/
def recvElems (c : Coll) (r : Nat) : Nat :=
  if c.kind = 5 then (if c.kids.contains r then 0 else c.count) else if c.kind = 7 then 0 else c.count

/-- Packets of the part this device sends to rank `r`. -/
def sendPackets (d : Dev) (c : Coll) (r : Nat) : Nat :=
  if c.kind = 2 then
    shareTotal (tdesc (ownSlot d) c.ds).fmt (chanLen c) (r * c.count) c.count 0 c.count
  else if c.kind = 5 then (if c.kids.contains r then packetsFor c.fmt c.count else 1)
  else if c.kind = 7 then 1
  else if isTree c.kind then (c.count + treePer c - 1) / treePer c
  else packetsFor c.fmt (sendElems c r)

/-- Packets of the part this device receives from rank `r`; a share part has no fixed number. -/
def recvPackets (c : Coll) (r : Nat) : Nat :=
  if c.kind = 5 then (if c.kids.contains r then 1 else packetsFor c.fmt c.count)
  else if c.kind = 7 then 1
  else if isTree c.kind then (c.count + treePer c - 1) / treePer c
  else packetsFor c.fmt c.count

/-- The element format a grant of rank `r`'s part announces. -/
def partFmt (c : Coll) (elems : Nat) : Nat := if c.kind = 2 ∨ c.kind = 7 ∨ c.kind = 17 ∨ elems = 0 then 0 else c.fmt

/-- Whether every rank below has reported (R352, R355, R356). -/
def kidsAll (c : Coll) : Bool := c.kids.all (fun k => c.kidsDone.contains k)

/-- Ranks pruned, in rank-offset order from the root (R353). -/
def prunedOrder (c : Coll) : List Nat := (allRanks c).filterMap (fun o => let r := treeRank c o; if c.pruned.contains r then some r else none)

/-- Packet `i` of the part for rank `r`, once it can be sent. -/
def collWire (d : Dev) (m : Mem) (c : Coll) (r i : Nat) : Option Wire :=
  let ds := tdesc (ownSlot d) c.ds
  let dd := tdesc (ownSlot d) c.dd
  if c.kind = 2 then some (shareWire d m c r i)
  else if c.kind = 3 then some (landingWire d m 2 ds (r * c.count) c.count i)
  else if c.kind = 4 then (if c.epoch = epochNow d then some (landingWire d m 2 ds 0 c.count i) else none)
  else if c.kind = 5 then
    if c.kids.contains r then
      if isRoot c then some (landingWire d m 2 ds 0 c.count i)
      else if c.landed.contains i then some (landingWire d m 2 dd 0 c.count i) else none
    else if r == c.parent && c.got.contains c.rank && kidsAll c then
      some ⟨2, 9, 0, leBytes 4 c.prunedCount ++ ((prunedOrder c).take 8).flatMap (fun q => leBytes 2 (rankNode c q)), false, true⟩
    else none
  else if c.kind = 7 then
    if c.kids.contains r then (if c.released then some ⟨2, 8, 0, [0#8], false, true⟩ else none)
    else if kidsAll c then some ⟨2, 7, 0, [0#8], false, true⟩ else none
  else if c.kind = 8 then
    let n := sendElems c 1
    some { landingWire d m 1 ds 0 n i with last := decide (c.count ≤ n) && decide (n ≤ (i + 1) * perPacket ds.fmt) }
  else if isTree c.kind then
    if c.kids.contains r then c.result.map (fun ps => treeWire c 6 ps i)
    else (smapFind c.partials (partKey c.rank 0)).map (fun ps => treeWire c 5 ps i)
  else none

/-- Ranks a collective still receives from under a binding; one that a TIMEOUT has stopped receives from none (R358). -/
def rxWants (c : Coll) : List Nat :=
  if c.halted then []
  else if c.kind = 1 ∨ c.kind = 3 then (if c.phase = 1 then (otherRanks c).filter (fun r => !c.got.contains r) else [])
  else if c.kind = 2 then (otherRanks c).filter (fun r => !c.got.contains r)
  else if c.kind = 4 then
    (if c.phase = 1 ∧ c.parent < c.size ∧ c.parent ≠ c.rank then [c.parent] else []).filter (fun r => !c.got.contains r)
  else if c.kind = 9 then (if c.phase = 1 then [1] else []).filter (fun r => !c.got.contains r)
  else if isTree c.kind then
    let up := c.kids.filter (fun k => !c.kidsDone.contains k)
    let down := if c.parent == c.rank || c.released || (c.kind == 5 && c.got.contains c.rank) || c.result.isSome then [] else [c.parent]
    down ++ up
  else []

/-- Ranks a collective still sends to. -/
def txWants (c : Coll) : List Nat :=
  (if c.halted then []
   else if c.kind = 2 ∨ c.kind = 3 then otherRanks c
   else if c.kind = 4 then [c.root].filter (fun r => r != c.rank)
   else if c.kind = 8 then [1]
   else if isTree c.kind then c.kids ++ (if isRoot c then [] else [c.parent])
   else []).filter (fun r => r != c.rank && !c.sent.contains r || c.kind == 8 && !c.sent.contains r)

/-! ### Packets out -/

/-- A packet of a stream (R286, R325). -/
def streamPacket (d : Dev) (peer typ sub seq off epoch : Nat) (mcast last : Bool) (payload : List Byte) : Packet :=
  sealPacket { mkPacket d typ peer sub payload with
    seq := seq, offset := off, epoch := epoch, mcast := mcast, last := last, dctx := (streamOf d peer).peerSlot }

/-- A packet sent to a peer (R322). -/
def sendStream (d : Dev) (p : Packet) : Dev := queuePacket (touchStream d p.dst) p

/-- This device's rank in the running collective of a COLL_ID; 0 where it runs none (assumption log 141, DESIGN CHOICE). -/
def noticeRank (d : Dev) (coll : Nat) : Nat := ((collById d coll).map (fun c => c.rank)).getD 0

/-- A NOTICE (R339). -/
def noticeAbout (d : Dev) (peer sub coll node rank : Nat) : Dev :=
  sendStream d (streamPacket d peer 7 sub 0 0 (epochNow d) false false (leBytes 2 coll ++ leBytes 2 node ++ leBytes 2 rank))

/-- A NOTICE of this device about itself. -/
def sendNotice (d : Dev) (peer sub coll : Nat) : Dev := noticeAbout d peer sub coll (ownNode d) (noticeRank d coll)

/-- One GRANT entry (R340). -/
def grantEntry (b flags coll epoch fmt limit ack count : Nat) : List Byte :=
  leBytes 1 b ++ leBytes 1 flags ++ leBytes 2 coll ++ leBytes 2 epoch ++ leBytes 1 fmt ++ leBytes 1 0 ++
    leBytes 4 limit ++ leBytes 4 ack ++ leBytes 4 count ++ leBytes 4 0

/-- The latest entry of a receiving binding (R326, R340). -/
def rxEntry (d : Dev) (peer b : Nat) : List Byte :=
  let x := rxOf d peer b
  match x.coll with
  | none => grantEntry b 0 0 0 0 x.limit x.low 0
  | some n =>
    match collFind d n with
    | none => grantEntry b 0 0 0 0 x.limit x.low 0
    | some c =>
      let fresh := x.base == x.low && x.seen.isEmpty
      let k := recvElems c x.rank
      grantEntry b (fresh.toNat + 2 * x.share.toNat) c.id c.epoch (partFmt c k) x.limit x.low k

/-- A GRANT packet of SUB `sub`; none follows the last one to a drained peer (R359). -/
def grantPacket (d : Dev) (peer sub : Nat) (entries : List Byte) : Dev :=
  if drainOver d peer then d else sendStream d (streamPacket d peer 6 sub 0 0 (epochNow d) false false entries)

/-- A GRANT packet with one entry for each binding named. -/
def sendGrant (d : Dev) (peer : Nat) (bs : List Nat) : Dev :=
  let d1 := bs.foldl (fun e b => modRx e peer b (fun x => { x with unacked := 0, lastAt := d.boot.aonNs })) d
  (chunksOf 10 bs.length bs).foldl (fun e l => grantPacket e peer 0 (l.flatMap (rxEntry d1 peer))) d1

/-- A gather request whose reply has not all come is outstanding no more (R348). -/
def unask (d : Dev) (peer b : Nat) : Dev :=
  let x := rxOf d peer b
  match x.coll.bind (collFind d) with
  | some c => if c.kind = 1 ∧ x.got < c.count then modStream d peer (fun x => { x with asked := x.asked - 1 }) else d
  | none => d

/-- A binding this device closes: its last entry says so, and its tokens are written off (R358). -/
def closeRx (d : Dev) (peer b : Nat) : Dev :=
  let x := rxOf d peer b
  let id := match x.coll.bind (collFind d) with | some c => (c.id, c.epoch) | none => (0, 0)
  let d1 := grantPacket (unask d peer b) peer 0 (grantEntry b (4 + 2 * x.share.toNat) id.1 id.2 0 x.limit x.low 0)
  modRx (writeOff d1 peer b) peer b (fun x => { x with coll := none, closed := true })

/-- Tokens a sender will not use go back (R330). -/
def returnTokens (d : Dev) (peer b count fmt : Nat) : Dev :=
  let t := txOf d peer b
  let d1 := grantPacket d peer 1 (grantEntry b 0 t.gColl t.gEpoch fmt (seqAdd t.next (2 ^ 32 - 1)) t.ack count)
  modTx d1 peer b (fun t => { t with limit := t.next })

/-- A sender stops using a binding: the tokens it holds go back, and those it has spent stay on its books until they are
acknowledged (R329, R358). -/
def txStop (d : Dev) (peer b : Nat) : Dev :=
  let t := txOf d peer b
  modTx (if t.next = t.limit then d else returnTokens d peer b 0 0) peer b
    (fun t => { t with use := 0, req := none, open_ := false, limit := t.next, retries := [], times := [] })

/-! ### Grants -/

/-- GRANT_MAX in effect (R362). -/
def grantMax (d : Dev) : Nat := max 1 (min 1024 (regField d 0x1100000 0 11))

/-- Whether share bucket `b` of a shard may take a contribution that has not begun: OPEN, and not already spoken for
(R365, R366). -/
def bucketTakes (d : Dev) (t : Nat) (x : Shard) (b : Nat) (begun : Bool) : Bool :=
  let s := shFirst x + b
  let busy := (d.ni.streams.flatMap (fun e => e.2.rx)).filter (fun r =>
    r.2.share && r.2.limit != r.2.base && decide (smapGet r.2.buckets b 0 < bktElems x b) &&
      (match r.2.coll with | some n => ((collFind d n).map (fun c => c.shard == t)).getD false | none => false))
  bktState d s == 1 && (begun || decide (bktGet d s 16 24 + busy.length < bktGet d s 40 24))

/-- Whether a contribution of rank `r` may be granted shares now, its elements per bucket so far given (R365, R369,
R394). -/
def shareMay (d : Dev) (c : Coll) (r : Nat) (done : SMap Nat) (begun : Bool) : Bool :=
  match shardOf d c.shard with
  | none => false
  | some x =>
    commitState d != 4 &&
      (rangeFrom 0 (shBuckets x)).all (fun b => decide (bktElems x b ≤ smapGet done b 0) || bucketTakes d c.shard x b begun) &&
      (!shOrdered x || ((rangeFrom 0 r).all (fun q => c.got.contains q) &&
        d.ni.colls.all (fun e => !(e.kind == 2 && e.shard == c.shard && decide (e.num < c.num) &&
          (allRanks e).any (fun q => !e.got.contains q)))))

/-- Whether this device may grant tokens to a binding of a collective now (R334, R350, R351, R359). -/
def mayGrant (d : Dev) (peer : Nat) (c : Coll) : Bool :=
  let t := tdesc (ownSlot d) c.dd
  let u := tdesc (ownSlot d) c.ds
  !(streamOf d peer).flagged && !natBit d.ni.draining peer && (isMessage c.kind || decide (16 ≤ c.kind) || !epochOld d c.epoch) &&
    (c.kind != 4 || (c.epoch == epochNow d &&
      (c.sent.contains c.root || decide (spanHi t < spanLo u) || decide (spanHi u < spanLo t))))

/-- Tokens by which LIMIT of a binding may rise (R327). -/
def rxQuota (d : Dev) (peer b : Nat) : Nat :=
  let x := rxOf d peer b
  match x.coll with
  | none => 0
  | some n =>
    match collFind d n with
    | none => 0
    | some c =>
      if !mayGrant d peer c || x.returned then 0
      else
        let need := if x.share then
            (if shareMay d c x.rank x.buckets (x.limit != x.base) then (c.count - x.got + 63) / 64 - rxOut x else 0)
          else recvPackets c x.rank - seqDist x.base x.limit
        min need (min (1024 - rxOut x) (grantMax d - tokensOut (streamOf d peer)))

/-- LIMIT raised as far as it may be. -/
def rxRaise (d : Dev) (peer b : Nat) : Dev :=
  let q := rxQuota d peer b
  modRx d peer b (fun x => { x with limit := seqAdd x.limit q })

/-- A binding of a receiver that is free (R324). -/
def rxFree (d : Dev) (peer : Nat) : Option Nat :=
  (rangeFrom 0 16).find? (fun b => let x := rxOf d peer b; x.coll.isNone && rxOut x == 0)

/-- Whether binding a part of a collective is announced by a packet of its own: a gather's, or an adopted part of a
multicast's. -/
def announces (c : Coll) (r : Nat) : Bool := c.kind == 1 || (c.kind == 5 && c.kids.contains r && treeParent c r != c.rank)

/-- A collective's request to the owner of rank `r` (R348), or its adoption of a multicast's orphan (R353). These packets
have no token; SEQ holds their COLL_ID (assumption log 23, DESIGN CHOICE). -/
def announce (d : Dev) (c : Coll) (peer b r : Nat) : Dev :=
  if !announces c r then d
  else if c.kind = 1 then
    let p := leBytes 2 (dword c.block 3 32 16) ++ leBytes 4 (dword c.block 3 0 32) ++ leBytes 4 c.count ++
      leBytes 1 c.fmt ++ leBytes 1 b
    sendStream d (streamPacket d peer 2 2 c.id (b * 2 ^ 38) c.epoch false false p)
  else sendStream d (streamPacket d peer 2 4 c.id (b * 2 ^ 38) c.epoch false false (leBytes 2 c.root ++ leBytes 2 c.rank))

/-- A binding bound to the part of rank `r`, and announced (R324, R326). -/
def rxBind (d : Dev) (c : Coll) (r : Nat) : Dev :=
  let peer := rankNode c r
  let bound := (rangeFrom 0 16).any (fun b => let x := rxOf d peer b; x.coll == some c.num && x.rank == r)
  if bound || !isMember d peer || (slotOf d peer).isNone || (streamOf d peer).flagged || natBit d.ni.draining peer ||
      (c.kind == 1 && decide (4 ≤ (streamOf d peer).asked)) || !mayGrant d peer c then d
  else
    match rxFree d peer with
    | none => d
    | some b =>
      let d1 := modRx d peer b (fun x => { x with
        coll := some c.num, rank := r, base := x.low, limit := x.low, seen := [], got := 0, buckets := [], returned := false, share := c.kind == 2, closed := false, unacked := 0, tries := 0, askedAt := d.boot.aonNs })
      let d2 := announce (sendGrant (rxRaise d1 peer b) peer [b]) c peer b r
      if c.kind = 1 then modStream d2 peer (fun x => { x with asked := x.asked + 1 }) else d2

/-! ### Sending -/

/-- A multicast child that is fenced: it is pruned and its children are adopted (R353). -/
def pruneKid (d : Dev) (n r : Nat) : Dev :=
  match collFind d n with
  | none => d
  | some c =>
    if !c.kids.contains r || c.pruned.contains r then d
    else
      let d1 := modColl (regBump d 0x110003C 1) n (fun c => { c with
        kids := c.kids.filter (fun k => k != r) ++ (treeKids c r).filter (fun k => !c.kids.contains k)
        pruned := keyInsert c.pruned r, prunedCount := c.prunedCount + 1
        status := max c.status 1, bad := keyInsert c.bad r })
      let peer := rankNode c r
      let d2 := (rangeFrom 0 16).foldl (fun e b =>
        if (rxOf e peer b).coll = some n then modRx (writeOff e peer b) peer b (fun x => { x with coll := none, closed := true }) else e) d1
      (rangeFrom 0 16).foldl (fun e b =>
        let t := txOf e peer b
        if t.use = 1 ∧ t.coll = n then
          modTx e peer b (fun t => { t with use := 0, open_ := false, next := t.limit, ack := t.limit, retries := [], times := [] })
        else e) d2

/-- A collective can reach rank `r` no more: a multicast's child is pruned, any other part fails with FENCED (R306, R353,
R359). -/
def fencePart (d : Dev) (n r : Nat) : Dev :=
  match collFind d n with
  | some c => if c.kind = 5 ∧ c.kids.contains r then pruneKid d n r else failRank d n r 2
  | none => d

/-- The network interface has refused to inject a packet for a collective to a node outside the slice (R306, R353). -/
def fenceRefused (d : Dev) (n r : Nat) : Dev := fencePart (regBump d 0x100005C 1) n r

/-- Ranks of a tree below its root, those nearer the root first. -/
def treeOrder (c : Coll) : List Nat := (rangeFrom 1 (c.size - 1)).map (treeRank c)

/-- The children of a running multicast that are outside the slice: what goes to them is refused, and they are pruned, those
adopted from a pruned child among them (R306, R353). -/
def pruneOut (d : Dev) (n : Nat) : Dev :=
  match collFind d n with
  | some c =>
    if c.kind = 5 ∧ c.phase = 1 then
      (treeOrder c).foldl (fun e r =>
        if ((collFind e n).map (fun k => k.kids.contains r && !isMember e (rankNode k r))).getD false then fenceRefused e n r else e) d
    else d
  | none => d

/-- The wire of packet `i` under a sending binding. -/
def txWire (w : Work) (t : TxBind) (i : Nat) : Option Wire :=
  if t.use = 1 then (collFind w.dev t.coll).bind (fun c => collWire w.dev w.mem c t.rank i)
  else match t.req with
    | some q =>
      (match gatherJudge w.dev q.tensor q.version q.count q.fmt with
       | .serve td => some (landingWire w.dev w.mem 2 td 0 q.count i)
       | _ => none)
    | none => none

/-- Packets of the part under a sending binding. -/
def txTotal (d : Dev) (t : TxBind) : Nat :=
  if t.use = 1 then ((collFind d t.coll).map (fun c => sendPackets d c t.rank)).getD 0
  else match t.req with | some q => packetsFor q.fmt q.count | none => 0

/-- The packet of SEQ `seq` under a sending binding. -/
def txPacket (w : Work) (peer b : Nat) (t : TxBind) (x : Wire) (seq : Nat) : Packet :=
  let mc := t.use == 1 && ((collFind w.dev t.coll).map (fun c => c.kind == 5 && x.sub == 0)).getD false
  streamPacket w.dev peer x.typ (x.sub + 128 * x.bad.toNat) seq (x.off + b * 2 ^ 38) t.gEpoch mc x.last x.payload

/-- Packets sent while tokens last and parts are ready (R326). -/
def txPump (w : Work) (peer b fuel : Nat) : Work :=
  match fuel with
  | 0 => w
  | fuel + 1 =>
    let t := txOf w.dev peer b
    let i := seqDist t.base t.next
    if t.use = 0 || t.next == t.limit || decide (txTotal w.dev t ≤ i) then w
    else
      match txWire w t i with
      | none => w
      | some x =>
        if !isMember w.dev peer then
          (if t.use = 1 then wDev w (fun d => fenceRefused d t.coll t.rank)
           else wDev w (fun d => modTx (regBump d 0x100005C 1) peer b (fun t => { t with use := 0, req := none })))
        else
          let d1 := sendStream w.dev (txPacket w peer b t x t.next)
          let d2 := modTx d1 peer b (fun t => { t with next := seqAdd t.next 1, times := smapSet t.times t.next w.dev.boot.aonNs })
          let d3 := if x.bad && t.use == 1 then markRank d2 t.coll t.rank 6 else d2
          txPump { w with dev := d3 } peer b fuel

/-- A part is sent and acknowledged: surplus tokens return, and the binding is done (R330). -/
def txFinish (w : Work) (peer b : Nat) : Work :=
  let t := txOf w.dev peer b
  let total := txTotal w.dev t
  if t.use = 0 || seqDist t.base t.next != total then w
  else
    let d1 := if t.next != t.limit || (total == 0 && t.use == 1) then
        (let c := collFind w.dev t.coll
         returnTokens w.dev peer b (if t.use = 1 then (c.map (fun c => c.count)).getD 0 else total)
           (if t.use = 1 then (c.map (fun c => c.fmt)).getD 0 else 0))
      else w.dev
    if t.ack = t.next then
      let d2 := modTx d1 peer b (fun t => { t with use := 0, req := none, open_ := false, retries := [], times := [] })
      { w with dev := if t.use = 1 then
          modColl d2 t.coll (fun c => { c with
            sent := keyInsert c.sent t.rank
            elements := c.elements + (if c.kind = 2 then c.count else 0) }) else d2 }
    else { w with dev := d1 }

/-- Whether a standing grant answers what a collective sends to a rank (R342, R357). A message has no epoch of its own
(assumption log 142, DEDUCED). -/
def grantMatches (c : Coll) (t : TxBind) (peer : Nat) : Option Nat :=
  if c.phase = 0 || c.id != t.gColl || (c.kind != 8 && c.epoch != t.gEpoch) || t.gShare != (c.kind == 2) then none
  else
    (txWants c).find? (fun r => rankNode c r == peer &&
      (c.kind == 8 || (t.gCount == sendElems c r && t.gFmt == partFmt c (sendElems c r))))

/-- Whether an earlier grant of the stream still waits for the next message (R357; assumption log 142, DEDUCED). -/
def grantBehind (x : Stream) (c : Coll) (t : TxBind) (peer : Nat) : Bool :=
  c.kind == 8 && x.tx.any (fun e => e.2.open_ && e.2.use == 0 && decide (e.2.order < t.order) && (grantMatches c e.2 peer).isSome)

/-- A standing grant put to use: by the oldest collective it answers, or by the gather request that named it
(R324, R348). -/
def txMatch (d : Dev) (peer b : Nat) : Dev :=
  let x := streamOf d peer
  let t := txOf d peer b
  if !t.open_ || t.use != 0 then d
  else
    match d.ni.colls.find? (fun c => (grantMatches c t peer).isSome && !grantBehind x c t peer &&
        !(x.tx.any (fun e => e.2.use == 1 && e.2.coll == c.num))) with
    | some c =>
      let r := (grantMatches c t peer).getD 0
      let d1 := modTx d peer b (fun t => { t with use := 1, coll := c.num, rank := r, base := t.next, retries := [], times := [] })
      if c.kind = 8 then
        let same := t.gFmt == c.fmt
        let d2 := modColl d1 c.num (fun c => { c with sendCount := [(1, if same then min c.count t.gCount else 0)] })
        if same && t.gCount == c.count then d2 else markRank d2 c.num 1 9
      else d1
    | none =>
      match x.reqs.find? (fun q => q.bind == b && q.coll == t.gColl) with
      | none => d
      | some q =>
        let drop := fun (d : Dev) => modStream d peer (fun x => { x with reqs := x.reqs.erase q })
        match gatherJudge d q.tensor q.version q.count q.fmt with
        | .serve _ => modTx (drop d) peer b (fun t => { t with use := 2, req := some q, base := t.next, retries := [], times := [] })
        | .wait => d
        | .gone => sendNotice (drop d) peer 1 q.coll
        | .mismatch => sendNotice (drop d) peer 4 q.coll

/-! ### The local part -/

/-- A part that stays on this device moves (R347, R348). -/
def localMove (w : Work) (c : Coll) (src : TDesc) (first dst : Nat) : Work :=
  let vs := partElems w.dev w.mem src first c.count
  let w1 := putElems w (tdesc (ownSlot w.dev) c.dd) dst vs
  let w2 := wDev w1 (fun d => modColl d c.num (fun c => { c with got := keyInsert c.got c.rank, elements := c.elements + c.count }))
  if vs.any (fun v => v.2) then wDev w2 (fun d => markRank d c.num c.rank 6) else w2

/-- Shares of this device's own part, as its packets would carry them, added bucket by bucket (R364). -/
def ownShares (w : Work) (c : Coll) (x : Shard) (is : List Nat) : Work :=
  match is with
  | [] => w
  | i :: t =>
    let fmt := (tdesc (ownSlot w.dev) c.ds).fmt
    let p := shareStart fmt (chanLen c) (c.rank * c.count) c.count i
    let n := shareSize fmt (chanLen c) (c.rank * c.count) c.count p
    let z := shareWire w.dev w.mem c c.rank i
    let w1 := if z.bad then
        ((shSlots x).zipIdx.filter (fun s => decide (8192 * s.2 < p + n ∧ p < 8192 * (s.2 + 1)))).foldl
          (fun w s => bktTaint w s.1) (wDev w (fun d => markRank d c.num c.rank 6))
      else bktAddAll w x p (shareValues w.dev fmt (shN x 20 1) n z.payload)
    ownShares w1 c x t

/-- The local part of a running collective, when it can move. -/
def localPart (w : Work) (c : Coll) : Work :=
  let ds := tdesc (ownSlot w.dev) c.ds
  if c.phase ≠ 1 then w
  else if c.kind = 1 ∧ !c.got.contains c.rank then
    match gatherJudge w.dev (dword c.block 3 32 16) (dword c.block 3 0 32) c.count c.fmt with
    | .serve t => localMove w c t 0 (c.rank * c.count)
    | .wait => w
    | .gone => wDev w (fun d => failRank d c.num c.rank 3)
    | .mismatch => wDev w (fun d => failRank d c.num c.rank 12)
  else if c.kind = 2 ∧ !c.got.contains c.rank ∧ shareMay w.dev c c.rank [] false then
    match shardOf w.dev c.shard with
    | none => w
    | some x =>
      let w1 := ownShares w c x (rangeFrom 0 (sendPackets w.dev c c.rank))
      let w2 := wDev w1 (fun d => modColl d c.num (fun c => { c with
        got := keyInsert c.got c.rank, sent := keyInsert c.sent c.rank, elements := c.elements + c.count }))
      (shSlots x).foldl bktArrive w2
  else if c.kind = 3 ∧ !c.got.contains c.rank then
    wDev (localMove w c ds (c.rank * c.count) (c.rank * c.count)) (fun d => modColl d c.num (fun c => { c with sent := keyInsert c.sent c.rank }))
  else if c.kind = 4 ∧ c.root = c.rank ∧ c.got.isEmpty ∧ c.parent = c.size ∧ c.epoch = epochNow w.dev ∧ !draining w.dev then
    wDev (localMove w c ds 0 0) (fun d => modColl d c.num (fun c => { c with sent := keyInsert c.sent c.rank }))
  else w

/-! ### The tree (R352 to R356, R384) -/

/-- This device's own pairs: values and indices (R355), or the vector of an exchange kept for it. -/
def ownPairs (w : Work) (c : Coll) : List Pair × Bool :=
  if c.kind = 6 then
    let vs := partElems w.dev w.mem (tdesc (ownSlot w.dev) c.ds) 0 c.count
    let is := partElems w.dev w.mem (tdesc (ownSlot w.dev) c.si) 0 c.count
    ((vs.zip is).map (fun p => ⟨wide c.fmt p.1.1, p.2.1, c.rank, p.1.2 || p.2.2⟩), vs.any (fun v => v.2) || is.any (fun v => v.2))
  else (smapGet c.partials (partKey c.size 0) [], false)

/-- Children's vectors joined to this device's own, in ascending rank. -/
def subtreePairs (c : Coll) (own : List Pair) : List Pair :=
  let g := if c.kind = 17 then (fun a b : Pair => { a with val := f32Add a.val b.val }) else pairPick c.min
  ((allRanks c).filter (fun r => c.kids.contains r)).foldl (fun acc k => joinPairs g acc (rankVector c k)) own

/-- A reduction's result taken: CRED writes it (R355), a vote keeps it (R392), an exchange waits for its fold. -/
def takeResult (w : Work) (c : Coll) (ps : List Pair) : Work :=
  let w1 := wDev w (fun d => modColl d c.num (fun c => { c with result := some ps, released := true }))
  if c.kind = 6 then
    let w2 := putElems w1 (tdesc (ownSlot w.dev) c.dd) 0 (ps.map (fun p => (narrowTo c.fmt (fOf32 p.val), p.bad)))
    wDev (putElems w2 (tdesc (ownSlot w.dev) c.di) 0 (ps.map (fun p => (p.idx, p.bad))))
      (fun d => modColl d c.num (fun c => { c with elements := c.count }))
  else if c.kind = 16 then
    let a := listGet ps 0 ⟨0#32, 0, 0, false⟩
    let b := listGet ps 1 ⟨0#32, 0, 0, false⟩
    wDev w1 (fun d => { d with upd := { d.upd with
      result := some ((dyToInt (match fOf32 a.val with | .fin v => v | _ => ⟨false, 0, 0⟩)).toNat, a.idx, 0xFFFFFFFF - b.idx) } })
  else w1

/-- A tree collective moves on when everything below it is here. -/
def treeStep (w : Work) (c : Coll) : Work :=
  if !isTree c.kind || c.phase == 0 || c.released || !kidsAll c then w
  else if c.kind = 7 then (if isRoot c then wDev w (fun d => modColl d c.num (fun c => { c with released := true })) else w)
  else if c.kind = 5 then w
  else if (smapFind c.partials (partKey c.rank 0)).isSome then w
  else
    let own := ownPairs w c
    let w1 := if own.2 then wDev w (fun d => markRank d c.num c.rank 6) else w
    let ps := subtreePairs c own.1
    if isRoot c then takeResult w1 c ps
    else wDev w1 (fun d => modColl d c.num (fun c => { c with partials := smapSet c.partials (partKey c.rank 0) ps }))

/-! ### Settling -/

/-- A CPERM's offer leaves (R351). -/
def offerSend (d : Dev) (c : Coll) : Dev :=
  sendStream d (streamPacket d (rankNode c c.root) 2 3 c.id 0 c.epoch false false (leBytes 4 c.count ++ leBytes 1 c.fmt ++ leBytes 1 0))

/-- A CPERM sender's offer (R351), made once its epoch is current and the peer's stream is resident. `upSent` says it has
been made. -/
def permOffer (d : Dev) (c : Coll) : Dev :=
  if c.kind = 4 && c.phase == 1 && !c.upSent && c.root != c.rank && c.epoch == epochNow d && !draining d &&
      (slotOf d (rankNode c c.root)).isSome && !c.sent.contains c.root then
    modColl (offerSend d c) c.num (fun c => { c with upSent := true, offerAt := d.boot.aonNs })
  else d

/-- Whether a packet is an offer that a CPERM of this device could bind (R351). -/
def offerFor (c : Coll) (p : Packet) : Bool :=
  p.typ == 2 && p.sub % 128 == 3 && p.seq == c.id && p.epoch == c.epoch && c.group.contains p.src &&
    payNat p 0 4 == c.count && payNat p 4 1 == c.fmt

/-- A CPERM whose epoch is current binds the first offer that waits for it, and refuses the others (R351). -/
def permTake (d : Dev) (c : Coll) (ps : List Packet) : Dev :=
  match ps with
  | [] => d
  | p :: t =>
    let d1 := { d with ni := { d.ni with ejected := d.ni.ejected.erase p } }
    let c1 := (collFind d1 c.num).getD c
    if c1.parent = c1.size ∧ c1.got.isEmpty then
      permTake (modColl d1 c.num (fun e => { e with parent := (nodeRank c p.src).getD c.size })) c t
    else if nodeRank c p.src = some c1.parent then permTake d1 c t
    else permTake (sendNotice d1 p.src 3 c.id) c t

/-- Waiting offers taken by a running CPERM. -/
def permOffers (d : Dev) (c : Coll) : Dev :=
  if c.kind = 4 ∧ c.phase = 1 ∧ c.epoch = epochNow d ∧ !draining d then permTake d c (d.ni.ejected.filter (offerFor c)) else d

/-- One collective moves on: its local part, its tree, its offer and its bindings. -/
def settleColl (w : Work) (n : Nat) : Work :=
  match collFind w.dev n with
  | none => w
  | some c =>
    if c.phase = 0 then w
    else
      let w0 := wDev w (fun d => pruneOut d n)
      let w1 := localPart w0 ((collFind w0.dev n).getD c)
      let w2 := match collFind w1.dev n with | some c => treeStep w1 c | none => w1
      let w3 := wDev w2 (fun d => permOffers (permOffer d c) c)
      match collFind w3.dev n with
      | some c => wDev w3 (fun d => (rxWants c).foldl (fun e r => rxBind e c r) d)
      | none => w3

/-- One binding of a stream moves on in both directions. -/
def settleBind (w : Work) (peer b : Nat) : Work :=
  let w1 := wDev w (fun d =>
    if rxOut (rxOf d peer b) = 0 ∧ 0 < rxQuota d peer b then sendGrant (rxRaise d peer b) peer [b] else d)
  let w2 := wDev w1 (fun d => txMatch d peer b)
  txFinish (txPump w2 peer b 1024) peer b

/-- A receiving binding is released once its collective has completed and every token has been consumed, returned or
written off (R324); a share binding, once its contribution has counted. -/
def releaseRx (d : Dev) (peer b : Nat) : Dev :=
  let x := rxOf d peer b
  match x.coll with
  | none => d
  | some n =>
    match collFind d n with
    | none => if rxOut x = 0 then modRx d peer b (fun x => { x with coll := none }) else d
    | some c =>
      if rxOut x = 0 ∧ c.phase = 2 ∧ (rxWants c).all (fun r => r != x.rank) then
        modRx d peer b (fun x => { x with coll := none })
      else d

/-- Whether a binding still serves collective `n`. -/
def collBound (d : Dev) (n : Nat) : Bool :=
  d.ni.streams.any (fun e => e.2.rx.any (fun b => b.2.coll == some n) || e.2.tx.any (fun b => b.2.use == 1 && b.2.coll == n))

/-- Collectives that have completed for their core and have nothing left to move are forgotten. -/
def dropColls (d : Dev) : Dev :=
  { d with ni := { d.ni with colls := d.ni.colls.filter (fun c =>
      c.phase != 2 || collBound d c.num || !(txWants c).isEmpty || !(rxWants c).isEmpty) } }

/-- Every resident stream and every collective moves on as far as it can. -/
def niPass (w : Work) : Work :=
  let w1 := (w.dev.ni.colls.map (fun c => c.num)).foldl settleColl w
  let w2 := (residents w1.dev).foldl (fun v p => (rangeFrom 0 16).foldl (fun u b => settleBind u p b) v) w1
  wDev w2 (fun d => (residents d).foldl (fun e p => (rangeFrom 0 16).foldl (fun f b => releaseRx f p b) e) d)

/-- The network interface moves on as far as it can. -/
def niSettle (w : Work) : Work := wDev (niPass (niPass w)) dropColls

end Sys2Proof.Machine
end

