-- ==== Sys2Proof/Machine/Time.lean ====
section
/-! DEFINITION. Global time, halyard messages, the beat grid's configuration and the events of lateness (R252 to R273). -/

namespace Sys2Proof.Machine

/-! ### Records -/

/-- A time or beat record that concerns no core: the grid beat and the largest live lag (R469; assumption log 30, DEDUCED). -/
def beatRec (d : Dev) (ev cls : Nat) : Dev :=
  postRecord d (recOf ev cls 0xFF (leBytes 8 (gridBeat d (gtimeNs d)) ++ leBytes 4 (min (lagMax d).1 0xFFFFFFFF)))

/-! ### Setting and correcting GTIME (R257, R258) -/

/-- GTIME, in sixteenths, set. -/
def setGt (d : Dev) (g : Nat) : Dev := { d with tm := { d.tm with gt := g % 2 ^ 68 } }

/-- The correction of R258 for an offset in sixteenths. -/
def correctTime (d : Dev) (o : Int) : Dev :=
  if 16000 < o then beatRec (setGt { d with tm := { d.tm with slew := 0 } } (d.tm.gt + o.toNat)) 0x0D05 0
  else
    let d1 := { d with tm := { d.tm with slew := o } }
    if o < -16000 then beatRec d1 0x0D05 0 else d1

/-- One nanosecond of the local oscillator. A pending slew moves GTIME by a sixteenth in each 313 ns, within the 200 ppm
of R258. -/
def tickGt (d : Dev) : Dev :=
  let turn := d.boot.aonNs % 313 == 0
  if turn && decide (0 < d.tm.slew) then
    setGt { d with tm := { d.tm with slew := d.tm.slew - 1 } } (d.tm.gt + 17)
  else if turn && decide (d.tm.slew < 0) then
    setGt { d with tm := { d.tm with slew := d.tm.slew + 1 } } (d.tm.gt + 15)
  else setGt d (d.tm.gt + 16)

/-! ### The parent's messages (R257, R258) -/

/-- A corrected message of the parent: its offset, and what the time state makes of it (R257, R258). -/
def parentMessage (d : Dev) (o : Int) : Dev :=
  let near := decide (-32 ≤ o ∧ o ≤ 32)
  let t := { d.tm with offset := o, good := if near then min 16 (d.tm.good + 1) else 0 }
  if t.st = 2 then correctTime { d with tm := t } o
  else if t.st = 1 then
    let d1 :=
      if t.fromHoldover then correctTime { d with tm := t } o
      else if t.setDue then
        setGt { d with tm := { t with setDue := false, good := 0 } } (Int.ofNat d.tm.gt + o).toNat
      else { d with tm := t }
    if t.good = 16 then { d1 with tm := { d1.tm with st := 2, fromHoldover := false } } else d1
  else d

/-! ### Halyard messages (R254, R255, R261, R277, R278) -/

/-- This device's halyard message numbered `seq`, as 16 bytes (R254). -/
def halyardBytes (d : Dev) (seq : Nat) : List Byte :=
  leBytes 16 (d.tm.gt % 2 ^ 68 + d.tm.rootNode % 2 ^ 16 * 2 ^ 68 + d.tm.depth % 64 * 2 ^ 84 + d.tm.st % 4 * 2 ^ 90 +
    (if beatEnable d then beatCheck d else 0) * 2 ^ 92 + ownSlice d * 2 ^ 108 + seq % 256 * 2 ^ 118)

/-- The beat configuration checked against the message that port `p` has just heard: a difference is recorded once for each
change of either value, and one that has gone may be recorded again (R261). -/
def settleCheck (d : Dev) (p : Nat) : Dev :=
  match smapFind d.tm.heard p with
  | none => d
  | some h =>
    let mine := if beatEnable d then beatCheck d else 0
    let theirs := h.2.2.2.2
    let bad := h.2.2.2.1 == ownSlice d && theirs != 0 && mine != 0 && mine != theirs
    if !bad then { d with tm := { d.tm with mismatch := smapDrop d.tm.mismatch (fun k => k == p) } }
    else if smapFind d.tm.mismatch p = some (mine, theirs) then d
    else beatRec (regPutField { d with tm := { d.tm with mismatch := smapSet d.tm.mismatch p (mine, theirs) } } 0x200120 1 1 1) 0x0D03 2

/-- The LANE field of the control slots this end sends (R415). -/
def laneField (d : Dev) (p : Nat) : List Byte :=
  let x := linkOf d p
  let r := if x.opDone then (0, 0, 0) else x.req.getD (0, 0, 0)
  let l := portLane d p r.2.1
  padTo 20 (leBytes 1 r.1 ++ leBytes 1 (r.2.1 % 8 + 8 * (r.2.2 % 32)) ++ leBytes 1 x.opNum ++ leBytes 1 x.opEcho ++
    leBytes 2 (if r.1 = 4 then x.stepEye else l.eye) ++ leBytes 2 l.rxPwr ++ leBytes 1 x.step ++ leBytes 1 l.test)

/-- The control slot this end sends on port `p` now, with the halyard message that waits for it (R277, R278). -/
def controlSlot (d : Dev) (p : Nat) : List Byte :=
  let x := linkOf d p
  let ack := match x.waiting with
    | (f, _) :: _ => (f + 2 ^ 16 - 1) % 2 ^ 16
    | [] => (x.rxNext + 2 ^ 16 - 1) % 2 ^ 16
  let rs := (rangeFrom 0 4).flatMap (fun i =>
    match x.ranges[i]? with
    | some (a, b) => leBytes 2 a ++ leBytes 2 b
    | none => leBytes 2 1 ++ leBytes 2 0)
  let hold := match x.echo with | some (_, t) => d.tm.gt - t | none => 0
  let seq := match x.echo with | some (s, _) => s | none => 0
  let hal := match x.halDue with | some n => halyardBytes d n | none => leBytes 16 0
  padTo 288 (hal ++ leBytes 1 (x.halDue.isSome.toNat + 2 * x.echo.isSome.toNat) ++ leBytes 3 0 ++ leBytes 2 x.nextLseq ++
    leBytes 2 ack ++ leBytes 1 x.reqNum ++ leBytes 1 x.reqSeen ++ leBytes 2 0 ++ rs ++ laneField d p ++
    leBytes 1 seq ++ leBytes 3 0 ++ leBytes 4 hold)

/-- The markers of the lanes this end sends on, lane 0 first (R413). -/
def laneMarkers (d : Dev) (p : Nat) : List Byte :=
  let x := linkOf d p
  ((rangeFrom 0 8).filter (fun l => natBit x.mask l)).flatMap (fun l =>
    let b := leBytes 1 l ++ leBytes 1 x.mask ++ leBytes 1 (x.gen % 16) ++ leBytes 1 (ownMode d p) ++ leBytes 3 0
    b ++ leBytes 1 (crc8 b))

/-- One port's control slot and markers leave; the departure of a halyard message is kept (R255, R413). -/
def sendControl (d : Dev) (p : Nat) : Dev :=
  let d1 := emit (emit d (.markers p (laneMarkers d p))) (.control p (controlSlot d p))
  modLink d1 p (fun x => match x.halDue with
    | some n => { x with departs := smapSet x.departs n d.tm.gt, halDue := none }
    | none => x)

/-- HALYARD_SEND: at each microsecond of GTIME a message is called for on every trained port; it leaves in the port's next
control slot (R254, R278). -/
def execHalyardSend (s : State) : Host.Outcome State Fault Refusal :=
  let d := s.dev
  let us := gtimeNs d / 1000
  finishDev s (if us = d.tm.tickUs then d
  else
    let d1 := (upPorts d).foldl (fun e p => modLink e p (fun x => { x with halDue := some (d.tm.seq % 256) })) d
    { d1 with tm := { d1.tm with seq := (d.tm.seq + 1) % 256, tickUs := us } })

/-- Bits of a halyard message. -/
def halBits (m : BitVec 128) (lo w : Nat) : Nat := bvBits m lo w

/-- A halyard message arrives on port `p` (R253, R255, R257, R258, R261, R310). -/
def halyardArrive (d : Dev) (p : Nat) (m : BitVec 128) : Dev :=
  let slice := halBits m 108 10
  let d1 := { d with tm := { d.tm with
    heard := smapSet d.tm.heard p (halBits m 68 16, halBits m 84 6, halBits m 90 2, slice, halBits m 92 16)
    heardAt := if halBits m 90 2 != 0 && halBits m 68 16 != ownNode d then d.boot.aonNs else d.tm.heardAt } }
  let d2 := regPutField (modLink d1 p (fun x => { x with echo := some (halBits m 118 8, d.tm.gt) })) (portOff p + 4) 0 10 slice
  let d3 := chooseRoot (settleCheck (settleFence d2 p) p)
  if d3.tm.parent = p ∧ !d3.tm.root then
    let x := linkOf d3 p
    parentMessage d3 (Int.ofNat (halBits m 0 68) + (Int.ofNat (nearDiv x.rtt 2) + x.asym) - Int.ofNat d3.tm.gt)
  else d3

/-- HALYARD_RECEIVE (R255). -/
def execHalyardReceive (port : Nat) (msg : BitVec 128) (s : State) : Host.Outcome State Fault Refusal :=
  finishDev s (if portSt s.dev port = 2 ∧ port < 39 then halyardArrive s.dev port msg else s.dev)

/-- Messages heard, none of which now offers a root; the slices and checks they named stand (R310). -/
def staleHeard (h : SMap (Nat × Nat × Nat × Nat × Nat)) : SMap (Nat × Nat × Nat × Nat × Nat) :=
  h.map (fun e => (e.1, e.2.1, e.2.2.1, 0, e.2.2.2.2))

/-- TIME_HOLDOVER: no valid message from any parent candidate for 100 µs while LOCKED (R257). -/
def execTimeHoldover (s : State) : Host.Outcome State Fault Refusal :=
  let d := s.dev
  finishDev s (if d.tm.st = 2 ∧ !d.tm.root ∧ d.tm.heardAt + 100000 ≤ d.boot.aonNs then
    beatRec { d with tm := { d.tm with 
      st := 3
      parent := 63
      heard := staleHeard d.tm.heard
      good := 0
      slew := 0 } } 0x0D04 0
  else d)

/-- DELAY_MEASUREMENT: the mean of the millisecond's round trips becomes the measured round trip, and the rate follows
(R255, R282). -/
def execDelayMeasurement (port : Nat) (s : State) : Host.Outcome State Fault Refusal :=
  let d := s.dev
  let x := linkOf d port
  finishDev s (if portSt d port = 2 ∧ port < 39 ∧ x.trips.2 ≠ 0 then
    let rtt := nearDiv x.trips.1 x.trips.2
    let d1 := modLink d port (fun x => { x with rtt := rtt, trips := (0, 0) })
    replanRate (regPutField d1 (portOff port + 4) 10 16 (min (nearDiv rtt 16) 0xFFFF)) port
  else d)

/-! ### Register writes of the time and beat region (R258, R259, R265, R272) -/

/-- A write to TIME_SET: GTIME is set while STATE is FREE; ignored otherwise. -/
def timeSetWrite (d : Dev) (v : Nat) : Dev :=
  if d.tm.st = 0 then setGt (regPut64 d 0x200010 v) (v % 2 ^ 64 * 16) else d

/-- A write to TIME_CTL. -/
def rootEnableWrite (d : Dev) (v : Nat) : Dev := chooseRoot (regPutField d 0x200020 0 1 v)

/-- Whether BEAT_LEN and BEAT_MIN keep the ranges of R259. -/
def beatRanges (len min_ : Nat) : Bool :=
  decide (1000 ≤ len ∧ len ≤ 64000 ∧ (len + 1) / 2 ≤ min_ ∧ min_ ≤ len)

/-- A beat configuration write is rejected (R259). -/
def beatReject (d : Dev) : Dev := beatRec (regPutField d 0x200120 0 1 1) 0x0D06 2

/-- A write of `v` to BEAT_LEN, BEAT_MIN, LAG_LIMIT or a half of BEAT_T0. -/
def beatCfgWrite (d : Dev) (off v : Nat) : Dev :=
  let ok :=
    if off = 0x200110 then beatRanges v (beatMin d)
    else if off = 0x200114 then beatRanges (beatLen d) v
    else true
  if anyLive d || !ok then beatReject d
  else
    let d1 := if off = 0x200118 then regPutField d off 0 16 v else regPutNat d off v
    if beatCheck d1 = beatCheck d then d1 else { d1 with tm := { d1.tm with mismatch := [] } }

/-- A write to BEAT_CTL (R265): each core takes it at its next beat end. -/
def beatEnableWrite (d : Dev) (v : Nat) : Dev :=
  if beatEnable d = natBit v 0 then d
  else
    let d1 := regPutField d 0x200100 0 1 v
    { d1 with tm := { d1.tm with mismatch := [] } }

/-! ### Beats and lateness (R263, R269) -/

/-- BEAT_BOUNDARY: the boundary of core `core` comes (R263). -/
def execBeatBoundary (core : Nat) (s : State) : Host.Outcome State Fault Refusal :=
  finishDev s (if core < coresTotal s.dev then settleBeatEnd s.dev core else s.dev)

/-- The SLIP threshold in nanoseconds (R269). -/
def slipLimit (d : Dev) : Nat := max 1 (regField d 0x200118 0 16) * beatLen d

/-- A lag record of a core: its beat number and live lag (R469). -/
def lagRec (d : Dev) (n ev : Nat) : Dev :=
  let b := (coreOf d n).beat
  postRecord d { recOf ev 0 n (leBytes 8 b.n ++ leBytes 4 (min (liveLag d b) 0xFFFFFFFF)) with lcore := n }

/-- A core keeps a local beat that follows the grid. -/
def beatFollows (b : CoreBeat) : Bool := b.kept && b.enabled

/-- SLIP (R269). -/
def execSlip (core : Nat) (s : State) : Host.Outcome State Fault Refusal :=
  let d := s.dev
  let b := (coreOf d core).beat
  finishDev s (if core < coresTotal d ∧ beatFollows b ∧ b.slipArmed ∧ slipLimit d < liveLag d b then
    let d1 := modCore d core (fun k => { k with beat := { b with slipped := true, slipArmed := false } })
    let o := coreOff core 0x710
    let d2 := regPutField (regBump d1 0x200138 1) o 16 16 (min 0xFFFF (regField d1 o 16 16 + 1))
    lagRec d2 core 0x0D01
  else d)

/-- STEP_LATE (R269). -/
def execStepLate (core : Nat) (s : State) : Host.Outcome State Fault Refusal :=
  let d := s.dev
  let b := (coreOf d core).beat
  finishDev s (if core < coresTotal d ∧ beatFollows b ∧ b.lateArmed ∧ 4 * slipLimit d < liveLag d b then
    let d1 := modCore d core (fun k => { k with beat := { b with late := true, lateArmed := false } })
    lagRec (regBump d1 0x20013C 1) core 0x0D02
  else d)

end Sys2Proof.Machine
end

