-- ==== Sys2Proof/Machine/Router.lean ====
section
/-! DEFINITION. The router: routing tables, age order, the assignment of a cycle, drops and replay (R279, R280, R284,
R285, R293 to R308, R312, R315). -/

namespace Sys2Proof.Machine

/-! ### Routing (R293, R294, R297) -/

/-- A node's rack and its position in it. -/
def nodeRack (n : Nat) : Nat := n / 64 % 1024

/-- The table mask of a destination: bit `p` for router port `p` (R294). -/
def routeMask (d : Dev) (dst : Nat) : Nat :=
  let bank := regField d 0x1000008 0 1
  if nodeRack dst = nodeRack (ownNode d) then (smapGet d.fab.locals (64 * bank + dst % 64) 0#64).toNat % 2 ^ 39
  else (smapGet d.fab.racks (1024 * bank + nodeRack dst) 0#32).toNat * 2 ^ 7

/-- GOLDEN_AGE in nanoseconds. -/
def goldenNs (d : Dev) : Nat := regField d 0x1000000 0 16 * 1000
/-- Whether a packet is golden. -/
def isGolden (d : Dev) (p : Packet) : Bool := decide (goldenNs d ≤ ageNs d p)

/-- A packet presented in a cycle: its input port, whether it brought a slot of its own, whether it was held. -/
structure Item where
  port : Nat
  own : Bool
  held : Bool
  pk : Packet
  deriving DecidableEq, Repr

/-- Whether `a` comes before `b` in age order (R297). -/
def olderItem (d : Dev) (a b : Item) : Bool :=
  let x := ageNs d a.pk
  let y := ageNs d b.pk
  if x != y then decide (y < x)
  else if a.pk.src != b.pk.src then decide (a.pk.src < b.pk.src)
  else if a.pk.dctx != b.pk.dctx then decide (a.pk.dctx < b.pk.dctx)
  else if a.pk.seq != b.pk.seq then decide (a.pk.seq < b.pk.seq)
  else decide (a.port ≤ b.port)

/-- One packet put into age order. -/
def insItem (d : Dev) (a : Item) (l : List Item) : List Item :=
  match l with
  | [] => [a]
  | b :: t => if olderItem d a b then a :: b :: t else b :: insItem d a t

/-- Oldest first. -/
def sortItems (d : Dev) (l : List Item) : List Item := l.foldr (insItem d) []

/-! ### Drops (R280, R303, R305, R307, R308) -/

/-- A router record (R467, R469). -/
def routerRec (d : Dev) (ev cls port : Nat) (p : Packet) : Dev :=
  postRecord d (recPort ev cls (if port < 39 then port else 0xFF) port (netDetail p.src p.dst 0 port))

/-- A packet outside the fence (R307). -/
def fenceBad (d : Dev) (p : Packet) : Bool :=
  p.typ != 8 && (p.slice != ownSlice d || !sliceValid d || !isMember d p.dst)

/-- A fence drop, and the notice of a pruned multicast (R307, R308). -/
def fenceDrop (d : Dev) (port : Nat) (p : Packet) : Dev :=
  let d1 := routerRec (portBump (regBump d 0x1000040 1) port 24 16 1) 0x0A21 2 port p
  if p.mcast then noticeAbout d1 p.src 0 0 p.dst 0 else d1

/-- A packet at MAX_AGE (R303). -/
def ageDrop (d : Dev) (port : Nat) (p : Packet) : Dev :=
  routerRec (devBump (regBump d 0x1000044 1) 22) 0x0A40 0 port p
/-- A packet whose table mask is 0 (R305). -/
def routeDrop (d : Dev) (port : Nat) (p : Packet) : Dev :=
  routerRec (devBump (regBump d 0x1000048 1) 23) 0x0A20 2 port p
/-- A packet without a slot (R280). -/
def slotDrop (d : Dev) (port : Nat) (p : Packet) : Dev :=
  routerRec (devBump (regBump d 0x1000064 1) 24) 0x0A41 0 port p

/-! ### Ejection (R290, R300, R317) -/

/-- A MGMT packet enters the mailbox, or is discarded at a full one (R317). -/
def intoMailbox (d : Dev) (p : Packet) : Dev :=
  if d.fab.mailbox.length < 256 then { d with fab := { d.fab with mailbox := d.fab.mailbox ++ [p] } }
  else postRecord (regBump d 0x1000058 1) (packetRec 0x0B51 0 63 p)

/-- A packet ejected: checked, and kept for the event that handles it. -/
def ejectPacket (d : Dev) (p : Packet) : Dev :=
  match endCheck (countAge d p) p with
  | (d1, true) =>
    if p.typ = 8 then intoMailbox d1 p else { d1 with ni := { d1.ni with ejected := d1.ni.ejected ++ [p] } }
  | (d1, false) => d1

/-! ### Sending (R285, R298, R299, R416) -/

/-- Whether port `p` is usable for packets of a slice, its replay store having room (R299, R310, R416). -/
def portTakes (d : Dev) (p : Nat) (pk : Packet) : Bool :=
  linkRuns d p && decide ((linkOf d p).store.length < 910) && (pk.typ == 8 || openTo d p pk.slice)

/-- Ports in round-robin order from `rr` (R298). -/
def fromRr (d : Dev) (ps : List Nat) : List Nat :=
  let rr := d.fab.rr
  ps.filter (fun p => decide (rr ≤ p)) ++ ps.filter (fun p => decide (p < rr))

/-- A packet takes the slot of port `p`: its copy enters the replay store. `step` counts a hop. -/
def sendOn (d : Dev) (p : Nat) (pk : Packet) (prod step : Bool) : Dev :=
  let q := if step then { pk with hops := min 63 (pk.hops + 1) } else pk
  let d1 := modLink d p (fun x => { x with
    store := x.store ++ [(x.nextLseq, q)], nextLseq := (x.nextLseq + 1) % 65536 })
  let d2 := portBump (emit d1 (.packet p q)) p 0 32 1
  if prod then d2 else portBump d2 p 4 32 1

/-- A cycle under way: the device, the ports whose open slots are unassigned, and packets waiting for a deflection or
without a slot. -/
structure Cycle where
  dev : Dev
  free : List Nat
  defl : List Item
  lost : List Item
  deriving DecidableEq, Repr

/-- A packet takes the first port of a list that is free and usable for it. -/
def takeFirst (c : Cycle) (pk : Packet) (ps : List Nat) : Option Nat :=
  (fromRr c.dev ps).find? (fun p => c.free.contains p && portTakes c.dev p pk)

/-- The ports of a mask. -/
def maskPorts (m : Nat) : List Nat := allPorts.filter (fun p => natBit m p)

/-- A packet assigned to a slot. -/
def assign (c : Cycle) (p : Nat) (pk : Packet) (prod step : Bool) : Cycle :=
  { c with dev := sendOn c.dev p pk prod step, free := c.free.erase p }

/-- A golden packet that found no productive slot: held, or what R302 makes of it. -/
def holdItem (c : Cycle) (slots : List Nat) (it : Item) : Cycle :=
  let d := c.dev
  let prod := maskPorts (routeMask d it.pk.dst)
  let usable := prod.any (fun p => portTakes d p it.pk)
  let opens := prod.any (fun p => slots.contains p && portTakes d p it.pk)
  let put := fun (c : Cycle) => { c with
    dev := devBump (modLink c.dev it.port (fun x => { x with held := some it.pk })) 25 }
  if it.held then
    if !usable then { c with lost := c.lost ++ [{ it with own := false, held := false }] }
    else match (linkOf d it.port).held with
      | none => { c with dev := modLink d it.port (fun x => { x with held := some it.pk }) }
      | some _ =>
        -- an older newcomer has the register: this packet leaves by the slot the newcomer brought
        { c with defl := c.defl ++ [{ it with own := true, held := false }] }
  else if !usable || opens then
    if it.own then { c with defl := c.defl ++ [it] } else { c with lost := c.lost ++ [it] }
  else match (linkOf d it.port).held with
    | none => put c
    | some _ => if it.own then { c with defl := c.defl ++ [it] } else { c with lost := c.lost ++ [it] }

/-- One packet in turn (R298). An arrival without a slot of its own takes its turn after every packet that brought one, unless
R302 lets it be held (R280). -/
def routeItem (slots : List Nat) (c : Cycle) (it : Item) : Cycle :=
  if !it.own && !it.held then
    if isGolden c.dev it.pk then holdItem c slots it else { c with lost := c.lost ++ [it] }
  else
    match takeFirst c it.pk (maskPorts (routeMask c.dev it.pk.dst)) with
    | some p => assign c p it.pk true true
    | none => if isGolden c.dev it.pk then holdItem c slots it else { c with defl := c.defl ++ [it] }

/-- A deflection: the packet leaves by its own slot's count, on the first usable port in turn (R298). -/
def deflectItem (c : Cycle) (it : Item) : Cycle :=
  match takeFirst c it.pk c.free with
  | some p => assign c p it.pk (natBit (routeMask c.dev it.pk.dst) p) true
  | none => { c with lost := c.lost ++ [it] }

/-- A packet without a slot: a usable slot left over, productive ports first, or dropped (R280). -/
def lostItem (c : Cycle) (it : Item) : Cycle :=
  match takeFirst c it.pk (maskPorts (routeMask c.dev it.pk.dst)) with
  | some p => assign c p it.pk true true
  | none =>
    match takeFirst c it.pk c.free with
    | some p => assign c p it.pk false true
    | none => { c with dev := slotDrop c.dev it.port it.pk }

/-- A replay copy waits no more: its original leaves the replay store (R285). -/
def dropCopy (d : Dev) (x : Nat × Nat × Packet) : Dev :=
  let d1 := modLink d x.1 (fun l => { l with
    store := l.store.filter (fun e => e.1 != x.2.1 || !(e.2 == { x.2.2 with replayed := e.2.replayed })) })
  { d1 with fab := { d1.fab with copies := d1.fab.copies.erase x } }

/-- A replay copy takes the first slot left, productive ports first (R285); one at MAX_AGE is dropped (R303). -/
def copyItem (c : Cycle) (x : Nat × Nat × Packet) : Cycle :=
  let (p0, _, pk) := x
  let prod := maskPorts (routeMask c.dev pk.dst)
  if maxAgeNs c.dev ≤ ageNs c.dev pk then { c with dev := ageDrop (dropCopy c.dev x) p0 pk }
  else match (takeFirst c pk prod).orElse (fun _ => takeFirst c pk c.free) with
  | none => c
  | some p =>
    let c1 := assign c p pk (prod.contains p) false
    { c1 with dev := dayBump (portBump (dropCopy c1.dev x) p0 22 16 1) 9 1 }

/-- The counts of the present microsecond: packets injected in it, and MGMT packets among them (R304). -/
def injCounts (d : Dev) : Nat × Nat :=
  if d.fab.injWin.1 = gtimeNs d / 1000 then d.fab.injWin.2 else (0, 0)

/-- Whether the caps let a packet be injected now (R304; assumption log 33, DEDUCED). -/
def injMay (d : Dev) (pk : Packet) : Bool :=
  let n := injCounts d
  let cap := regField d 0x1000024 0 16
  if pk.typ = 8 then decide (n.2 < regField d 0x1000024 16 16) && (cap == 0 || decide (n.1 < cap)) else decide (n.1 < cap)

/-- A packet as it is injected: INJ_TIME, the slice of this device, and the check over them (R286, R289, R306). -/
def stampPacket (d : Dev) (p : Packet) : Packet := sealPacket { p with injTime := gtimeNs d % 2 ^ 32, slice := ownSlice d }

/-- The ports a packet may be injected on: the productive ones; while none of them is usable, any port (R14, R299). -/
def injPorts (d : Dev) (pk : Packet) : List Nat :=
  let prod := maskPorts (routeMask d pk.dst)
  if prod.any (fun p => portTakes d p pk) then prod else allPorts

/-- One waiting packet injected, if a slot is left for it (R298, R304, R306). A packet of this device to itself is
ejected; one to a node outside the slice is refused, of whatever type (assumption log 33, DEDUCED); one whose table mask is 0 is
dropped. -/
def injectItem (c : Cycle) (x : Nat × Packet) : Cycle :=
  let d := c.dev
  let pk := stampPacket d x.2
  let gone := { c with dev := { d with ni := { d.ni with inject := d.ni.inject.erase x } } }
  if pk.dst = ownNode d then { gone with dev := ejectPacket gone.dev pk }
  else if !isMember d pk.dst then { gone with dev := regBump gone.dev 0x100005C 1 }
  else if routeMask d pk.dst = 0 then { gone with dev := routeDrop gone.dev x.1 pk }
  else if !injMay d pk then c
  else match takeFirst c pk (injPorts d pk) with
    | none => c
    | some p =>
      let n := injCounts d
      let g := { gone.dev with fab := { gone.dev.fab with
        injWin := (gtimeNs d / 1000, n.1 + 1, n.2 + (pk.typ == 8).toNat) } }
      assign { gone with dev := devBump g 20 } p pk (natBit (routeMask d pk.dst) p) true

/-- A local port on which a packet still waits that the caps would let go counts a stalled cycle (R315). -/
def stallCount (d : Dev) (i : Nat) : Dev :=
  if d.ni.inject.any (fun x => x.1 == 39 + i && injMay d x.2) then devBump d (16 + i) else d

/-- An empty packet slot passes: its LSEQ is spent, and one usable for this device's slice counts as EMPTY (R276, R299,
R315). -/
def emptySlot (d : Dev) (p : Nat) : Dev :=
  let usable := linkRuns d p && decide ((linkOf d p).store.length < 910) && rateOpen d p && portOpen d p
  let d1 := modLink d p (fun x => { x with nextLseq := (x.nextLseq + 1) % 65536 })
  if usable then portBump d1 p 12 32 1 else d1

/-- An arrival counted, and taken into its port's alignment stage (R279, R315). -/
def arrive (d : Dev) (a : Nat × Packet) : Dev :=
  if a.1 < 39 ∧ portSt d a.1 = 2 then
    modLink (portBump d a.1 8 32 1) a.1 (fun x => { x with align := x.align ++ [a.2] })
  else d

/-- What becomes of a packet presented from a port, `own` with a slot of its own: ejected, dropped, or put to arbitration
(R280, R298, R303, R305, R307). -/
def presentOne (port : Nat) (acc : Dev × List Item) (a : Bool × Packet) : Dev × List Item :=
  let (own, p) := a
  let d := acc.1
  if p.dst = ownNode d ∧ (p.typ = 8 ∨ (p.slice = ownSlice d ∧ sliceValid d)) then (ejectPacket d p, acc.2)
  else if fenceBad d p || (p.typ != 8 && !openTo d port p.slice) then (fenceDrop d port p, acc.2)
  else if maxAgeNs d ≤ ageNs d p then (ageDrop d port p, acc.2)
  else if routeMask d p.dst = 0 then (routeDrop d port p, acc.2)
  else (d, acc.2 ++ [⟨port, own, false, p⟩])

/-- The packets of a port's alignment stage presented in this cycle: those the port cannot take at all, at once and without a
slot; the oldest of the others when the port's own usable slot opens (R279, R280). -/
def presentPort (slots : List Nat) (acc : Dev × List Item) (port : Nat) : Dev × List Item :=
  let d := acc.1
  let q := (linkOf d port).align
  let mine := q.filter (portTakes d port)
  let now := if slots.contains port then mine.take 1 else []
  let later := if slots.contains port then mine.drop 1 else mine
  let shown := (q.filter (fun p => !portTakes d port p)).map (fun p => (false, p)) ++ now.map (fun p => (true, p))
  if q.isEmpty then acc
  else shown.foldl (presentOne port) (modLink d port (fun x => { x with align := later }), acc.2)

/-- A held packet presented again; one that has reached MAX_AGE, or that the fence now shuts out, leaves here. -/
def presentHeld (acc : Dev × List Item) (port : Nat) : Dev × List Item :=
  let (d, l) := acc
  match (linkOf d port).held with
  | none => acc
  | some p =>
    let d1 := modLink d port (fun x => { x with held := none })
    if fenceBad d1 p then (fenceDrop d1 port p, l)
    else if maxAgeNs d1 ≤ ageNs d1 p then (ageDrop d1 port p, l)
    else if routeMask d1 p.dst = 0 then (routeDrop d1 port p, l)
    else (d1, l ++ [⟨port, false, true, p⟩])

/-- A slot of port `p` opens: it is counted, and a control slot carries the port's control fields and markers (R276, R413).
Whether it is a packet slot. -/
def openSlot (acc : Dev × List Nat) (p : Nat) : Dev × List Nat :=
  let ctl := controlNext acc.1 p
  let d := modLink acc.1 p (fun x => { x with slots := x.slots + 1 })
  if ctl then (sendControl d p, acc.2) else (d, acc.2 ++ [p])

/-- The assignment of a cycle's packet slots (R298): `pks` are the ports whose packet slot opens, `free` those of them whose
rate lets it carry a packet. -/
def routeCycle (d : Dev) (items : List Item) (pks free : List Nat) : Dev :=
  let d1 := (items.filter (fun i => isGolden d i.pk)).foldl (fun e _ => devBump e 21) d
  let golden := sortItems d1 (items.filter (fun i => i.held || isGolden d1 i.pk))
  let others := sortItems d1 (items.filter (fun i => !(i.held || isGolden d1 i.pk)))
  let c1 := (golden ++ others).foldl (routeItem free) ⟨d1, free, [], []⟩
  let c2 := (sortItems d1 c1.defl).foldl deflectItem { c1 with defl := [] }
  let c3 := (sortItems d1 c2.lost).foldl lostItem { c2 with lost := [] }
  let c4 := c3.dev.fab.copies.foldl copyItem c3
  let waiting := c4.dev.ni.inject
  let c5 := (waiting.filter (fun x => x.2.typ == 8) ++ waiting.filter (fun x => x.2.typ != 8)).foldl injectItem c4
  let d2 := (c5.free ++ pks.filter (fun p => !free.contains p)).foldl emptySlot ((rangeFrom 0 4).foldl stallCount c5.dev)
  { d2 with fab := { d2.fab with rr := (d2.fab.rr + 1) % 39 } }

/-- One router cycle: arrivals by input port, and the ports of which a slot opens in it (R276, R279, R298). -/
def routerCycle (d : Dev) (arrivals : List (Nat × Packet)) (slots : List Nat) : Dev :=
  let up := (upPorts d).filter (fun p => slots.contains p)
  let opened := up.foldl openSlot (d, [])
  let free := opened.2.filter (rateOpen opened.1)
  let d1 := arrivals.foldl arrive opened.1
  let shown := allPorts.foldl (presentPort free) (allPorts.foldl presentHeld (d1, []))
  routeCycle shown.1 shown.2 opened.2 free

/-- ROUTER_CYCLE: the arrivals, and the board and optical ports of which a slot opens (R298). -/
def execRouterCycle (arrivals : List (Nat × Packet)) (board optical : List Nat) (s : State) : Host.Outcome State Fault Refusal :=
  finishDev s (if routerOn s.dev then routerCycle s.dev arrivals (board ++ optical) else s.dev)

/-- AGE_DROP: a packet at port `port` reaches MAX_AGE (R303). -/
def execAgeDrop (port : Nat) (p : Packet) (s : State) : Host.Outcome State Fault Refusal :=
  let d := s.dev
  finishDev s (if routerOn d ∧ port < 39 ∧ p.dst ≠ ownNode d ∧ maxAgeNs d ≤ ageNs d p then
    let d1 := modLink d port (fun x => { x with held := if x.held = some p then none else x.held, align := x.align.erase p })
    ageDrop d1 port p
  else d)

/-! ### Replay (R284, R285, R312) -/

/-- How far LSEQ `b` lies after `a`. -/
def lseqDist (a b : Nat) : Nat := (b + 65536 - a) % 65536
/-- Whether an LSEQ lies in a range FIRST to LAST. -/
def inRange16 (r : Nat × Nat) (x : Nat) : Bool := decide (lseqDist r.1 x ≤ lseqDist r.1 r.2)

/-- The waiting ranges become the next request once none is outstanding (R284). -/
def nextRequest (x : LinkState) : LinkState :=
  if x.ranges.isEmpty && !x.waiting.isEmpty then
    { x with ranges := x.waiting.take 4, waiting := x.waiting.drop 4, reqNum := (x.reqNum + 1) % 256 }
  else x

/-- LSEQs `first` to `last` were lost on port `p`: they join a replay request (R284). -/
def nameLost (d : Dev) (p first last : Nat) : Dev :=
  modLink d p (fun x => nextRequest { x with waiting := x.waiting ++ [(first % 65536, last % 65536)] })

/-- The uncorrectable codewords of port `p` in the last millisecond (R312). -/
def uncorrMs (d : Dev) (p : Nat) : List Nat :=
  (linkOf d p).uncorr.filter (fun t => decide (gtimeNs d < t + 1000000))

/-- CODEWORD_UNCORRECTABLE: the packet slots `first` to `last` it overlaps, or none (R284, R312). -/
def execCodewordUncorrectable (port : Nat) (lost : Option (Nat × Nat)) (lane : Nat) (s : State) :
    Host.Outcome State Fault Refusal :=
  let d := s.dev
  finishDev s (if portSt d port = 2 ∧ port < 39 then
    let d1 := modLink d port (fun x => { x with uncorr := (gtimeNs d :: uncorrMs d port).take 65 })
    let d2 := match lost with | some (a, b) => nameLost d1 port a b | none => d1
    linkRec (dayBump (portBump d2 port 20 16 1) 8 1) port (portEv port 0x40) 0 lane (portLanes d port) 0
  else d)

/-- A replay request acted on when it is newer: each packet named is copied once (R285). -/
def replayRequest (d : Dev) (p num : Nat) (ranges : List (Nat × Nat)) : Dev :=
  let x := linkOf d p
  let dist := (num % 256 + 256 - x.reqSeen) % 256
  if !decide (1 ≤ dist ∧ dist ≤ 127) then d
  else
    let named := x.store.filter (fun e => ranges.any (fun r => inRange16 r e.1) &&
      !d.fab.copies.any (fun c => c.1 == p && c.2.1 == e.1))
    let d1 := modLink d p (fun x => { x with reqSeen := num % 256 })
    let d2 := { d1 with fab := { d1.fab with
      copies := d1.fab.copies ++ named.map (fun e => (p, e.1, { e.2 with replayed := true })) } }
    linkRec d2 p (portEv p 0x40) 0 0 (portLanes d p) 0

/-- REPLAY_REQUEST (R285). -/
def execReplayRequest (port num : Nat) (ranges : List (Nat × Nat)) (s : State) : Host.Outcome State Fault Refusal :=
  finishDev s (if portSt s.dev port = 2 ∧ port < 39 then replayRequest s.dev port num ranges else s.dev)

/-! ### Control slots (R255, R277, R284, R285) -/

/-- LSEQs of port `p` that replay copies wait to replace. -/
def copiedLseqs (d : Dev) (p : Nat) : List Nat := (d.fab.copies.filter (fun c => c.1 == p)).map (fun c => c.2.1)

/-- The ranges of a control slot: an unused one has FIRST = LAST + 1. -/
def slotRanges (b : List Byte) : List (Nat × Nat) :=
  (rangeFrom 0 4).filterMap (fun i =>
    let f := bytesNat b (28 + 4 * i) 2
    let l := bytesNat b (30 + 4 * i) 2
    if f = (l + 1) % 65536 then none else some (f, l))

/-- The acknowledgements, echoes and round trip of a control slot. An entry that a copy waits to replace is freed by the copy
alone (R285): `copied` names them. -/
def slotLink (x : LinkState) (gt : Nat) (copied : List Nat) (b : List Byte) : LinkState :=
  let ackTo := bytesNat b 22 2
  let next := bytesNat b 20 2
  let trip := match smapFind x.departs (bytesNat b 64 1) with
    | some t => if natBit (bytesNat b 16 1) 1 ∧ t + bytesNat b 68 4 ≤ gt
                then (x.trips.1 + (gt - t - bytesNat b 68 4), x.trips.2 + 1) else x.trips
    | none => x.trips
  let x1 := { x with
    store := x.store.filter (fun e => decide (32768 ≤ lseqDist e.1 ackTo) || copied.contains e.1)
    trips := trip
    waiting := if x.dark ∧ next ≠ x.rxNext then x.waiting ++ [(x.rxNext, (next + 65535) % 65536)] else x.waiting
    dark := false
    rxNext := next
    ranges := if bytesNat b 25 1 = x.reqNum then [] else x.ranges }
  nextRequest x1

end Sys2Proof.Machine
end

