-- ==== Sys2Proof/Machine/Lanes.lean ====
section
/-! DEFINITION. Lanes: markers, the exchange that removes and adds one, loss, relock and calibration (R410 to R423, R461,
R483). -/

namespace Sys2Proof.Machine

/-! ### Lane state -/

/-- Lane `l` of router port `p` changed. -/
def modLane (d : Dev) (p l : Nat) (g : LaneState → LaneState) : Dev :=
  { d with opt := { d.opt with lanes := smapSet d.opt.lanes (8 * laneIdx p + l) (g (portLane d p l)) } }
/-- Both rings of a lane in a loop state. -/
def putLocks (d : Dev) (p l v : Nat) : Dev := modLane d p l (fun x => { x with txLock := v, rxLock := v })

/-- Whether this end sends on lane `l`. -/
def laneIn (d : Dev) (p l : Nat) : Bool := natBit (linkOf d p).mask l
/-- PORT_OPT_q.CAL_BUSY -/
def calBusy (d : Dev) (p : Nat) : Bool := isOptical p && natBit (regNat d (optOff p)) 31
/-- PORT_OPT_q.CAL_LANE -/
def calLane (d : Dev) (p : Nat) : Nat := regField d (optOff p) 28 3
/-- CAL_BUSY and CAL_LANE set. -/
def putCal (d : Dev) (p lane busy : Nat) : Dev :=
  if isOptical p then regPutField d (optOff p) 28 4 (lane % 8 + 8 * busy) else d
/-- The lane whose handover holds port `p`, and whether the bobbin is this end's (R417). -/
def hoOf (d : Dev) (p : Nat) : Option (Nat × Bool) := if isOptical p then (optPortOf d (p - 7)).handover else none

/-! ### Handovers (R417, R426, R427) -/

/-- The router ports of engine `e`. -/
def enginePorts (e : Nat) : List Nat := rangeFrom (7 + 4 * e) 4
/-- The engine of router port `p` (R406). -/
def engineOf (p : Nat) : Nat := (p - 7) / 4

/-- Bobbin `k` of engine `e` changed. -/
def modLaser (d : Dev) (e k : Nat) (g : LaserState → LaserState) : Dev :=
  { d with opt := { d.opt with lasers := smapSet d.opt.lasers (8 * e + k) (g (laserOf d e k)) } }

/-- A handover holds the port, or one that waits for a calibration's end lets no other start (R417, R427). -/
def hoHolds (d : Dev) (p : Nat) : Bool :=
  (hoOf d p).isSome || (isOptical p && (rangeFrom 0 8).any (fun k => (laserOf d (engineOf p) k).st == 1))

/-- Port `p` needs no more of step 2 for lane `k`: the lane is out, or the port pauses. -/
def hoClear (d : Dev) (p k : Nat) : Bool := portSt d p != 2 || !laneIn d p k || hoPauses d p

/-- Step 2 of a handover: lane `k` is removed from the ports in turn, each removal after the one before has taken effect; a port
at six lanes pauses. -/
def hoPush (k : Nat) (d : Dev) : List Nat → Dev
  | [] => d
  | p :: t =>
    if hoClear d p k then hoPush k d t
    else if laneCount (linkOf d p) ≤ 6 then hoPush k (settleWidth (modOptPort d (p - 7) (fun x => { x with hoPause := true })) p) t
    else if (laneAsked d p k).isSome then d
    else laneAsk d p 1 k 3

/-- A pending handover starts once no calibration runs on its engine's ports and no other handover holds one (R417, R427). -/
def tryHandover (d : Dev) (e k : Nat) : Dev :=
  let x := laserOf d e k
  if x.st = 1 ∧ x.spareOk ∧ d.pwr.st ≤ 1 ∧ (enginePorts e).all (fun p => !calBusy d p && (hoOf d p).isNone) then
    let d1 := modLaser d e k (fun x => { x with st := 2 })
    hoPush k ((enginePorts e).foldl (fun e p => modOptPort e (p - 7) (fun x => { x with handover := some (k, true) })) d1) (enginePorts e)
  else d

/-- The handovers of engine `e` that wait. -/
def tryHandovers (d : Dev) (e : Nat) : Dev := (rangeFrom 0 8).foldl (fun x k => tryHandover x e k) d

/-! ### Lanes that leave and return (R414, R417 to R419, R423) -/

/-- A lane as it is back in service. -/
def laneReturn (d : Dev) (p l : Nat) : Dev :=
  modLane (putFailed d p l 0) p l (fun x => { x with txLock := 3, rxLock := 3, attempts := 0, retries := 0, saved := none })

/-- A handover no longer holds port `p`, and a pause it began ends. -/
def hoFree (d : Dev) (p : Nat) : Dev :=
  settleWidth (modOptPort d (p - 7) (fun x => { x with handover := none, hoPause := false })) p

/-- Step 6 of a handover: lane `k` returns to the ports in turn; a port with no lane left takes it by its marker alone (assumption
log 147, DEDUCED). -/
def hoPull (k : Nat) (d : Dev) : List Nat → Dev
  | [] => d
  | p :: t =>
    if hoOf d p ≠ some (k, true) then hoPull k d t
    else if portSt d p != 2 || laneIn d p k then hoPull k (hoFree d p) t
    else if laneCount (linkOf d p) = 0 then hoPull k (hoFree (joinLane (laneReturn d p k) p k) p) t
    else laneAsk (modLane (putLocks d p k 3) p k (fun x => { x with test := 2 })) p 2 k 3

/-- A handover of bobbin `k` goes on with the next port, and those that wait start once it holds none. -/
def hoNext (d : Dev) (e k : Nat) : Dev :=
  if (laserOf d e k).st = 2 then hoPush k d (enginePorts e) else tryHandovers (hoPull k d (enginePorts e)) e

/-- Port `p` is free of the handover that holds it, which goes on with the next port. -/
def hoRelease (d : Dev) (p : Nat) : Dev :=
  match hoOf d p with
  | some (k, true) => hoNext (hoFree d p) (engineOf p) k
  | some (_, false) => tryHandovers (hoFree d p) (engineOf p)
  | none => d

/-- A calibration of port `p` has ended: handovers that wait for it start. -/
def calEnd (d : Dev) (p : Nat) : Dev :=
  let d1 := putCal d p 0 0
  if isOptical p then tryHandovers d1 (engineOf p) else d1

/-- A lane is back in service in both directions. -/
def laneBack (d : Dev) (p l : Nat) : Dev :=
  let d1 := laneReturn d p l
  let d2 := if calBusy d1 p && calLane d1 p == l then calEnd d1 p else d1
  if (hoOf d2 p).any (fun h => h.1 == l) then hoRelease d2 p else d2

/-- A lane whose lane test has passed returns: an ADD of the other end that waited for it is acknowledged, else this end asks for
one; a port with no lane left takes it by its marker alone (R415, R420; assumption log 147, DEDUCED). -/
def laneRejoin (d : Dev) (p l reason : Nat) : Dev :=
  let d1 := modLane d p l (fun x => { x with test := 2 })
  match (linkOf d1 p).addDue with
  | some (l', r) =>
    if l' = l then laneAsk (modLink d1 p (fun x => { x with addDue := none })) p 3 l r
    else if laneCount (linkOf d1 p) = 0 then laneBack (joinLane d1 p l) p l
    else laneAsk d1 p 2 l reason
  | none => if laneCount (linkOf d1 p) = 0 then laneBack (joinLane d1 p l) p l else laneAsk d1 p 2 l reason

/-- A calibration stops because its port loses another lane: its lane takes its setpoints from before (R423). -/
def stopCal (d : Dev) (p : Nat) : Dev :=
  if !calBusy d p then d
  else
    let l := calLane d p
    let d1 := modLane d p l (fun x =>
      match x.saved with
      | some (t, r) => { x with txHeater := t, rxHeater := r, txLock := 3, rxLock := 3 }
      | none => { x with txLock := 3, rxLock := 3 })
    if laneIn d1 p l then calEnd d1 p else laneRejoin d1 p l 2

/-- Lane `l` is lost to service by marker alone (R414, R418). -/
def laneOut (d : Dev) (p l : Nat) : Dev :=
  let d1 := if calBusy d p && calLane d p != l then stopCal d p else d
  dropLane (modLane (putLocks d1 p l 1) p l (fun x => { x with attempts := 0, test := 0, since := d.boot.aonNs })) p l

/-- A failed lane: a port that can no longer reach six lanes has lost one at six (R312, R419). -/
def laneFailed (d : Dev) (p l reason : Nat) : Dev :=
  let d1 := putLocks (putFailed d p l 1) p l 0
  let d2 := linkRec d1 p (if p < 7 then 0x0844 else 0x0945) 0 l (laneCount (linkOf d1 p)) reason
  if lanesLeft d2 p < 6 then retirePort d2 p l reason else d2

/-- A lane retired until the next start, with its ledger entry (R419, R452, R461). -/
def laneRetire (d : Dev) (p l : Nat) : Dev :=
  let ev := if p < 7 then 0x0845 else 0x0946
  let d1 := putRetired d p l
  let d2 := if p < 7 then callEntry d1 5 (p + 8 * l) ev 0 else callEntry d1 4 (p - 7 + 32 * l) ev 0
  postRecord d2 { recPort ev 1 (if p < 7 then p else p - 7) p (laneDetail l (laneCount (linkOf d2 p)) 4 0) with ledger := true }

/-! ### Markers (R413, R414) -/

/-- The bytes of a marker, if its CHECK holds and it names its lane. -/
def markerGood (lane : Nat) (m : BitVec 64) : Bool :=
  bvBits m 0 3 == lane && crc8 (leBytes 7 (bvBits m 0 56)) == bvBits m 56 8

/-- The far end's mask and mode: its change of lanes is applied to this end's direction too (R414). -/
def takeMask (d0 : Dev) (p mask mode : Nat) : Dev :=
  let lost := (rangeFrom 0 8).any (fun l => natBit (linkOf d0 p).farMask l && !natBit mask l && laneIn d0 p l && calLane d0 p != l)
  let d := if lost && calBusy d0 p then stopCal d0 p else d0
  let x := linkOf d p
  let added := (rangeFrom 0 8).filter (fun l => natBit mask l && !natBit x.farMask l)
  let gone := (rangeFrom 0 8).filter (fun l => natBit x.farMask l && !natBit mask l)
  let m1 := added.foldl (fun m l => natPut m l 1 1) (gone.foldl (fun m l => natPut m l 1 0) x.mask)
  let d1 := modLink d p (fun x => { x with farMask := mask, farMode := mode })
  let d2 := gone.foldl (fun e l => if natBit x.mask l then putLocks e p l 1 else e) d1
  let d3 := if m1 = x.mask then settleWidth d2 p else putMask d2 p m1
  let d4 := added.foldl (fun e l => if natBit x.mask l then e else laneBack e p l) d3
  if isOptical p && mode == 3 then regPutField d4 (optOff p) 0 4 6
  else if isOptical p && mode == 0 && regField d4 (optOff p) 0 4 == 6 then regPutField d4 (optOff p) 0 4 3
  else d4

/-- LANE_MARKER_RECEIVE: a marker on a lane, or none where one was due (R413). -/
def execLaneMarkerReceive (port lane : Nat) (marker : Option (BitVec 64)) (s : State) : Host.Outcome State Fault Refusal :=
  let d := s.dev
  finishDev s (if port < 39 ∧ portSt d port = 2 ∧ lane < 8 then
    match marker with
    | some m =>
      if markerGood lane m then
        takeMask (modLink d port (fun x => { x with badMarks := smapSet x.badMarks lane 0 })) port (bvBits m 8 8) (bvBits m 24 8)
      else modLink d port (fun x => { x with badMarks := smapMod x.badMarks lane 0 (fun n => n + 1) })
    | none => modLink d port (fun x => { x with badMarks := smapMod x.badMarks lane 0 (fun n => n + 1) })
  else d)

/-- LANE_LOST: two consecutive bad or missing markers (R413, R417). -/
def execLaneLost (port lane : Nat) (s : State) : Host.Outcome State Fault Refusal :=
  let d := s.dev
  finishDev s (if port < 39 ∧ portSt d port = 2 ∧ lane < 8 ∧ laneIn d port lane ∧ 2 ≤ smapGet (linkOf d port).badMarks lane 0 then
    laneOut (modLink d port (fun x => { x with badMarks := smapSet x.badMarks lane 0 })) port lane
  else d)

/-- PAUSE_MAX_MS in effect. -/
def pauseMaxNs (d : Dev) : Nat := max 1 (regField d 0x3000004 0 16) * 1000000

/-- PAUSE_TIMEOUT (R420). -/
def execPauseTimeout (port : Nat) (s : State) : Host.Outcome State Fault Refusal :=
  let d := s.dev
  finishDev s (match (linkOf d port).paused with
    | some t => if port < 39 ∧ portSt d port = 2 ∧ t + pauseMaxNs d < gtimeNs d then retirePort d port 0 1 else d
    | none => d)

/-- PORT_NARROWED: more than 64 uncorrectable codewords in a millisecond; `lane` has the most corrected symbols
(R312). -/
def execPortNarrowed (port lane : Nat) (s : State) : Host.Outcome State Fault Refusal :=
  let d := s.dev
  finishDev s (if port < 39 ∧ portSt d port = 2 ∧ 64 < (uncorrMs d port).length then
    let d1 := modLink d port (fun x => { x with uncorr := [] })
    if 7 ≤ portLanes d port then
      laneAsk (linkRec d1 port (portEv port 0x41) 0 lane (portLanes d port - 1) 0) port 1 lane 0
    else if portLanes d port = 6 then retirePort d1 port lane 0
    else d1
  else d)

/-! ### Lane operations (R415) -/

/-- Whether a removal keeps the limits of R417. -/
def removeMay (d : Dev) (p l reason : Nat) : Bool :=
  laneIn d p l &&
    (if reason = 0 then decide (7 ≤ portLanes d p)
     else if reason = 2 then
       decide (7 ≤ portLanes d p) && !calBusy d p && !hoHolds d p && (linkOf d p).asked.all (fun q => q.2.2 != 2)
     else reason == 1 ||
       (reason == 3 && isOptical p && !calBusy d p && (hoOf d p).all (fun h => h.1 == l)))

/-- REMOVE from the other end: ACK, or NAK where a limit forbids it. -/
def laneRemove (d : Dev) (p l reason : Nat) : Dev :=
  if removeMay d p l reason then
    let d1 := if reason = 2 ∧ isOptical p then putCal (modLane d p l (fun x => { x with saved := some (x.txHeater, x.rxHeater) })) p l 1 else d
    let d2 := if reason = 3 then
        modOptPort d1 (p - 7) (fun x => { x with handover := if x.handover.isSome then x.handover else some (l, false) })
      else d1
    laneAsk d2 p 3 l reason
  else laneAsk d p 5 l reason

/-- ADD from the other end: ACK once this end's lane test of that lane has passed (R415). -/
def laneAdd (d : Dev) (p l reason : Nat) : Dev :=
  if natBit (retiredLanes d p) l then d
  else if (portLane d p l).test = 2 then laneAsk d p 3 l reason
  else modLink d p (fun x => { x with addDue := some (l, reason) })

/-- The distance between two numbers. -/
def natGap (a b : Nat) : Nat := (a - b) + (b - a)

/-- The port's own interval set, within its limits. -/
def putInterval (d : Dev) (p ms : Nat) : Dev :=
  let v := max 1000 (min (calMax d p) ms)
  if isOptical p then regPutField d (optOff p + 8) 0 16 v
  else modLink d p (fun x => { x with interval := v })

/-- What a finished calibration does to its port's interval (R483). -/
def replanCal (d : Dev) (p : Nat) (was now : LaneState) : Dev :=
  let heat := isOptical p && decide (500 < natGap was.calTx now.txHeater ∨ 500 < natGap was.calRx now.rxHeater)
  let d1 := if 50 < was.eye - now.eye ∨ heat then putInterval d p (calInterval d p / 2) else d
  if 10 < natGap was.eye now.eye ∨ (isOptical p ∧ (100 < natGap was.calTx now.txHeater ∨ 100 < natGap was.calRx now.rxHeater)) then
    modOptPort d1 (laneIdx p) (fun x => { x with moved := true })
  else d1

/-- A board lane that has left for its re-adaptation has been adapted, with the eye measured, and asks to return (R461). -/
def adapted (d : Dev) (p l : Nat) : Dev :=
  let was := portLane d p l
  let now := { was with eye := (was.saved.getD (was.eye, 0)).1, txLock := 3, rxLock := 3, saved := none }
  laneRejoin (replanCal (modLane d p l (fun _ => now)) p was now) p l 2

/-- ACK of this end's request: it is acted on, and a handover goes on with the next port (R414, R415, R427). -/
def laneAck (d : Dev) (p l : Nat) : Dev :=
  match laneAsked d p l with
  | some q =>
    let d1 := laneAnswered d p q
    if q.1 = 1 then
      let d0 := if q.2.2 = 0 ∧ calBusy d1 p ∧ calLane d1 p ≠ l then stopCal d1 p else d1
      let d2 := dropLane (modLane (putLocks d0 p l 1) p l (fun x => { x with test := 0, since := d.boot.aonNs })) p l
      if q.2.2 = 2 ∧ !isOptical p then adapted d2 p l else if q.2.2 = 3 ∧ hoOf d2 p = some (l, true) then hoNext d2 (engineOf p) l else d2
    else laneBack (joinLane d1 p l) p l
  | none => d

/-- NAK of a removal: the lane stays, a calibration turn is given up, and a handover asks again (R415, R427). -/
def laneNak (d : Dev) (p l : Nat) : Dev :=
  match laneAsked d p l with
  | some q =>
    if q.1 ≠ 1 then d
    else
      let d1 := laneAnswered d p q
      if q.2.2 = 2 ∧ calBusy d1 p ∧ calLane d1 p = l then calEnd d1 p
      else if q.2.2 = 3 ∧ hoOf d1 p = some (l, true) then hoNext d1 (engineOf p) l
      else d1
  | none => d

/-- CAL_STEP: the other end's sweep stands at a point, and this end returns its eye there (R415, R422). -/
def laneOpStep (d : Dev) (p l step eye : Nat) : Dev :=
  laneAsk (modLink d p (fun x => { x with step := step % 256, stepEye := eye % 65536 })) p 4 l 2

/-- A lane operation of the other end, acted on once for its number (R415). -/
def laneOp (d : Dev) (p op l reason num step eye : Nat) : Dev :=
  if portSt d p != 2 || !decide (p < 39 ∧ l < 8) || num % 256 == (linkOf d p).opEcho then d
  else
    let d1 := modLink d p (fun x => { x with opEcho := num % 256 })
    match op with
    | 1 => laneRemove d1 p l reason
    | 2 => laneAdd d1 p l reason
    | 3 => laneAck d1 p l
    | 4 => laneOpStep d1 p l step eye
    | 5 => laneNak d1 p l
    | _ => d1

/-- LANE_REMOVE (R415). -/
def execLaneRemove (port lane reason num : Nat) (s : State) : Host.Outcome State Fault Refusal :=
  finishDev s (laneOp s.dev port 1 lane reason num 0 0)
/-- LANE_ADD; `passed`: this end's lane test of the lane has passed by now (R415). -/
def execLaneAdd (port lane reason num : Nat) (passed : Bool) (s : State) : Host.Outcome State Fault Refusal :=
  let d := s.dev
  finishDev s (if portSt d port = 2 ∧ port < 39 then
    laneOp (if passed then modLane d port lane (fun x => { x with test := 2 }) else d) port 2 lane reason num 0 0
  else d)
/-- LANE_ACK (R415). -/
def execLaneAck (port lane num : Nat) (s : State) : Host.Outcome State Fault Refusal :=
  finishDev s (laneOp s.dev port 3 lane 0 num 0 0)
/-- LANE_NAK (R415). -/
def execLaneNak (port lane num : Nat) (s : State) : Host.Outcome State Fault Refusal :=
  finishDev s (laneOp s.dev port 5 lane 0 num 0 0)
/-- LANE_CAL_STEP; `eye`: what this end measures at that point (R415, R422). -/
def execLaneCalStep (port lane : Nat) (point : SweepPoint) (num : Nat) (s : State) : Host.Outcome State Fault Refusal :=
  finishDev s (laneOp s.dev port 4 lane 2 num point.step point.eye)

/-- CONTROL_SLOT_RECEIVE: acknowledgements, echoes, the replay request and the LANE field (R277, R284, R285, R415). The
halyard message it carries is HALYARD_RECEIVE's. -/
def execControlSlotReceive (port : Nat) (slot : List Byte) (s : State) : Host.Outcome State Fault Refusal :=
  let d := s.dev
  finishDev s (if portSt d port = 2 ∧ port < 39 then
    let d1 := replayRequest d port (bytesNat slot 24 1) (slotRanges slot)
    let d2 := modLink d1 port (fun x => slotLink x d.tm.gt (copiedLseqs d1 port) slot)
    let x := linkOf d2 port
    let d3 := if bytesNat slot 47 1 = x.opNum ∧ x.req.isSome ∧ !x.opDone then laneNext d2 port (fun x => { x with opDone := true }) else d2
    laneOp d3 port (bytesNat slot 44 1) (bytesNat slot 45 1 % 8) (bytesNat slot 45 1 / 8) (bytesNat slot 46 1) (bytesNat slot 52 1)
      (portLane d3 port (bytesNat slot 45 1 % 8)).eye
  else d)

/-! ### Ring loops (R410 to R412, R418, R419) -/

/-- One update of a ring: whether a limit of R411 is broken three times running, and the new counts. -/
def ringBad (c : Nat × Nat) (err : Int) (monitor : Nat) : Nat × Nat :=
  (if err < -400 ∨ 400 < err then c.1 + 1 else 0, if monitor < 10 then c.2 + 1 else 0)

/-- A heater setting within the slew limit of the one before, 0.7 GHz or 8.75 µW, taken as 9 µW, and within the heater's range
(R411; assumption log 148, DEDUCED). -/
def slewed (was want : Nat) : Nat := min 25000 (max (was - 9) (min (was + 9) want))

/-- One ring after an update at detuning `err`: its lock state, heater, detuning, bad counts and pending hop. In standby a loop
whose monitor is dark holds its heater (R410 to R412, R434). -/
def ringUpdate (standby : Bool) (heat : Nat) (hop : Bool) (bad : Nat × Nat) (det : Nat) (err : Int) (monitor heater : Nat) :
    Nat × Nat × Bool × (Nat × Nat) × Nat :=
  if standby && decide (monitor < 10) then (4, heat, hop, (0, 0), det)
  else
    let h := slewed heat heater
    let c := ringBad bad err monitor
    let hop1 := hop || decide (23000 < h ∨ h < 2000)
    let lost := decide (3 ≤ c.1 ∨ 3 ≤ c.2) || h == 0 || h == 25000
    (if lost then 5 else 3, h, hop1, c, wrapInt 16 err)

/-- RING_LOOP_UPDATE: the ring's error in hundredths of a GHz, what its monitor and its filter read, and the heater power the
loop calls for in µW (R410 to R412, R415, R434). -/
def execRingLoopUpdate (port lane : Nat) (rx : Bool) (err : Int) (sample : RingSample) (heater : Nat) (s : State) :
    Host.Outcome State Fault Refusal :=
  let d := s.dev
  let x := portLane d port lane
  let lock := if rx then x.rxLock else x.txLock
  let standby := d.pwr.st == 2 || (linkOf d port).farMode == 2
  finishDev s (if isOptical port ∧ lane < 8 ∧ (lock = 3 ∨ (lock = 4 ∧ standby)) then
    modLane d port lane (fun x =>
      if rx then
        let (k, h, o, c, v) := ringUpdate standby x.rxHeater x.hopRx x.badRx x.rxDetune err sample.monitor heater
        { x with rxLock := k, rxHeater := h, hopRx := o, badRx := c, rxDetune := v, rxPwr := wrapInt 16 sample.pwr }
      else
        let (k, h, o, c, v) := ringUpdate standby x.txHeater x.hopTx x.badTx x.txDetune err sample.monitor heater
        { x with txLock := k, txHeater := h, hopTx := o, badTx := c, txDetune := v })
  else d)

/-- RING_UNLOCK: a ring has lost lock, and its lane is removed by marker (R414, R418, R423). -/
def execRingUnlock (port lane : Nat) (s : State) : Host.Outcome State Fault Refusal :=
  let d := s.dev
  let x := portLane d port lane
  finishDev s (if isOptical port ∧ lane < 8 ∧ (x.txLock = 5 ∨ x.rxLock = 5) then
    let d1 := modLane d port lane (fun x => { x with unlocks := min 255 (x.unlocks + 1), badTx := (0, 0), badRx := (0, 0) })
    let d2 := dayBump (laneOut (regBump d1 0x3000010 1) port lane) (100 + port) 1
    linkRec d2 port 0x0944 0 lane (laneCount (linkOf d2 port)) 1
  else d)

/-- Whether a lane is out to be brought back: not in this end's mask, its port up, the lane not retired, not out for a
calibration or a handover, and not asked for already. -/
def laneAway (d : Dev) (p l : Nat) : Bool :=
  decide (p < 39 ∧ l < 8) && portSt d p == 2 && !laneIn d p l && !natBit (retiredLanes d p) l &&
    !(calBusy d p && calLane d p == l) && (hoOf d p).all (fun h => h.1 != l) && (laneAsked d p l).isNone

/-- The engine's temperature and its rate, as the relock samples them (R418, R438). -/
def engineSample (d : Dev) (p temp : Nat) (rate : Int) : Dev :=
  if isOptical p then
    let o := 0x3010000 + 0x1000 * engineOf p
    let d1 := regPutField (regPutField d o 0 8 temp) o 8 8 (wrapInt 8 rate)
    regPutField d1 o 16 8 (max (regField d o 16 8) (min 255 rate.natAbs))
  else d

/-- Whether a relock may begin: the engine's rate is below 40 °C/ms, or the wait of 10 ms is over (R418). -/
def rateCalm (d : Dev) (p l : Nat) (rate : Int) : Bool :=
  !isOptical p || decide (rate.natAbs < 40) || aonPassed d (portLane d p l).since 10000000

/-- RING_RELOCK: one relock attempt, or one retry of a failed lane that a calibration turn has begun, with the heater powers it
found and the engine's temperature (R418, R419, R461). -/
def execRingRelock (port lane : Nat) (ok : Bool) (heat : RingHeat) (engine : EngineTemp) (s : State) :
    Host.Outcome State Fault Refusal :=
  let d := engineSample s.dev port engine.temp engine.rate
  let retry := natBit (failedLanes d port) lane
  let q := portLane d port lane
  finishDev s (if laneAway s.dev port lane then
    if !rateCalm d port lane engine.rate || (retry && q.txLock != 1) then d
    else if ok && decide (heat.tx ≤ 25000 ∧ heat.rx ≤ 25000) then
      let d1 := modLane d port lane (fun x => { x with txLock := 3, rxLock := 3, txHeater := heat.tx, rxHeater := heat.rx, attempts := 0 })
      laneRejoin d1 port lane (if retry then 4 else 1)
    else if retry then
      let n := q.retries + 1
      let d1 := putLocks (modLane d port lane (fun x => { x with retries := n, test := 3 })) port lane 0
      if 8 ≤ n then laneRetire d1 port lane else d1
    else
      let n := q.attempts + 1
      let d1 := modLane d port lane (fun x => { x with attempts := n, test := 3 })
      if 3 ≤ n then laneFailed d1 port lane 1 else d1
  else s.dev)

/-! ### Calibration (R421 to R423, R461, R483) -/

/-- The lanes of a port that are failed and not retired start a retry (R419). -/
def retryFailed (d : Dev) (p : Nat) : Dev :=
  (rangeFrom 0 8).foldl (fun e l =>
    if natBit (failedLanes e p) l && !natBit (retiredLanes e p) l then putLocks e p l 1 else e) d

/-- The next lane in ascending order from `l` that is neither failed nor retired, among `k`. -/
def nextCal (d : Dev) (p l fuel : Nat) : Nat :=
  match fuel with
  | 0 => l
  | fuel + 1 =>
    if natBit (failedLanes d p) l || natBit (retiredLanes d p) l then nextCal d p ((l + 1) % 8) fuel else l

/-- Whether this end leads its port's calibrations: it has the lower node number (R421). -/
def leads (d : Dev) (p : Nat) : Bool := decide (ownNode d < regField d (portOff p) 16 16)

/-- Whether port `p`, which is up, has its turn now (R421, R461). -/
def turnNow (d : Dev) (p : Nat) : Bool := portSt d p == 2 && decide ((linkOf d p).turnDue ≤ d.boot.aonNs)

/-- CALIBRATION_TURN: both ends retry failed lanes, and the end that leads calibrates the next lane (R419, R421). -/
def execCalibrationTurn (port : Nat) (s : State) : Host.Outcome State Fault Refusal :=
  let d := s.dev
  finishDev s (if isOptical port && turnNow d port then
    let d1 := nextTurn (retryFailed d port) port
    if !leads d1 port then d1 else
    let l := nextCal d1 port (optPortOf d1 (port - 7)).calNext 8
    let d2 := modOptPort d1 (port - 7) (fun x => { x with calNext := (l + 1) % 8 })
    if 7 ≤ portLanes d2 port ∧ laneIn d2 port l ∧ !calBusy d2 port ∧ !hoHolds d2 port ∧ (linkOf d2 port).asked = [] then
      let d3 := modLane (putCal d2 port l 1) port l (fun x => { x with saved := some (x.txHeater, x.rxHeater) })
      laneAsk d3 port 1 l 2
    else d2
  else d)

/-- The heater power a calibration settles on: within the sweeps, ±23 GHz or 288 µW, of the setpoint before, which a pending hop
moves by 20 mW to the adjacent resonance order (R412, R422). -/
def calHeater (hop : Bool) (was found : Nat) : Nat :=
  let base := if !hop then was else if 20000 ≤ was then was - 20000 else if was ≤ 5000 then was + 20000 else was
  min 25000 (max (base - 288) (min (base + 288) found))

/-- A calibrated lane keeps its result and asks to return (R412, R422). -/
def calibrated (d : Dev) (p l eye tx rx : Nat) : Dev :=
  let was := portLane d p l
  let t := calHeater was.hopTx was.txHeater tx
  let r := calHeater was.hopRx was.rxHeater rx
  let now := { was with
    eye := eye, txHeater := t, rxHeater := r, calTx := t, calRx := r, hopTx := false, hopRx := false, txLock := 3, rxLock := 3, saved := none }
  let d1 := replanCal (modLane d p l (fun _ => now)) p was now
  laneRejoin d1 p l 2

/-- CALIBRATION_DONE: the eye and the heater powers of the calibrated lane (R422). -/
def execCalibrationDone (port eye tx rx : Nat) (s : State) : Host.Outcome State Fault Refusal :=
  let d := s.dev
  finishDev s (if isOptical port ∧ portSt d port = 2 ∧ calBusy d port ∧ !laneIn d port (calLane d port) then
    calibrated (regBump d 0x3000014 1) port (calLane d port) eye tx rx
  else d)

/-- BOARD_ADAPT_TURN: failed lanes are retried, and the next lane of a board port leaves for its re-adaptation; `eye` is what that
measures (R417, R419, R461). -/
def execBoardAdaptTurn (port eye : Nat) (s : State) : Host.Outcome State Fault Refusal :=
  let d := s.dev
  finishDev s (if decide (port < 7) && turnNow d port then
    let d1 := nextTurn (retryFailed d port) port
    let l := nextCal d1 port (linkOf d1 port).adaptNext 8
    let d2 := modLink d1 port (fun x => { x with adaptNext := (l + 1) % 8 })
    if 7 ≤ portLanes d2 port ∧ laneIn d2 port l ∧ (linkOf d2 port).asked = [] then
      laneAsk (modLane d2 port l (fun x => { x with saved := some (eye, 0) })) port 1 l 2
    else d2
  else d)

end Sys2Proof.Machine
end

