-- ==== Sys2Proof/Machine/Optics.lean ====
section
/-! DEFINITION. Lasers, eye safety and the training of optical and board ports (R15, R18, R291, R292, R424 to R436, R462,
R482). -/

namespace Sys2Proof.Machine

/-! ### Lasers (R425 to R427) -/

/-- A laser record: the engine's first optical port is its instance, the channel is named (R467, R469). -/
def laserRec (d : Dev) (e k ev cls : Nat) (ledger : Bool) : Dev :=
  let p := 7 + 4 * e
  postRecord d { recPort ev cls (4 * e) p (laneDetail k (laneCount (linkOf d p)) (if ev = 0x0949 then 3 else 0) k) with ledger := ledger }

/-- A bobbin's laser leaves service with its ledger entry: `spare` says which of the two (R452). -/
def laserRetire (d : Dev) (e k : Nat) (spare : Bool) (ev : Nat) : Dev :=
  let d1 := modLaser d e k (fun x => { x with retired := natPut x.retired spare.toNat 1 1 })
  callEntry d1 6 (e + 8 * k + 64 * spare.toNat) ev 1

/-- LASER_POWER_SAMPLE: a 1 ms sample of the active laser: output relative to P_c in hundredths of a dB, bias in tenths of a mA,
frequency offset in tenths of a GHz (R425, R426). -/
def execLaserPowerSample (engine chan : Nat) (power : Int) (bias : Nat) (freq : Int) (s : State) :
    Host.Outcome State Fault Refusal :=
  let d := s.dev
  let x := laserOf d engine chan
  finishDev s (if engine < 8 ∧ chan < 8 then
    let fade := decide (power ≤ -(10 * Int.ofNat (spareEff d x)))
    let eol := decide (power ≤ -(10 * Int.ofNat (eolDb d)))
    modLaser d engine chan (fun x => { x with
      power := wrapInt 16 power
      bias := min x.biasLimit bias
      freqOfs := wrapInt 16 freq
      fadeRun := if fade then x.fadeRun + 1 else 0
      eolRun := if eol then x.eolRun + 1 else 0 })
  else d)

/-- LASER_FADE: 1,000 samples at or below the spare threshold (R426, R427). -/
def execLaserFade (engine chan : Nat) (s : State) : Host.Outcome State Fault Refusal :=
  let d := s.dev
  let x := laserOf d engine chan
  finishDev s (if engine < 8 ∧ chan < 8 ∧ x.st = 0 ∧ 1000 ≤ x.fadeRun then
    let d1 := laserRec d engine chan 0x0948 0 false
    if x.spareOk then tryHandover (modLaser d1 engine chan (fun x => { x with st := 1 })) engine chan
    else laserRec (modLaser d1 engine chan (fun x => { x with st := 3 })) engine chan 0x094A 0 false
  else d)

/-- Lane `k` of an engine's ports is lost for good: a port that falls below six lanes is retired (R312, R426). -/
def loseChannel (k : Nat) (d : Dev) (p : Nat) : Dev :=
  let d1 := putRetired (putFailed (putLocks d p k 0) p k 1) p k
  if portSt d1 p != 2 then d1
  else
    let d2 := if calBusy d1 p && calLane d1 p != k then stopCal d1 p else d1
    let left := natPut (linkOf d2 p).mask k 1 0
    if popcount8 left < 6 then retirePort d2 p k 0 else dropLane d2 p k

/-- LASER_EOL: 1,000 samples at or below the end-of-life threshold, with no good spare (R426). -/
def execLaserEol (engine chan : Nat) (s : State) : Host.Outcome State Fault Refusal :=
  let d := s.dev
  let x := laserOf d engine chan
  finishDev s (if engine < 8 ∧ chan < 8 ∧ x.st < 4 ∧ !x.spareOk ∧ 1000 ≤ x.eolRun then
    let d1 := laserRetire (modLaser d engine chan (fun x => { x with st := 4 })) engine chan x.active 0x094C
    (enginePorts engine).foldl (loseChannel chan) (laserRec d1 engine chan 0x094C 1 true)
  else d)

/-- A lane that has lost its light leaves by marker, to be relocked (R426). -/
def darkChannel (k : Nat) (d : Dev) (p : Nat) : Dev := if laneIn d p k then laneOut d p k else putLocks d p k 0

/-- LASER_FAIL: the active laser stops lasing, or falls by more than EOL_DB within one sample (R426). -/
def execLaserFail (engine chan : Nat) (s : State) : Host.Outcome State Fault Refusal :=
  let d := s.dev
  let x := laserOf d engine chan
  finishDev s (if engine < 8 ∧ chan < 8 ∧ x.st < 4 then
    let d1 := laserRetire (modLaser d engine chan (fun x => { x with st := if x.spareOk then 2 else 5 })) engine chan x.active 0x094B
    (enginePorts engine).foldl (darkChannel chan) (laserRec d1 engine chan 0x094B 1 true)
  else d)

/-- The ports held for bobbin `k` of engine `e` are free of it: its lanes return by relock (R426). -/
def hoDrop (d : Dev) (e k : Nat) : Dev :=
  (enginePorts e).foldl (fun x p => if hoOf x p = some (k, true) then hoFree x p else x) d

/-- LASER_HANDOVER: steps 3 to 5 have ended, with the spare in the laser's place or with the spare bad; a handover whose step 2 has
not ended goes on with that (R426, R427). -/
def execLaserHandover (engine chan : Nat) (ok : Bool) (s : State) : Host.Outcome State Fault Refusal :=
  let d := s.dev
  let x := laserOf d engine chan
  let failed := natBit x.retired x.active.toNat
  let ports := enginePorts engine
  let back := fun (e : Dev) => if failed then tryHandovers (hoDrop e engine chan) engine else hoNext e engine chan
  finishDev s (if engine < 8 ∧ chan < 8 ∧ x.st = 2 ∧ x.spareOk then
    if !failed && !ports.all (fun p => hoClear d p chan) then hoPush chan d ports
    else if ok then
      let d1 := modLaser d engine chan (fun x => { x with
        st := 0, active := !x.active, spareOk := false, power := 0, fadeRun := 0, eolRun := 0, spareDb := x.spareDue, spareDue := none })
      if failed then back d1
      else back (laserRec (laserRetire (regBump d1 0x3000018 1) engine chan x.active 0x0949) engine chan 0x0949 0 true)
    else
      let d1 := modLaser d engine chan (fun x => { x with st := if failed then 5 else 3, spareOk := false, fadeRun := 0, spareDb := if x.spareDue.isSome then x.spareDue else x.spareDb, spareDue := none })
      back (laserRec (laserRetire d1 engine chan (!x.active) 0x094F) engine chan 0x094F 1 true)
  else d)

/-! ### Eye safety (R431 to R433) -/

/-- Times within the last hour. -/
def lastHour (d : Dev) (l : List Nat) : List Nat := l.filter (fun t => decide (gtimeNs d < t + 3600000000000))

/-- A port enters safe pulse mode: it is down to the router until it retrains, or, miswired, until the next start (R292); more than three entries, or two trips of
the cap, in one hour retire it (R432, R433). -/
def safePulse (d : Dev) (p : Nat) (cap : Bool) (ev : Nat) : Dev :=
  let q := p - 7
  let now := gtimeNs d
  let d1 := modOptPort (regBump d 0x3000020 1) q (fun x => { x with
    safeAt := lastHour d x.safeAt ++ [now]
    capAt := if cap then lastHour d x.capAt ++ [now] else lastHour d x.capAt
    tries := 0 })
  let d2 := linkRec d1 p ev 0 0 0 1
  let x := optPortOf d2 q
  if 3 < x.safeAt.length ∨ 2 ≤ x.capAt.length then retirePort d2 p 0 1
  else
    let d3 := regPutField (regPutField (regPutField d2 (portOff p) 0 3 (if portSt d2 p = 4 then 4 else 1)) (portOff p) 3 8 0) (portOff p) 11 1 0
    let d4 := regPutField (regPutField d3 (optOff p) 0 12 1) (optOff p) 31 1 0
    let d5 := modLink d4 p (fun x => { linkDown x with farMode := 0 })
    hoRelease ((rangeFrom 0 8).foldl (fun e l => putLocks e p l 0) (unheard d5 p)) p

/-- PORT_PWR_q of router port `p`: LAUNCH, or INPUT with `lo` 16. -/
def putPower (d : Dev) (p lo : Nat) (v : Int) : Dev := regPutField d (optOff p + 4) lo 16 (wrapInt 16 v)

/-- LAUNCH_CAP: the launch tap's reading in hundredths of a dBm (R431). -/
def execLaunchCap (port : Nat) (launch : Int) (s : State) : Host.Outcome State Fault Refusal :=
  let d := s.dev
  finishDev s (if isOptical port then
    let d1 := putPower d port 0 launch
    if 1050 < launch ∧ portSt d port ≠ 3 ∧ optEnabled d (port - 7) then safePulse d1 port true 0x094E else d1
  else d)

/-- OPEN_FIBRE: the input tap's reading over 20 µs (R432, R434). -/
def execOpenFibre (port : Nat) (input : Int) (s : State) : Host.Outcome State Fault Refusal :=
  let d := s.dev
  finishDev s (if isOptical port then
    let d1 := putPower d port 16 input
    let mode := regField d (optOff port) 0 4
    if input < -1800 ∧ (mode = 2 ∨ mode = 3 ∨ mode = 4) ∧ optEnabled d (port - 7) then safePulse d1 port false 0x094D else d1
  else d)

/-! ### Training (R291, R292, R428 to R430, R462) -/

/-- The partner of internal optical port `q` (R291): its node number. -/
def fibrePartner (d : Dev) (q : Nat) : Nat :=
  let n := ownNode d
  let b := n / 8 % 8
  let s := n % 8
  if q ≤ 6 then n / 64 * 64 + 8 * (b ^^^ (q + 1)) + s
  else n / 64 * 64 + 8 * (b ^^^ (q - 6)) + (s ^^^ 4)

/-- Whether an optical port's partner breaks the rack fibre map; bulkhead ports are not checked (R292). -/
def fibreWrong (d : Dev) (p node : Nat) : Bool := decide (p - 7 < 12) && node != fibrePartner d (p - 7)

/-- The slot R15 predicts behind board port `p`. -/
def boardPartner (d : Dev) (p : Nat) : Nat := (ownSlot d + p + 1) % 8

/-- A trained port whose wiring is wrong stays out of the fabric until the next start (R15, R292). -/
def wiringWrong (d : Dev) (p : Nat) : Dev := regPutField (regPutField d (portOff p) 0 3 4) (portOff p) 11 1 0

/-- An optical port's training ends: it comes up, is found miswired, or tries once more (R429). -/
def trainOptical (d : Dev) (r : TrainResult) : Dev :=
  let p := r.port
  if popcount8 (r.mask % 256) < 6 then
    let n := (optPortOf d (p - 7)).tries + 1
    let d1 := modOptPort d (p - 7) (fun x => { x with tries := n })
    if 2 ≤ n then regPutField d1 (portOff p) 0 3 0 else d1
  else
    let d1 := (rangeFrom 0 8).foldl (fun e l => modLane e p l (fun x =>
        if natBit r.mask l then { x with txLock := 3, rxLock := 3, test := 2 } else { x with txLock := 0, rxLock := 0, test := 3 })) (portTrained d p (r.mask % 256) r.node r.rtt r.asym)
    let d2 := modOptPort d1 (p - 7) (fun x => { x with tries := 0 })
    if fibreWrong d2 p r.node then wiringWrong d2 p else settleFence (emit d2 (.nodeNumber p (ownNode d2))) p

/-- A board port's training ends (R462): a port of fewer than six lanes stays untrained. -/
def trainBoard (d : Dev) (r : TrainResult) : Dev :=
  let p := r.port
  if popcount8 (r.mask % 256) < 6 then d
  else
    let d1 := portTrained d p (r.mask % 256) r.node r.rtt r.asym
    let d2 := regPutField d1 (portOff p) 7 4 8
    if r.node % 8 ≠ boardPartner d p ∨ r.farPort ≠ 6 - p then wiringWrong d2 p
    else { d2 with ni := { d2.ni with peers := smapSet d2.ni.peers (r.node % 8) r.part } }

/-- PARTNER_PULSES_SEEN: a port in safe pulse mode retrains, unless two attempts have left it untrained (R429), and its partner's node is checked again (R292, R432). -/
def execPartnerPulsesSeen (r : TrainResult) (s : State) : Host.Outcome State Fault Refusal :=
  let d := s.dev
  finishDev s (if isOptical r.port ∧ optEnabled d (r.port - 7) ∧ (portSt d r.port = 1 ∨ (portSt d r.port = 0 ∧ (optPortOf d (r.port - 7)).tries < 2)) ∧ regField d (optOff r.port) 0 4 = 1 then trainOptical d r else d)

end Sys2Proof.Machine
end

