-- ==== Sys2Proof/Machine/Package.lean ====
section
/-! DEFINITION. The package: its lands, fibres and rails, and what PCIe configuration space presents (R501, R502, R566 to R573). No
command acts on a land or a fibre; the tables say what each is. -/

namespace Sys2Proof.Machine

/-! ### Rails (R572, R573) -/

/-- A supply: its name, operating range and trip window in millivolts, and its continuous and peak currents in milliamperes.
The rails come up in the order of the table. -/
structure RailRow where
  name : String
  low : Nat
  high : Nat
  trips : Option (Nat × Nat)
  amps : Nat
  peak : Nat
  deriving DecidableEq, Repr

/-- The six supplies; row `k` is bit `k` of the power-good mask (R447, R572). -/
def rails : List RailRow := [
  ⟨"VDD_AON_3V3", 3135, 3465, none, 600, 1000⟩,
  ⟨"VDD_IO_1V8", 1710, 1890, some (1620, 1980), 8000, 10000⟩,
  ⟨"VIN_12V", 11400, 12600, some (10800, 13200), 190000, 230000⟩,
  ⟨"VDD_DRAM_0V75", 728, 773, some (700, 800), 110000, 130000⟩,
  ⟨"VDD_DRAM_1V05", 1019, 1082, some (980, 1120), 200000, 240000⟩,
  ⟨"VDD_LASER_3V3", 3135, 3465, some (3000, 3600), 20000, 24000⟩]

/-- Whether rail `rail` at `mv` millivolts has left its trip window; VDD_AON_3V3 has none (R547, R572). -/
def railTrips (rail mv : Nat) : Bool :=
  match (rails[rail]?).bind (fun r => r.trips) with
  | some (lo, hi) => decide (mv < lo ∨ hi < mv)
  | none => false

/-! ### Lands (R566 to R568) -/

/-- What a land carries. `rx` false is the device's transmitter, `neg` false the P leg. -/
inductive Land where
  | board (port lane : Nat) (rx neg : Bool)
  | pcie (lane : Nat) (rx neg : Bool)
  | signal (name : String)
  | rail (bit : Nat)
  | gnd
  deriving DecidableEq, Repr

/-- Row and column of a board-link land (R567). -/
def boardLand (port lane d s : Nat) : Nat × Nat := (3 + 6 * d + 2 * (lane / 4), 6 + 12 * port + 3 * (lane % 4) + s)
/-- Row and column of a PCIe land (R567). -/
def pcieLand (lane d s : Nat) : Nat × Nat := (81 + 4 * d + 2 * (lane / 8), 40 + 2 * (lane % 8) + s)

/-- The clock and control lands (R568). -/
def controlLands : List (Nat × Nat × String) := [
  (91, 40, "PCIE_REFCLK_P"), (91, 41, "PCIE_REFCLK_N"), (91, 44, "SYSCLK_P"), (91, 45, "SYSCLK_N"),
  (93, 20, "SLOT_ID[0]"), (93, 21, "SLOT_ID[1]"), (93, 22, "SLOT_ID[2]"), (93, 24, "RESET_N"), (93, 26, "PERST_N"),
  (93, 28, "WAKE_N"), (93, 30, "THERMTRIP_N"), (93, 32, "SB_SCL"), (93, 34, "SB_SDA"), (93, 36, "MON_TXD"), (93, 38, "MON_RXD")]

/-- The rail a land of row `r` and column `c` carries, if it carries one (R566, R568). -/
def railLand (r c : Nat) : Option Nat :=
  let mid := decide (20 ≤ r ∧ r ≤ 74) && (r + c) % 2 == 0
  if r = 93 ∧ 60 ≤ c ∧ c ≤ 63 then some 0
  else if r = 77 ∧ c % 2 = 0 then some 1
  else if mid ∧ 20 ≤ c ∧ c ≤ 75 then some 2
  else if mid ∧ 79 ≤ c ∧ c ≤ 94 then some 3
  else if mid ∧ 1 ≤ c ∧ c ≤ 16 then some 4
  else if r = 17 ∧ c % 2 = 0 then some 5
  else none

/-- What the land at row `r` and column `c` carries; one that R566 to R568 do not name is GND. -/
def landAt (r c : Nat) : Land :=
  let sides := [(0, 0), (0, 1), (1, 0), (1, 1)]
  let hit : Option Land := sides.findSome? (fun ds =>
    ((rangeFrom 0 56).findSome? (fun i =>
      if boardLand (i / 8) (i % 8) ds.1 ds.2 = (r, c) then some (.board (i / 8) (i % 8) (ds.1 == 1) (ds.2 == 1)) else none)).orElse
    (fun _ => (rangeFrom 0 16).findSome? (fun i =>
      if pcieLand i ds.1 ds.2 = (r, c) then some (.pcie i (ds.1 == 1) (ds.2 == 1)) else none)))
  match hit, controlLands.find? (fun e => e.1 == r && e.2.1 == c), railLand r c with
  | some l, _, _ => l
  | none, some e, _ => .signal e.2.2
  | none, none, some k => .rail k
  | none, none, none => .gnd

/-! ### Fibres (R569, R570) -/

/-- The optical port of fibre `f` of ferrule block `b`, and whether the fibre is its transmit fibre. -/
def fibrePort (b f : Nat) : Nat × Bool := (8 * b + f / 2, f % 2 == 0)
/-- The ferrule block and fibre of an optical port's transmitter, or of its receiver. -/
def portFibre (k : Nat) (rx : Bool) : Nat × Nat := (k / 8, 2 * (k % 8) + rx.toNat)
/-- The fibre a trunk between blocks of one number joins fibre `f` to. -/
def trunkFibre (f : Nat) : Nat := f ^^^ 1

/-! ### PCIe configuration space (R501, R502) -/

/-- Vendor and device ID. -/
def configId : Nat × Nat := (0x1CE5, 0x4A58)
/-- Class code: a processing accelerator. -/
def configClass : Nat := 0x120000
/-- Subsystem ID: the part, and 0 until stage 2 has passed. -/
def configSubsystem (d : Dev) : Nat := if 3 ≤ regField d 0x800 0 4 then d.boot.part else 0
/-- The Device Serial Number: bytes 64 to 71 of the variant record. -/
def configSerial (d : Dev) : List Byte := (d.boot.applied.drop 64).take 8
/-- Bytes of a BAR: 64 MiB of registers, 64 GiB of board window; every other is unimplemented. -/
def barSize (bar : Nat) : Nat := match bar with | 0 => 2 ^ 26 | 2 => 2 ^ 36 | _ => 0

end Sys2Proof.Machine
end

