-- ==== Sys2Proof/Machine/Trip.lean ====
section
/-! DEFINITION. Trips and emergency power-off: lasers and supplies off (R491, R547 to R549, R574). -/

namespace Sys2Proof.Machine

/-- Every laser is off: an optical port that is not retired is off and down (R491, R547, R576). -/
def lasersOff (d : Dev) : Dev :=
  (rangeFrom 7 32).foldl (fun e p =>
    if portSt e p = 3 then e
    else
      let d1 := regPutField (regPutField (regPutField e (portOff p) 0 3 0) (portOff p) 3 8 0) (portOff p) 11 1 0
      let d2 := regPutField (regPutField d1 (optOff p) 0 12 0) (optOff p) 31 1 0
      modLink d2 p linkDown) d

/-- The package trips: TRIP_CAUSE, THERMTRIP_N, lasers and supplies. An entry or exit under way ends (R547, R550). -/
def packageTrip (d : Dev) (source inst reading : Nat) : Dev :=
  if d.pwr.tripped then d
  else
    let d1 := regPutNat (lasersOff d) 0x38000C0 (source % 16 + 16 * (inst % 256) + 4096 * (min reading 4095))
    let d2 := emit d1 (.pin "THERMTRIP_N" false)
    { d2 with pwr := { d2.pwr with tripped := true, entering := false, accepted := false, exiting := false, latched := false } }

/-- RAIL_TRIP (R547, R572). -/
def execRailTrip (rail mv : Nat) (s : State) : Host.Outcome State Fault Refusal :=
  finishDev s (if railTrips rail mv then packageTrip s.dev 4 rail mv else s.dev)

end Sys2Proof.Machine
end

