-- ==== Sys2Proof/Machine/Stacks.lean ====
section
/-! DEFINITION. Stacks and base dies: temperature, throttling, scrubbing, retirement, retention and the ledger's appends
(R220, R237 to R250, R453). -/

namespace Sys2Proof.Machine

/-- Stack `k` changed. -/
def modStack (d : Dev) (k : Nat) (g : StackState → StackState) : Dev := { d with stk := smapSet d.stk k (g (stackOf d k)) }
/-- WARM in effect (R251). -/
def stackWarm (d : Dev) : Nat := max 85 (min 100 (regField d 0x2000010 0 8))
/-- HYST in effect. -/
def stackHyst (d : Dev) : Nat := max 1 (regField d 0x2000010 8 8)
/-- DWELL in effect, in nanoseconds. -/
def stackDwell (d : Dev) : Nat := max 100 (regField d 0x2000010 16 16) * 1000
/-- A stack record (R467, R469). -/
def stackRec (d : Dev) (k ev cls : Nat) : Dev :=
  let x := stackOf d k
  postRecord d (recOf ev cls k (leBytes 1 x.temp ++ leBytes 1 x.step ++ leBytes 1 x.margin))
/-- The step of a stack changes now (R247). -/
def putStep (d : Dev) (k v : Nat) : Dev :=
  modStack d k (fun x => { x with step := v, since := gtimeNs d, coolSince := x.coolSince.map (fun _ => gtimeNs d) })

/-- A sample of stack `stack` in °C (R247). -/
def stackSample (d : Dev) (stack temp : Nat) : Dev :=
  if stack < 20 then
    let cool := decide (temp + stackHyst d ≤ stackWarm d)
    let d1 := modStack d stack (fun x => { x with
      temp := temp
      maxTemp := max x.maxTemp temp
      dayMax := max x.dayMax temp
      coolSince := if cool then some (x.coolSince.getD (gtimeNs d)) else none })
    let d2 := if (stackOf d1 stack).step = 0 ∧ stackWarm d ≤ temp then stackRec (putStep d1 stack 1) stack 0x0540 0 else d1
    if 105 ≤ temp then packageTrip d2 2 stack temp else d2
  else d

/-- STACK_THROTTLE_DWELL: DWELL has passed; the throttle steps further or back (R247). -/
def execStackThrottleDwell (stack : Nat) (s : State) : Host.Outcome State Fault Refusal :=
  let d := s.dev
  let x := stackOf d stack
  let now := gtimeNs d
  let cooled : Bool := match x.coolSince with | some t => decide (t + stackDwell d ≤ now) | none => false
  finishDev s (if stack < 20 ∧ (x.step = 1 ∨ x.step = 2) ∧ stackWarm d ≤ x.temp ∧ x.since + stackDwell d ≤ now then
    putStep d stack (x.step + 1)
  else if stack < 20 ∧ 1 ≤ x.step ∧ cooled then putStep d stack (x.step - 1)
  else d)

/-- The budget of a stack for one window, in lines (R246). -/
def stackBudget (x : StackState) : Nat := (if x.classB then 5600 else 6400) * (4 - x.step) / 4

/-- THROTTLE_WINDOW: a 1 µs window ends; of the lines asked for in each class, those the budget serves (R245, R246,
R248). -/
def execThrottleWindow (stack reserved general : Nat) (s : State) : Host.Outcome State Fault Refusal :=
  let d := s.dev
  finishDev s (if stack < 20 then
    modStack d stack (fun x =>
      let r := min reserved (stackBudget x)
      { x with reserved := r, general := min general (stackBudget x - r) })
  else d)

/-! ### Scrubs (R220, R238) -/

/-- Code lines of a pseudo-channel. -/
def linesPerPc (d : Dev) : Nat := partBands d.boot.part * 16384

/-- STACK_SCRUB: the next code line is read; `syms` are the symbols of its codeword that have changed (R236 to R238,
R240). -/
def execStackScrub (stack : Nat) (syms : List (Nat × Nat)) (s : State) : Host.Outcome State Fault Refusal :=
  let d := s.dev
  let x := stackOf d stack
  let per := linesPerPc d
  finish s (if stack < 20 ∧ x.step < 2 ∧ d.pwr.st ≤ 1 ∧ !x.failed ∧ 0 < per then
    let pc := 64 * stack + x.scrubLine / per
    let line := x.scrubLine % per
    let last := x.scrubLine + 1 = 64 * per
    let d1 := modStack d stack (fun x => { x with
      scrubLine := if last then 0 else x.scrubLine + 1, passes := if last then satAdd32 x.passes 1 else x.passes })
    if s.mem.poison.contains (pc * 0x30000000 + line * 64) then (d1, []) else lineErr d1 s.mem true pc line syms
  else (d, []))

/-- Whether an error lies in row `row` of core `n`'s scratchpad: 48 segments of 8 words (R212). -/
def inRow (n row : Nat) (e : MemErr) : Bool :=
  match e with
  | .spad k w _ => k == n && w / 384 == row
  | _ => false

/-- SPAD_SCRUB: the next row of every bank is read; of `errs` it meets those in that row, and a word it newly poisons has
its record without a fault (R216, R217, R220). -/
def execSpadScrub (core : Nat) (errs : List MemErr) (s : State) : Host.Outcome State Fault Refusal :=
  let d := s.dev
  finish s (if coreInService d core && decide (d.pwr.st ≤ 1) then
    let row := (coreOf d core).health.scrubRow
    let d1 := modCore d core (fun k => { k with health := { k.health with scrubRow := (row + 1) % 2048 } })
    portErrs d1 s.mem (errs.filter (inRow core row))
  else (d, []))

/-! ### Retirement (R239, R243, R244) -/

/-- A pseudo-channel is retired, with its record and entry (R239). -/
def retirePc (d : Dev) (pc : Nat) : Dev :=
  let d1 := modStack d (pc / 64) (fun x => { x with retired := keyInsert x.retired (pc % 64) })
  postRecord (callEntry d1 3 pc 0x0643 1) { recOf 0x0643 1 (pc / 64) (leBytes 2 pc) with ledger := true }

/-- Distinct lines of a pseudo-channel found uncorrectable within 24 hours. -/
def ueWithinDay (d : Dev) (pc : Nat) : Nat :=
  (distinct (((smapGet d.mm.ueLines pc []).filter (fun e => within24h d (some e.2))).map (fun e => e.1))).length
/-- Corrections in a pseudo-channel within the last hour. -/
def ceLastHour (d : Dev) (pc : Nat) : Nat := (ceRecent d pc).foldl (fun n e => n + e.2) 0

/-- PC_RETIRED (R239). -/
def execPcRetired (pc : Nat) (s : State) : Host.Outcome State Fault Refusal :=
  let d := s.dev
  finishDev s (if pc < 1280 ∧ !pcRetired d pc ∧ (8 ≤ ueWithinDay d pc ∨ 100000 < ceLastHour d pc) then retirePc d pc else d)

/-- A write to RETIRE_ACK (R240, R244). -/
def retireAckWrite (d : Dev) (seq : Nat) : Dev :=
  match d.mm.pendingAck.find? (fun e => e.1 == seq) with
  | some e =>
    callEntry { d with mm := { d.mm with pendingAck := d.mm.pendingAck.erase e } } 2 (e.2.1 + 2 ^ 11 * e.2.2) 0x0641 1
  | none => regPutField d 0x2001008 16 16 (min 0xFFFF (regField d 0x2001008 16 16 + 1))

/-- LEDGER_APPEND: the oldest entry called for is appended, or finds the ledger full (R453). -/
def execLedgerAppend (s : State) : Host.Outcome State Fault Refusal :=
  let d := s.dev
  finishDev s (match d.boot.due with
    | [] => d
    | e :: t =>
      let d1 := { d with boot := { d.boot with due := t } }
      if d.boot.ledger.length < 8192 then
        { d1 with boot := { d1.boot with
            ledger := d1.boot.ledger ++ [{ e with start := regNat d 0x804, opSeconds := d.boot.opSeconds }] } }
      else if d.boot.ledgerSaid then d1
      else
        let d2 := { d1 with boot := { d1.boot with ledgerSaid := true } }
        postRecord d2 (recOf 0x1010 1 0xFF (bootDetail 0xFFFFFFFF 0 0)))

/-! ### Retention (R249, R250) -/

/-- The age factor a margin in sixteenths calls for. -/
def factorOf (margin : Nat) : Nat := if 64 ≤ margin then 0 else if 48 ≤ margin then 1 else if 40 ≤ margin then 2 else 3

/-- A retention measurement of stack `k` (R249, R250). -/
def retentionMeasured (d : Dev) (k margin : Nat) : Dev :=
  let f := factorOf margin
  let d1 := modStack d k (fun x => { x with
    margin := min 255 margin
    ageFactor := if x.ageFactor ≤ f then f else max f (min x.ageFactor x.lastFactor)
    lastFactor := f })
  if f = 3 then stackRec d1 k 0x0544 0 else d1

end Sys2Proof.Machine
end

