-- ==== Sys2Proof/Machine/Boot.lean ====
section
/-! DEFINITION. Bring-up: the stages, their pennants, the variant record, the ledger's effect and the core map (R1 to R5,
R17, R18, R223, R243, R440 to R460, R519, R523, R549). -/

namespace Sys2Proof.Machine

/-! ### Stage, status and pennants (R445, R446, R463) -/

/-- BRINGUP_STATUS.STAGE -/
def bootStage (d : Dev) : Nat := regField d 0x800 0 4
/-- BRINGUP_STATUS.STATUS -/
def bootStatus (d : Dev) : Nat := regField d 0x800 4 3
/-- BRINGUP_STATUS.READY: stage 9 is complete. -/
def bootReady (d : Dev) : Bool := natBit (regNat d 0x800) 7

/-- A pennant (R445). -/
def pennantBytes (stage status attempt flags starts t0 us ev unit new : Nat) (detail : List Byte) : List Byte :=
  let b := leBytes 1 stage ++ leBytes 1 status ++ leBytes 1 attempt ++ leBytes 1 flags ++ leBytes 4 starts ++
    leBytes 8 t0 ++ leBytes 4 us ++ leBytes 2 ev ++ leBytes 2 unit ++ leBytes 4 new ++ leBytes 4 0 ++ padTo 28 detail
  b ++ leBytes 4 (crc32 b)

/-- A pennant written (R448). -/
def putPennant (d : Dev) (stage : Nat) (b : List Byte) : Dev :=
  { d with boot := { d.boot with pennants := smapSet d.boot.pennants stage b } }

/-- BRINGUP_STATUS set. -/
def putStatus (d : Dev) (stage status : Nat) : Dev := regPutField (regPutField d 0x800 0 4 stage) 0x800 4 3 status

/-- Board ports the variant record enables. -/
def boardEnabled (d : Dev) (p : Nat) : Bool := natBit (bytesNat d.boot.applied 56 1) p
/-- The trained ports with which node numbers have been exchanged, of those of `nums` (R18, R442). -/
def numbersIn (d : Dev) (nums : List (Nat × Nat)) : Bool := (upPorts d).all (fun p => nums.any (fun e => e.1 == p))

/-- Whether stage 8 has all it waits for (R442): a valid node number, an exchange with every trained port (`nums`: router port
and the node number that has come), and locked time. -/
def joinReady (d : Dev) (nums : List (Nat × Nat)) : Bool := natBit (regNat d 0x10) 30 && d.tm.st == 2 && numbersIn d nums

/-- This device's node number sent to every trained neighbour (R18). -/
def sendNumbers (d : Dev) : Dev := (upPorts d).foldl (fun e p => emit e (.nodeNumber p (ownNode e))) d

/-- DETAIL of pennant 8, with the mask of board-port wiring mismatches (R447). -/
def detail8 (d : Dev) (wrong : Nat) : List Byte :=
  leBytes 2 (ownNode d) ++ leBytes 1 d.tm.st ++ leBytes 1 d.tm.depth ++ leBytes 1 wrong ++ leBytes 1 0 ++
    leBytes 2 (regField d 0x1000020 0 16) ++ leBytes 1 (decide (regNat64 d 0x1000010 ≠ 0)).toNat ++ leBytes 1 0 ++ leBytes 2 d.tm.rootNode

/-- A stage starts (R17, R441, R448): its pennant says RUNNING, or WAITING where stage 8 must wait. Stages 6 and 7 set
every enabled port training. -/
def startStage (d : Dev) (stage : Nat) : Dev :=
  let lock := stage == 8 && natBit (regNat d 0x10) 30
  let d1 := if lock then sendNumbers (regPutField d 0x10 31 1 1) else d
  let st := if stage = 8 ∧ !joinReady d1 [] then 2 else 1
  let d2 := { putStatus d1 stage st with boot := { d1.boot with
    stageStart := d1.boot.aonNs, stageLedger := d1.boot.ledger.length + d1.boot.due.length, stageSeq := lastSeq d1 } }
  let d3 := if stage = 6 then
      (rangeFrom 0 7).foldl (fun e p => if boardEnabled e p then regPutField e (portOff p) 0 3 1 else e) d2
    else if stage = 7 then
      (rangeFrom 7 32).foldl (fun e p =>
        if optEnabled e (p - 7) then regPutField (regPutField e (portOff p) 0 3 1) (optOff p) 0 4 1 else e) d2
    else d2
  putPennant d3 stage (pennantBytes stage st 0 0 (regNat d3 0x804) d3.boot.stageStart 0 0 0 0 (if stage = 8 then detail8 d3 0 else []))

/-- EVENT and UNIT of the first record after number `seq`; zeros where there is none. -/
def firstProblem (d : Dev) (seq : Nat) : Nat × Nat :=
  if lastSeq d ≤ seq then (0, 0)
  else
    let r := smapGet d.rcd.log ((seq + 1) % 256) []
    (bytesNat r 0 2, bytesNat r 16 2)

/-- What a stage's work leaves: the device, the changes of memory, the status (3 PASS, 4 DEGRADED, 5 FAIL), its runs, its
DETAIL. -/
structure StageOut where
  dev : Dev
  ops : List MemOp
  status : Nat
  attempt : Nat
  detail : List Byte
  deriving DecidableEq, Repr

/-- A stage's work that changes no memory. -/
def stageOut (d : Dev) (status : Nat) (detail : List Byte) : StageOut := ⟨d, [], status, 1, detail⟩

/-- PASS, or DEGRADED where something is amiss. -/
def passOr (bad : Bool) : Nat := if bad then 4 else 3

/-- A stage has ended: pennant, vector 2 and the monitor's line (R445, R448, R508, R562). -/
def closeStage (d : Dev) (stage flags : Nat) (o : StageOut) : Dev :=
  let fp := firstProblem o.dev d.boot.stageSeq
  let new := o.dev.boot.ledger.length + o.dev.boot.due.length - d.boot.stageLedger
  let d1 := putPennant (putStatus o.dev stage o.status) stage
    (pennantBytes stage o.status o.attempt (flags + 2 * (decide (0 < new)).toNat) (regNat o.dev 0x804) d.boot.stageStart
      ((d.boot.aonNs - d.boot.stageStart) / 1000) fp.1 fp.2 new o.detail)
  monSay (raiseVector d1 2) [.txt "!P", .dec stage, .dec o.status]

/-! ### Stages 0 to 2 (R3, R444, R449 to R454, R519, R549) -/

/-- Stage 0: rails, SLOT_ID and the reset cause. -/
def stage0 (d : Dev) (r : StageResult) : StageOut :=
  stageOut d (if r.rails % 64 = 63 then 3 else 5) (leBytes 2 (r.rails % 64) ++ leBytes 1 (ownSlot d) ++ leBytes 1 d.pwr.cause)

/-- Stage 1: the boot ROM's self-check, the known-answer tests and the identity key; the boot ROM is measured (R524). -/
def stage1 (d : Dev) (r : StageResult) : StageOut :=
  let ok := r.failedTest == 0 && !r.keyBad
  stageOut (if ok then measure d 1 (Config.shake256 (leBytes 4 r.romVersion)) [] else d) (if ok then 3 else 5)
    (leBytes 4 r.romVersion ++ leBytes 1 r.failedTest ++ leBytes 1 r.keyBad.toNat)

/-- Whether a firmware slot can be booted (R444, R519). -/
def slotBoots (d : Dev) (x : FwSlot) : Bool := x.good && decide (regNat d 0x3C00010 ≤ x.svn)

/-- The slot booted (0 A, 1 B), and whether it is the second choice (R444). -/
def pickSlot (d : Dev) : Option (Nat × Bool) :=
  let first := if d.own.slotA.svn < d.own.slotB.svn then 1 else 0
  let get := fun i => if i = 0 then d.own.slotA else d.own.slotB
  if slotBoots d (get first) then some (first, false)
  else if slotBoots d (get (1 - first)) then some (1 - first, true)
  else none

/-- The bytes of a variant record that R449 does not list, among bytes 0 to 127. -/
def variantReserved (b : List Byte) : Bool :=
  (rangeFrom 8 8 ++ [50, 51] ++ rangeFrom 57 7 ++ rangeFrom 80 48).all (fun i => listGet b i 0#8 == 0#8) &&
    (rangeFrom 0 4).all (fun i => bytesNat b (16 + 8 * i) 8 < 2 ^ 52) && decide (bytesNat b 56 1 < 128)

/-- Bits set among the first 52. -/
def popcount52 (m : Nat) : Nat := ((rangeFrom 0 52).filter (fun i => natBit m i)).length

/-- Whether a variant record's fields are consistent (R449). -/
def variantFits (d : Dev) (b : List Byte) : Bool :=
  let part := bytesNat b 2 2
  let cores := if part = 960 then 48 else 40
  (part == 960 || part == 720) && bytesNat b 0 2 == 1 && bytesNat b 4 1 == cores && bytesNat b 5 1 == partGib part &&
    bytesNat b 6 2 == partBands part && (b.drop 64).take 16 == d.boot.certSerial && variantReserved b &&
    (rangeFrom 0 4).all (fun i => decide (cores ≤ popcount52 (bytesNat b (16 + 8 * i) 8)))

/-- Whether ledger entry `i` is effective: PERMANENT, its CHECK good, and not revoked (R452). -/
def entryEffective (l : List LedgerEntry) (i : Nat) (e : LedgerEntry) : Bool :=
  e.good && natBit e.flags 0 && !l.any (fun r => r.good && r.kind == 0xF && r.unit % 2 ^ 32 == i)

/-- The effective entries of the ledger. -/
def effectiveEntries (l : List LedgerEntry) : List LedgerEntry :=
  (l.zipIdx.filter (fun e => entryEffective l e.2 e.1)).map (fun e => e.1)

/-- One effective entry takes its unit out of service (R450, R452). Lines are poisoned at stage 4. -/
def applyEntry (d : Dev) (e : LedgerEntry) : Dev :=
  match e.kind with
  | 1 => { d with boot := { d.boot with retired := keyInsert d.boot.retired (52 * (e.unit % 4) + e.unit / 4 % 64) } }
  | 3 => modStack d (e.unit % 2048 / 64) (fun x => { x with retired := keyInsert x.retired (e.unit % 64) })
  | 6 => modLaser d (e.unit % 8) (e.unit / 8 % 8) (fun x => { x with retired := natPut x.retired (e.unit / 64 % 2) 1 1 })
  | 7 => regPutField d 0x1200000 (e.unit % 16) 1 0
  | 8 => { d with boot := { d.boot with linkSpares := smapMod d.boot.linkSpares (e.unit % 8) 0 (fun n => n + 1) } }
  | _ => d

/-- The P-class record of the trip that the last start ended in (R549). -/
def tripRecord (d : Dev) : Dev :=
  let w := regNat d 0x38000C0
  let src := w % 16
  let inst := w / 16 % 256
  let rd := w / 4096 % 4096
  if d.pwr.cause ≠ 4 ∨ src = 0 then d
  else if src = 2 then postRecord d (recOf 0x0541 1 inst (leBytes 1 rd))
  else postRecord d (recOf 0x0E43 1 0xFF (leBytes 2 (if src = 4 then rd else 0)))

/-- DETAIL of pennant 2. -/
def detail2 (d : Dev) (slot reason part n : Nat) : List Byte :=
  leBytes 1 slot ++ leBytes 4 (if slot = 0 then d.own.slotA else d.own.slotB).version ++ leBytes 1 reason ++ leBytes 2 part ++ leBytes 4 n

/-- The results of stage 2, applied in order: the variant record, the ledger, the identity (R450); then the firmware runs
and is measured (R519, R524, R555). -/
def stage2Apply (d : Dev) (slot : Nat) (second : Bool) : StageOut :=
  let torn := match d.boot.ledger.getLast? with | some e => !e.good | none => false
  let l := if torn then d.boot.ledger.dropLast else d.boot.ledger
  let damaged := l.any (fun e => !e.good)
  let part := bytesNat d.boot.variant 2 2
  let d1 := { d with boot := { d.boot with applied := d.boot.variant, part := part, ledger := l } }
  let d2 := regPutField d1 0x1200000 0 16 (bytesNat d.boot.variant 48 2)
  let es := effectiveEntries l
  let d3 := es.foldl applyEntry d2
  let d4 := if damaged then postRecord d3 (recOf 0x1011 1 0xFF (bootDetail 0xFFFFFFFF 0 0)) else d3
  let fw := if slot = 0 then d.own.slotA else d.own.slotB
  let d5 := { d4 with own := { d4.own with bootSlot := slot, kickAt := d4.boot.aonNs }, mon := { d4.mon with mode := 1 } }
  let d6 := measure d5 2 (Config.shake256 (leBytes 1 slot ++ leBytes 4 fw.version ++ leBytes 4 fw.svn))
    (leBytes 1 slot ++ leBytes 4 fw.version ++ leBytes 4 fw.svn)
  let d7 := measure (measure d6 3 (Config.shake256 d.boot.variant) []) 4
    (Config.shake256 (leBytes 8 (regNat64 d 0x3C00030) ++ leBytes 8 (regNat64 d 0x3C00050) ++ leBytes 4 (regNat d 0x3C00010))) []
  let retired := es.any (fun e => e.kind != 2)
  stageOut (tripRecord d7) (passOr (second || damaged || retired)) (detail2 d slot (if second then 1 else if damaged then 6 else 0) part es.length)

/-- Stage 2 (R3, R444, R449, R450, R454). -/
def stage2 (d : Dev) : StageOut :=
  match pickSlot d with
  | none => stageOut d 5 (detail2 d 0 2 0 0)
  | some (slot, second) =>
    if d.boot.variant.isEmpty then stageOut d 5 (detail2 d slot 3 0 0)
    else if !d.boot.variantGood then stageOut d 5 (detail2 d slot 4 0 0)
    else if !variantFits d d.boot.variant then stageOut d 5 (detail2 d slot 5 0 0)
    else stage2Apply d slot second

/-! ### Stages 3 to 5 (R223, R243, R250, R456) -/

/-- Stage 3: the die links. A lane that an entry of the ledger keeps out stays replaced by its spare (R2, R450). -/
def stage3 (d : Dev) (r : StageResult) : StageOut :=
  let d1 := (rangeFrom 0 8).foldl (fun e i =>
    { e with boot := { e.boot with
      linkSpares := smapMod e.boot.linkSpares i 0 (fun n => max n (listGet r.linkSpares i 0)) } }) d
  stageOut d1 (if r.linksBad % 256 = 0 then 3 else 5)
    ((rangeFrom 0 8).flatMap (fun i => leBytes 1 (smapGet d1.boot.linkSpares i 0)) ++ leBytes 1 r.linksBad)

/-- One stack's training and retention measurement (R223, R250). -/
def trainStack (d : Dev) (t : Nat × Nat × Nat) : Dev :=
  if t.2.1 = 2 then
    (rangeFrom (64 * t.1) 64).foldl retirePc (modStack d t.1 (fun x => { x with failed := true }))
  else retentionMeasured (modStack d t.1 (fun x => { x with classB := t.2.1 == 1 })) t.1 t.2.2

/-- The poison that line entries of the ledger call for (R243). -/
def ledgerPoison (l : List LedgerEntry) : List MemOp :=
  ((effectiveEntries l).filter (fun e => e.kind == 2)).flatMap (fun e =>
    let k := e.unit % 2048 * 0x30000000 + e.unit / 2048 % 2 ^ 24 * 64
    zeroUnit k ++ [.poison k])

/-- Stage 4: the stacks. -/
def stage4 (d : Dev) (r : StageResult) : StageOut :=
  let all := (rangeFrom 0 20).map (fun k => (r.stackRes.find? (fun t => t.1 == k)).getD (k, 0, 64))
  let d1 := r.pcsBad.foldl (fun e pc => if pcRetired e pc then e else retirePc e pc) (all.foldl trainStack d)
  let lost := maskOf 20 (fun k => (stackOf d1 k).failed)
  let classB := maskOf 20 (fun k => (stackOf d1 k).classB)
  let pcs := ((rangeFrom 0 20).map (fun k => (stackOf d1 k).retired.length)).foldl (fun a b => a + b) 0
  let ops := ledgerPoison d.boot.ledger
  let low := ((rangeFrom 0 20).filter (fun k => !(stackOf d1 k).failed)).foldl (fun a k => min a (stackOf d1 k).margin) 255
  let status := if lost = 2 ^ 20 - 1 then 5 else passOr (lost != 0 || classB != 0 || pcs != 0)
  ⟨d1, ops, status, 1, leBytes 3 lost ++ leBytes 3 classB ++ leBytes 2 pcs ++
    leBytes 4 ((effectiveEntries d.boot.ledger).filter (fun e => e.kind == 2)).length ++ leBytes 1 low⟩

/-- Physical cores enabled and in service before the test. -/
def coresUnderTest (d : Dev) : List Nat :=
  (rangeFrom 0 208).filter (fun p => physEnabled d p && !d.boot.retired.contains p)

/-- A core that fails its test (R456). -/
def coreTestFail (d : Dev) (p : Nat) : Dev :=
  let d1 := retirePhys d p 0x1020
  postRecord d1 { recOf 0x1020 1 0xFF (bootDetail (dueSeq d1) (p / 52) (p % 52)) with ledger := true }

/-- Step 1 of the core map: logical number `n` keeps its recorded core (R456). -/
def keepCore (d : Dev) (n : Nat) : Dev :=
  match smapFind d.boot.coreRec n with
  | some p =>
    if d.boot.passed.contains p && p / 52 == coreDie d n then modCore d n (fun _ => { coreReset with mapState := 0, phys := p % 52 }) else d
  | none => d

/-- Steps 2 and 3: a number without a core takes the lowest free one of its die, or is absent (R456). -/
def fillCore (d : Dev) (n : Nat) : Dev :=
  if (coreOf d n).mapState = 0 then d
  else match freeSpares d (coreDie d n) with
    | p :: _ =>
      let d1 := modCore d n (fun _ => { coreReset with mapState := 0, phys := p % 52 })
      { d1 with boot := { d1.boot with coreRec := smapSet d1.boot.coreRec n p } }
    | [] =>
      let a := drawFree d
      let d1 := modCore a.2 n (fun _ => { coreReset with mapState := 2, phys := a.1.toNat % 64 })
      { d1 with boot := { d1.boot with reduced := true, coreRec := smapDrop d1.boot.coreRec (fun k => k == n) } }

/-- An update engine that fails its test leaves service (R396). -/
def engineTestFail (d : Dev) (e : Nat) : Dev :=
  postRecord (callEntry (regPutField d 0x1200000 e 1 0) 7 e 0x0C41 1) { recOf 0x0C41 1 e [] with ledger := true }

/-- Logical numbers of a die that are mapped. -/
def dieMapped (d : Dev) (die : Nat) : Nat :=
  ((rangeFrom (die * coresPerDie d) (coresPerDie d)).filter (fun n => decide ((coreOf d n).mapState ≤ 1))).length

/-- Logical numbers absent. -/
def absentCount (d : Dev) : Nat := ((rangeFrom 0 (coresTotal d)).filter (fun n => (coreOf d n).mapState == 2)).length

/-- Stage 5: self-tests and the core map, from an empty record where the one in flash fails its CRC. -/
def stage5 (d0 : Dev) (r : StageResult) : StageOut :=
  let d := if r.mapBad then { d0 with boot := { d0.boot with coreRec := [] } } else d0
  let tested := coresUnderTest d
  let bad := tested.filter (fun p => d.boot.faulty.contains p)
  let d1 := bad.foldl coreTestFail { d with boot := { d.boot with passed := tested.filter (fun p => !d.boot.faulty.contains p) } }
  let ns := rangeFrom 0 (coresTotal d1)
  let d2 := ns.foldl fillCore (ns.foldl keepCore d1)
  let badEng := (rangeFrom 0 16).filter (fun e => natBit r.enginesBad e && natBit (regNat d2 0x1200000) e)
  let d3 := badEng.foldl engineTestFail d2
  let empty := (rangeFrom 0 4).any (fun i => dieMapped d3 i == 0)
  let retired := (rangeFrom 0 208).any (fun p => physEnabled d3 p && d3.boot.retired.contains p)
  let enabled := bytesNat d.boot.applied 48 2
  let status := if r.storeBad || empty then 5
    else passOr (retired || absentCount d3 != 0 || regField d3 0x1200000 0 16 != enabled)
  stageOut d3 status
    ((rangeFrom 0 4).flatMap (fun i => leBytes 1 (dieMapped d3 i)) ++
     (rangeFrom 0 4).flatMap (fun i => leBytes 1 (freeSpares d3 i).length) ++
     (rangeFrom 0 4).flatMap (fun i => leBytes 1 (bad.filter (fun p => p / 52 == i)).length) ++
     leBytes 1 (absentCount d3) ++ leBytes 2 (regField d3 0x1200000 0 16))

/-! ### Stages 6 to 9 (R15, R18, R291, R292, R428 to R430, R442, R443, R462) -/

/-- A board port's byte of pennant 6. -/
def boardOutcome (d : Dev) (p : Nat) : Nat :=
  let st := portSt d p
  let n := portLanes d p
  n + 16 * (if !boardEnabled d p then 4 else if st = 4 then 3 else if st != 2 then 2 else if n < 8 then 1 else 0)

/-- Lanes failed on the narrowest board port that trained. -/
def narrowestFailed (d : Dev) : Nat :=
  ((rangeFrom 0 7).filter (fun p => portSt d p == 2)).foldl (fun acc p =>
    let f := (linkOf d p).failed
    if popcount8 acc < popcount8 f then f else acc) 0

/-- Ports that were training and found no partner stay untrained. -/
def dropTraining (d : Dev) (ps : List Nat) : Dev :=
  ps.foldl (fun e p => if portSt e p = 1 then regPutField e (portOff p) 0 3 0 else e) d

/-- The training results of ports that still train, in order: `train` is one's end (R429). -/
def trainAll (train : Dev → TrainResult → Dev) (d : Dev) (l : List TrainResult) : Dev :=
  l.foldl (fun e t => if portSt e t.port = 1 then train e t else e) d

/-- Stage 6: the board ports. -/
def stage6 (d : Dev) (r : StageResult) : StageOut :=
  let d1 := trainAll trainBoard d (r.ports.filter (fun t => t.port < 7))
  let d2 := dropTraining d1 (rangeFrom 0 7)
  let bs := (rangeFrom 0 7).map (boardOutcome d2)
  stageOut d2 (passOr ((rangeFrom 0 7).any (fun p => boardEnabled d2 p && boardOutcome d2 p != 8)))
    (bs.flatMap (leBytes 1) ++ leBytes 1 (narrowestFailed d2))

/-- One bobbin at stage 7: its lasers lit, its spare checked (R428). -/
def trainLaser (bad : List Nat) (d : Dev) (i : Nat) : Dev :=
  let e := i / 8
  let k := i % 8
  let x := laserOf d e k
  let prim := !natBit x.retired 0
  let spare := !natBit x.retired 1
  let d1 := modLaser d e k (fun x => { x with
    st := if prim || spare then 0 else 4
    active := !prim
    spareOk := prim && spare && !bad.contains i })
  if prim && spare && bad.contains i then laserRec (laserRetire d1 e k true 0x094F) e k 0x094F 1 true else d1

/-- DETAIL of pennant 7. -/
def detail7 (d : Dev) (bad : Nat) : List Byte :=
  let lanes := (rangeFrom 0 32).foldl (fun a q => a + portLanes d (7 + q) * 16 ^ q) 0
  let un := maskOf 32 (fun q => optEnabled d q && portSt d (7 + q) == 0)
  let wrong := maskOf 32 (fun q => portSt d (7 + q) == 4)
  let gone := ((rangeFrom 0 64).map (fun i => ((rangeFrom 0 2).filter (fun b => natBit (laserOf d (i / 8) (i % 8)).retired b)).length)).foldl (fun a b => a + b) 0
  leBytes 16 lanes ++ leBytes 4 un ++ leBytes 4 wrong ++ leBytes 1 bad ++ leBytes 1 gone

/-- Stage 7: the optical engines. -/
def stage7 (d : Dev) (r : StageResult) : StageOut :=
  let d1 := (rangeFrom 0 64).foldl (trainLaser r.sparesBad) d
  let d2 := trainAll trainOptical d1 (r.ports.filter (fun t => isOptical t.port))
  let d3 := dropTraining d2 (rangeFrom 7 32)
  let narrow := (rangeFrom 7 32).any (fun p => optEnabled d3 (p - 7) && (portSt d3 p != 2 || decide (portLanes d3 p < 8)))
  let gone := (rangeFrom 0 64).any (fun i => (laserOf d3 (i / 8) (i % 8)).retired != 0)
  let bad := ((rangeFrom 0 64).filter (fun i => r.sparesBad.contains i && (laserOf d (i / 8) (i % 8)).retired == 0)).length
  let again := (rangeFrom 7 32).any (fun p => decide (2 ≤ (r.ports.filter (fun t => t.port == p)).length))
  { stageOut d3 (passOr (narrow || gone)) (detail7 d3 bad) with attempt := if again then 2 else 1 }

/-- Board ports whose neighbour's rack, board or slot is not the one expected (R18). -/
def boardWrong (d : Dev) (p : Nat) : Bool :=
  let n := regField d (portOff p) 16 16
  portSt d p == 2 && (n / 8 != ownNode d / 8 || n % 8 != boardPartner d p)

/-- The node numbers that have come become the NEIGHBOUR of their ports (R18). -/
def takeNumbers (d : Dev) (nums : List (Nat × Nat)) : Dev :=
  nums.foldl (fun e x => if portSt e x.1 = 2 ∧ x.1 < 39 then regPutField e (portOff x.1) 16 16 x.2 else e) d

/-- Stage 8: the fabric join. -/
def stage8 (d : Dev) (r : StageResult) : StageOut :=
  let d0 := takeNumbers d r.numbers
  let wrong := (rangeFrom 0 7).filter (boardWrong d0)
  let d1 := wrong.foldl wiringWrong d0
  stageOut d1 (passOr (!wrong.isEmpty))
    (detail8 d1 (maskOf 7 (fun p => wrong.contains p)))

/-- Stage 9: ready. -/
def stage9 (d : Dev) : StageOut :=
  let n := ((rangeFrom 0 (coresTotal d)).filter (coreInService d)).length
  stageOut (regPutField d 0x800 7 1 1) (passOr (absentCount d != 0)) (leBytes 2 n ++ leBytes 1 (absentCount d))

/-- The work of a stage. -/
def stageWork (d : Dev) (stage : Nat) (r : StageResult) : StageOut :=
  match stage with
  | 0 => stage0 d r
  | 1 => stage1 d r
  | 2 => stage2 d
  | 3 => stage3 d r
  | 4 => stage4 d r
  | 5 => stage5 d r
  | 6 => stage6 d r
  | 7 => stage7 d r
  | 8 => stage8 d r
  | _ => stage9 d

/-- A stage ends and the next starts, unless bring-up stops here; stage 9 is immediate (R440, R441). -/
def endStage (d : Dev) (stage flags : Nat) (o : StageOut) : Dev × List MemOp :=
  let d1 := closeStage d stage flags o
  if o.status = 5 ∨ stage = 9 then (d1, o.ops)
  else if stage = 8 then
    let d2 := startStage d1 9
    (closeStage d2 9 0 (stage9 d2), o.ops)
  else (startStage d1 (stage + 1), o.ops)

/-- Whether bring-up is under way: the current stage runs or waits. -/
def stageRuns (d : Dev) : Bool := (bootStatus d == 1 || bootStatus d == 2) && !d.pwr.tripped && !d.own.epo

/-- A stage's budget in milliseconds (R440); stages 8 and 9 have none. -/
def stageBudget (d : Dev) (stage : Nat) : Option Nat :=
  match stage with
  | 0 => some 50
  | 1 => some 20
  | 2 => some 300
  | 3 => some 10
  | 4 => some 3000
  | 5 => some 400
  | 6 => some (regField d 0x1000060 16 16 + 200)
  | 7 => some (regField d 0x3000004 16 16 + 200)
  | _ => none

/-- Whether the current stage is past its budget. -/
def stageLate (d : Dev) : Bool :=
  match stageBudget d (bootStage d) with
  | some ms => decide (ms * 1000000 < d.boot.aonNs - d.boot.stageStart)
  | none => false

/-- A stage past its budget ends, FAIL with TIMEOUT; stages 6 and 7 never fail, and end with their untrained ports reported (R440,
R442; assumption log 59, DEDUCED). -/
def endLate (d : Dev) : Dev × List MemOp :=
  let stage := bootStage d
  if stage = 6 then
    let d1 := dropTraining d (rangeFrom 0 7)
    endStage d 6 1 (stageOut d1 4 (((rangeFrom 0 7).map (boardOutcome d1)).flatMap (leBytes 1) ++ leBytes 1 (narrowestFailed d1)))
  else if stage = 7 then
    let d1 := dropTraining d (rangeFrom 7 32)
    endStage d 7 1 (stageOut d1 4 (detail7 d1 0))
  else endStage d stage 1 (stageOut d 5 [])

/-- STAGE_END (R441, R442). Stage 8 ends only when all it waits for is there, its node number locked. -/
def execStageEnd (r : StageResult) (s : State) : Host.Outcome State Fault Refusal :=
  let d := s.dev
  let stage := bootStage d
  finish s (if !stageRuns d then (d, [])
    else if stageLate d then endLate d
    else if stage = 8 ∧ !joinReady d r.numbers then (putStatus d 8 2, [])
    else endStage d stage 0 (stageWork d stage r))

/-- STAGE_TIMEOUT (R442). -/
def execStageTimeout (s : State) : Host.Outcome State Fault Refusal :=
  let d := s.dev
  finish s (if stageRuns d && stageLate d then endLate d else (d, []))

/-- TRAIN_WINDOW_EXPIRY: port `port` has seen no partner when its stage's window ends (R430, R443). -/
def execTrainWindowExpiry (port : Nat) (s : State) : Host.Outcome State Fault Refusal :=
  let d := s.dev
  let win := if port < 7 then regField d 0x1000060 16 16 else regField d 0x3000004 16 16
  finishDev s (if port < 39 ∧ portSt d port = 1 ∧ bootStage d = (if port < 7 then 6 else 7) ∧ stageRuns d ∧
      win * 1000000 ≤ d.boot.aonNs - d.boot.stageStart then regPutField d (portOff port) 0 3 0 else d)

end Sys2Proof.Machine
end

