-- ==== Sys2Proof/Machine/Claims.lean ====
section
/-! DEFINITION. Claims of the burgee, its lease, its handover and its expiry (R493 to R498, R524). -/

namespace Sys2Proof.Machine

/-- Bytes stored from key `o`. -/
def putBytes (b : SMap Byte) (o : Nat) (bs : List Byte) : SMap Byte :=
  match bs with
  | [] => b
  | x :: t => putBytes (smapSet b o x) (o + 1) t

/-- Bytes `o` to `o + k - 1` of claim buffer `m`. -/
def claimBytes (d : Dev) (m o k : Nat) : List Byte :=
  (rangeFrom (0x4000 * (m - 1) + o) k).map (fun i => smapGet d.own.claimBuf i 0#8)
/-- The same as a number. -/
def claimN (d : Dev) (m o k : Nat) : Nat := leNat (claimBytes d m o k)

/-- Bytes written into a claim buffer; what would fall beyond it is dropped. -/
def claimWrite (d : Dev) (m o : Nat) (bs : List Byte) : Dev :=
  { d with own := { d.own with claimBuf := putBytes d.own.claimBuf (0x4000 * (m - 1) + o) (bs.take (0x4000 - o)) } }

/-- CLAIM_m STATUS and REASON set. -/
def claimPut (d : Dev) (m st reason : Nat) : Dev :=
  { d with own := { d.own with claims := smapSet d.own.claims m (st, reason) } }

/-- CLAIM_REJECTED (R494). -/
def claimReject (d : Dev) : Dev := postRecord d (recOf 0x0F13 2 0xFF [])

/-- CLAIM_m.GO: the claim joins those waiting, or, with one of this master's under way, is ignored with reason 11
(R493 to R495). -/
def claimGo (d : Dev) (m : Nat) : Dev :=
  if d.own.verifying.contains m then
    claimReject (claimPut d m (smapGet d.own.claims m (0, 0)).1 11)
  else claimPut { d with own := { d.own with verifying := d.own.verifying ++ [m] } } m 1 0

/-- The bytes of a blob that R493 does not list. -/
def claimReserved : List Nat := 3 :: (rangeFrom 6 10 ++ rangeFrom 41 23 ++ rangeFrom 5325 3 ++ rangeFrom 5336 8)

/-- The first check of R494 that a claim fails; 0 where it is valid. The verdicts on the two signatures are given. The fabric
manager's blob comes in 35 packets, each of which must be its node's. -/
def claimReason (d : Dev) (m : Nat) (authOk claimOk : Bool) : Nat :=
  let blob := claimBytes d m 0 8653
  let scope := (blob.drop 16).take 16
  if bytesNat blob 0 2 ≠ 1 ∨ !claimReserved.all (fun i => listGet blob i 0#8 == 0#8) then 1
  else if !authOk ∨ 3 < bytesNat blob 40 1 then 2
  else if bytesNat blob 32 8 < regNat64 d 0x3C00030 then 3
  else if !(scope.all (fun b => b == 0#8) || scope == (d.boot.applied.drop 64).take 16) then 4
  else if bytesNat blob 2 1 ≠ m then 5
  else if m = 3 ∧ !(rangeFrom 0 35).all (fun i => smapFind d.own.claimSrc i == some (bytesNat blob 4 2)) then 6
  else if bytesNat blob 5328 8 ≠ d.own.nonce.toNat then 7
  else if !claimOk then 8
  else if d.own.st = 1 then 9
  else if d.own.st = 2 ∧ (d.own.successor ≠ m ∨ (m = 3 ∧ bytesNat blob 4 2 ≠ d.own.succNode)) then 10
  else 0

/-- A claim wins: the owner, a full lease, a fresh nonce, the measurement and the records (R495, R497, R524). -/
def claimWin (d : Dev) (m : Nat) : Dev :=
  let handed := d.own.st == 2
  let node := if m = 3 then claimN d m 4 2 else 0
  let fresh := drawFree d
  let d1 := claimPut fresh.2 m 2 0
  let d2 := { d1 with own := { d1.own with nonce := fresh.1, leaseLeft := leaseMs d, successor := 0, succNode := 0, ownerNode := node } }
  let d3 := measure (burgeeSet d2 m 1) 5 (Config.shake256 (claimBytes d m 64 1952)) (leBytes 1 m ++ leBytes 2 node ++ claimBytes d m 32 8)
  let d4 := postRecord d3 (recOf 0x0F10 0 0xFF [])
  if handed then postRecord d4 (recOf 0x0F12 0 0xFF []) else d4

/-- CLAIM_VERIFIED: verification of the first claim waiting ends, with the engine's verdicts on its two signatures
(R494, R495). -/
def execClaimVerified (authOk claimOk : Bool) (s : State) : Host.Outcome State Fault Refusal :=
  let d := s.dev
  finishDev s (match d.own.verifying with
    | [] => d
    | m :: t =>
      let d1 := { d with own := { d.own with verifying := t } }
      let r := claimReason d m authOk claimOk
      let d2 := if r = 0 then claimWin d1 m else claimReject (claimPut d1 m 3 r)
      if m = 4 then monAnswer d2 1 (r == 0) (some r) [[.txt "=CLAIM", .txt "WON"]] else d2)

/-- The burgee becomes VACANT with its record (R496, R497). -/
def burgeeLapse (d : Dev) : Dev := postRecord (burgeeVacate d) (recOf 0x0F11 0 0xFF [])

/-- BURGEE_EXPIRED: the lease has reached 0 (R496). It does not run in P2 and P3 (R535). -/
def execBurgeeExpired (s : State) : Host.Outcome State Fault Refusal :=
  let d := s.dev
  finishDev s (if d.own.st = 1 ∧ d.own.leaseLeft = 0 ∧ d.pwr.st < 2 then burgeeLapse d else d)

/-- HANDOVER_EXPIRY: 1 s has passed and no claim of the successor has won (R497). -/
def execHandoverExpiry (s : State) : Host.Outcome State Fault Refusal :=
  let d := s.dev
  finishDev s (if d.own.st = 2 ∧ d.own.handedAt + 1000000000 ≤ d.boot.aonNs then burgeeLapse d else d)

/-- RENEW by the owner (R496). -/
def burgeeRenew (d : Dev) : Dev := { d with own := { d.own with leaseLeft := leaseMs d } }

/-- HANDOVER by owner `m` to `succ`; one that names the owner itself or no master is dropped and counted (R497). -/
def burgeeHand (d : Dev) (m succ node : Nat) : Dev :=
  if succ = m ∨ succ = 0 then dropWrite d m 0x100018
  else burgeeSet { d with own := { d.own with
    successor := succ, succNode := if succ = 3 then node else 0, ownerNode := 0, leaseLeft := 0, handedAt := d.boot.aonNs } } 0 2

/-- BURGEE_CTL written by the owner: HANDOVER before RELEASE before RENEW, where one write sets several (R496, R497). -/
def burgeeCtlWrite (d : Dev) (m v : Nat) : Dev :=
  if natBit v 2 then burgeeHand d m (natBits v 3 3) (natBits v 16 16)
  else if natBit v 1 then burgeeVacate d
  else if natBit v 0 then burgeeRenew d
  else d

end Sys2Proof.Machine
end

