-- ==== Sys2Proof/Machine/Ageing.lean ====
section
/-! DEFINITION. Die links, regulators, ageing sensors, the daily record, re-planning, and factory commands (R249, R250,
R455, R473, R474, R477 to R484, R522). -/

namespace Sys2Proof.Machine

/-! ### Die links and regulators (R473, R474) -/

/-- A die link has failed: every stage context of every core faults (R473). -/
def dieLinkFail (d : Dev) (link : Nat) (detail : List Byte) : Dev :=
  let d1 := postRecord { d with boot := { d.boot with linkDead := true, linksDown := natPut d.boot.linksDown link 1 1 } } (recOf 0x0742 1 link detail)
  let seq := lastSeq d1
  let d2 := (rangeFrom 0 (coresTotal d1)).foldl (fun e n => faultAll e n seq (rangeFrom 0 8)) d1
  settleStopCmds d2 d2.host.running

/-- DIE_LINK_RETRY: a flit of lane `lane` is retried; `spare` says whether the link has a spare lane left, and `lanes` is
the number in service after the event (R473). -/
def execDieLinkRetry (link lane : Nat) (spare : Bool) (lanes : Nat) (s : State) : Host.Outcome State Fault Refusal :=
  let d := s.dev
  let key := 64 * link + lane % 64
  let now := gtimeNs d
  let l := now :: (smapGet d.boot.linkRetry key []).filter (fun t => decide (now < t + 1000000))
  let detail := laneDetail lane lanes 0 0
  finishDev s (if link < 8 then
    let d1 := postRecord { d with boot := { d.boot with linkRetry := smapSet d.boot.linkRetry key l } }
      (recOf 0x0740 0 link detail)
    if l.length ≤ 16 ∨ natBit d.boot.linksDown link then d1
    else if spare then
      let d2 := { d1 with boot := { d1.boot with
        linkSpares := smapMod d1.boot.linkSpares link 0 (fun x => x + 1)
        linkRetry := smapDrop d1.boot.linkRetry (fun k => k == key) } }
      postRecord (callEntry d2 8 (link + 8 * (lane % 64)) 0x0741 1) { recOf 0x0741 1 link detail with ledger := true }
    else dieLinkFail d1 link detail
  else d)

/-- VR_DROOP: the regulator of core `core` has left its setpoint by more than 30 mV; `long` is 10 µs or more (R474). -/
def execVrDroop (core : Nat) (long : Bool) (mv setpoint : Nat) (s : State) : Host.Outcome State Fault Refusal :=
  let d := s.dev
  let inst := physOf d core
  let detail := leBytes 2 mv ++ leBytes 2 setpoint
  finish s (if coreInService d core && decide (30 < natGap mv setpoint) then
    if long then retireCore d s.mem core { recOf 0x0E40 1 inst detail with lcore := core }
    else
      let n := (coreOf d core).health.droops + 1
      let d1 := modCore d core (fun k => { k with health := { k.health with droops := n } })
      let d2 := postRecord d1 { recOf 0x0E41 0 inst detail with lcore := core }
      if 4 ≤ n then retireCore d2 s.mem core { recOf 0x0E40 1 inst detail with lcore := core } else (d2, [])
  else (d, []))

/-! ### Voltage (R477, R480, R481) -/

/-- AGE_CFG.RAISE_PS -/
def raisePs (d : Dev) : Nat := regField d 0x3E08000 0 8
/-- LOWER_PS in effect (R486). -/
def lowerPs (d : Dev) : Nat := max (raisePs d + 1) (regField d 0x3E08000 8 8)
/-- STEP_MV in effect. -/
def stepMv (d : Dev) : Nat := max 1 (regField d 0x3E08000 16 4)
/-- MAX_RISE_MV in effect. -/
def maxRise (d : Dev) : Nat := min 100 (regField d 0x3E08000 20 8)

/-- Whether physical core `p` is enabled and in service. -/
def physInUse (d : Dev) (p : Nat) : Bool := decide (p < 208) && physEnabled d p && !d.boot.retired.contains p

/-- The logical core mapped to a physical core. -/
def logicalOf (d : Dev) (p : Nat) : Option Nat :=
  (rangeFrom 0 (coresTotal d)).find? (fun n => decide ((coreOf d n).mapState ≤ 1) && physOf d n == p)

/-- A bring-up record about physical core `p`. -/
def physRec (d : Dev) (p ev cls seq : Nat) (ledger : Bool) : Dev :=
  postRecord d { recOf ev cls 0xFF (bootDetail seq (p / 52) (p % 52)) with lcore := (logicalOf d p).getD 0xFFFF, ledger := ledger }

/-- A core at its voltage limit with no margin is worn out: its entry, and a remap at the next step boundary; its work goes
on (R457, R481). -/
def wearOut (d : Dev) (m : Mem) (p : Nat) : Dev × List MemOp :=
  let d1 := retirePhys d p 0x1032
  let d2 := physRec d1 p 0x1032 1 (dueSeq d1) true
  match logicalOf d p with
  | some n =>
    let d3 := modCore d2 n (fun k => { k with mapState := 1 })
    if commitEnabled d3 then (d3, []) else stepBoundary d3 m
  | none => (d2, [])

/-- PATH_DELAY_SAMPLE: the 1 ms measurement of a physical core's path margin in ps (R477, R480, R481). -/
def execPathDelaySample (phys : Nat) (margin : Int) (s : State) : Host.Outcome State Fault Refusal :=
  let d := s.dev
  finish s (if physInUse d phys then
    let a := ageOf d phys
    let least := match a.least with | some x => min x margin | none => margin
    let d1 := modAge d phys (fun a => { a with margin := margin, least := some least })
    let recent : Bool := match a.lastRaise with | some t => decide (gtimeNs d < t + 100000000) | none => false
    if 10 ≤ margin then (d1, [])
    else if a.rise < maxRise d then
      if recent then (d1, [])
      else
        let d2 := modAge d1 phys (fun a => { a with
          rise := min (maxRise d) (a.rise + stepMv d), lastRaise := some (gtimeNs d) })
        (physRec d2 phys 0x1031 0 0xFFFFFFFF false, [])
    else wearOut d1 s.mem phys
  else (d, []))

/-- RING_OSCILLATOR_SAMPLE: the mean shift from commissioning, in hundredths of a per cent (R477). -/
def execRingOscillatorSample (phys : Nat) (shift : Int) (s : State) : Host.Outcome State Fault Refusal :=
  finishDev s (if physInUse s.dev phys then modAge s.dev phys (fun a => { a with shift := shift }) else s.dev)

/-! ### The daily record (R478, R479) -/

/-- Byte 7 of CORE_p: 0 in service, 1 spare, 2 retired, 3 disabled. -/
def physState (d : Dev) (p : Nat) : Nat :=
  if !physEnabled d p then 3 else if d.boot.retired.contains p then 2 else if physMapped d p then 0 else 1

/-- CORE_p. -/
def ageCoreBytes (d : Dev) (p : Nat) : List Byte :=
  let a := ageOf d p
  leBytes 2 (wrapInt 16 (a.least.getD a.margin)) ++ leBytes 2 (wrapInt 16 a.shift) ++ leBytes 2 (a.commission + a.rise) ++
    leBytes 1 a.dayCount ++ leBytes 1 (physState d p)

/-- STACK_k. -/
def ageStackBytes (d : Dev) (k : Nat) : List Byte :=
  let x := stackOf d k
  leBytes 1 x.margin ++ leBytes 1 x.ageFactor ++ leBytes 1 (max x.dayMax x.temp) ++ leBytes 1 0 ++ leBytes 4 (smapGet d.boot.day (300 + k) 0)

/-- LASER_e_k. -/
def ageLaserBytes (d : Dev) (i : Nat) : List Byte :=
  let x := laserOf d (i / 8) (i % 8)
  leBytes 2 x.bias ++ leBytes 2 x.power

/-- The least eye of a port's lanes. -/
def leastEye (d : Dev) (p : Nat) : Nat :=
  (rangeFrom 1 7).foldl (fun a l => min a (portLane d p l).eye) (portLane d p 0).eye

/-- OPT_q, with the mean heater drift measured. -/
def ageOptBytes (d : Dev) (drift : Int) (q : Nat) : List Byte :=
  let p := 7 + q
  leBytes 2 (wrapInt 16 drift) ++ leBytes 2 (leastEye d p) ++ leBytes 2 (calInterval d p / 1000) ++ leBytes 1 (portLanes d p) ++
    leBytes 1 (min 255 (smapGet d.boot.day (100 + p) 0))

/-- BOARD_p. -/
def ageBoardBytes (d : Dev) (p : Nat) : List Byte :=
  padTo 8 (leBytes 2 (leastEye d p) ++ leBytes 1 (portLanes d p))

/-- The value a list of measurements gives for unit `k`. -/
def measured {α : Type} (l : List (Nat × α)) (k : Nat) (v : α) : α :=
  match l with
  | [] => v
  | (k', x) :: t => if k' = k then x else measured t k v

/-- An ageing record (R479). -/
def ageRecord (d : Dev) (drifts : List (Nat × Int)) : List Byte :=
  let head := padTo 64 (leBytes 2 1 ++ leBytes 2 0 ++ leBytes 4 (d.boot.opSeconds / 86400) ++ leBytes 4 (regNat d 0x804) ++
    leBytes 4 d.boot.opSeconds ++ leBytes 8 (gtimeNs d) ++ leBytes 2 (ownNode d) ++ leBytes 1 d.boot.dayMaxC)
  let body := head ++ (rangeFrom 0 208).flatMap (ageCoreBytes d) ++ (rangeFrom 0 20).flatMap (ageStackBytes d) ++
    (rangeFrom 0 64).flatMap (ageLaserBytes d) ++
    (rangeFrom 0 32).flatMap (fun q => ageOptBytes d (measured drifts q 0) q) ++
    (rangeFrom 0 7).flatMap (ageBoardBytes d) ++ (rangeFrom 0 11).flatMap (fun i => leBytes 4 (smapGet d.boot.day i 0))
  let b := padTo 4092 body
  b ++ leBytes 4 (crc32 b)

/-- The daily counts cleared (R168, R210, R219, R474, R478). -/
def clearDay (d : Dev) : Dev :=
  { d with
    stk := d.stk.map (fun e => (e.1, { e.2 with dayMax := e.2.temp }))
    cores := d.cores.map (fun e => (e.1, { e.2 with health := { e.2.health with
      cellMiss := [], laneMiss := [], wordCe := [], droops := 0 } }))
    boot := { d.boot with
      day := []
      dayHeld := none
      dayMaxC := (rangeFrom 0 4).foldl (fun a i => max a (smapGet d.pwr.temps i 0)) 0
      age := d.boot.age.map (fun e => (e.1, { e.2 with dayCount := 0, least := none })) } }

/-! ### Re-planning (R480 to R483) -/

/-- A core's setpoint after the daily record, from the day's least margin (R480). -/
def replanVoltage (d : Dev) (a : PhysAge) : PhysAge :=
  match a.least with
  | none => a
  | some m =>
    if m < Int.ofNat (raisePs d) then
      { a with above := 0, rise := if a.rise + stepMv d ≤ maxRise d then a.rise + stepMv d else a.rise }
    else if Int.ofNat (lowerPs d) ≤ m then
      { a with above := min 7 (a.above + 1), rise := if 7 ≤ a.above + 1 then a.rise - stepMv d else a.rise }
    else { a with above := 0 }

/-- A bobbin's projected bias rise over 30 days, and its spare threshold (R482, R488). -/
def replanLaser (trends : List (Nat × Int)) (d : Dev) (i : Nat) : Dev :=
  modLaser d (i / 8) (i % 8) (fun x =>
    let t := measured trends i 0
    let low := if Int.ofNat x.biasLimit ≤ Int.ofNat x.bias + t then some 5 else none
    -- a change during a handover waits for its end (R484)
    if x.st = 2 then { x with trend := wrapInt 16 t, spareDue := low }
    else { x with trend := wrapInt 16 t, spareDb := if low.isSome then low else x.spareDb })

/-- A port's calibration interval after a day in which no calibration moved a lane (R483). -/
def replanPort (d : Dev) (p : Nat) : Dev :=
  let d1 := if (optPortOf d (laneIdx p)).moved then d else putInterval d p (2 * calInterval d p)
  modOptPort d1 (laneIdx p) (fun x => { x with moved := false })

/-- The ageing record `bytes` enters the log, the daily counts clear, and the margins are re-planned (R478, steps 2 to 4). -/
def dayWrite (d : Dev) (bytes : List Byte) (trends : List (Nat × Int)) : Dev :=
  let age := d.boot.age.map (fun e => (e.1, replanVoltage d e.2))
  let d1 := clearDay { d with boot := { d.boot with
    ageLog := (bytes :: d.boot.ageLog).take 4096, daysDone := bytesNat bytes 4 4, age := age } }
  allPorts.foldl replanPort ((rangeFrom 0 64).foldl (replanLaser trends) d1)

/-- The steps of a day's end, in order: the retention measurement, which a throttled stack leaves out (R476), then the record (R478). -/
def dayEnd (d : Dev) (margins : List (Nat × Nat)) (drifts trends : List (Nat × Int)) : Dev :=
  let d1 := (margins.filter (fun t => decide (t.1 < 20) && !(stackOf d t.1).failed && decide ((stackOf d t.1).step < 2))).foldl
    (fun e t => retentionMeasured e t.1 t.2) d
  dayWrite d1 (ageRecord d1 drifts) trends

/-- A record held since a day ended in P3, as it is written at the wake: OP_SECONDS and GTIME are those of the write (R478, R479). -/
def heldRecord (d : Dev) (b : List Byte) : List Byte :=
  let body := b.take 12 ++ leBytes 4 d.boot.opSeconds ++ leBytes 8 (gtimeNs d) ++ (b.drop 24).take 4068
  body ++ leBytes 4 (crc32 body)

/-- The record that waited for a wake from P3. -/
def dayWake (d : Dev) : Dev :=
  match d.boot.dayHeld with
  | some (b, trends) => dayWrite d (heldRecord d b) trends
  | none => d

/-- AGEING_RECORD: a day of operation has ended; the retention margins, mean heater drifts and bias trends measured for it.
In P3, where the stacks are not measured, the record waits for the wake (R478). -/
def execAgeingRecord (margins : List (Nat × Nat)) (drifts trends : List (Nat × Int)) (s : State) :
    Host.Outcome State Fault Refusal :=
  let d := s.dev
  finishDev s (if d.boot.daysDone < d.boot.opSeconds / 86400 ∧ d.boot.dayHeld.isNone then
    if d.pwr.st = 3 then { d with boot := { d.boot with dayHeld := some (ageRecord d drifts, trends) } } else dayEnd d margins drifts trends
  else d)

/-! ### Factory commands (R455, R522) -/

/-- FACTORY_COMMAND: a command whose signature by the factory key verified appends a REVOKE entry for each entry it names,
and may change the authority key of slot 0 (R455, R522). -/
def execFactoryCommand (ok : Bool) (revokes : List Nat) (key : Option (List Byte)) (s : State) : Host.Outcome State Fault Refusal :=
  let d := s.dev
  finishDev s (if ok then
    let d1 := (revokes.filter (fun q => decide (q < d.boot.ledger.length))).foldl (fun e q => callEntry e 0xF q 0 2) d
    match key with
    | some k => { d1 with own := { d1.own with keys := putBytes d1.own.keys 0 (padTo 1952 k) } }
    | none => d1
  else d)

end Sys2Proof.Machine
end

