-- ==== Sys2Proof/Machine/Mov.lean ====
section
/-! DEFINITION. MOV instructions (R114 to R118, R36 to R42, R229 to R235) and their traffic with board peers (R335 to
R338). -/

namespace Sys2Proof.Machine

/-! ### Board ranges -/

/-- The runs of consecutive addresses in a rising list, none beyond its 256-byte line (R335): first address, length. -/
def lineRuns (as : List Nat) (cur : Option (Nat × Nat)) : List (Nat × Nat) :=
  match as, cur with
  | [], none => []
  | [], some r => [r]
  | a :: t, none => lineRuns t (some (a, 1))
  | a :: t, some (b, k) =>
    if a = b + k ∧ a / 256 = b / 256 then lineRuns t (some (b, k + 1)) else (b, k) :: lineRuns t (some (a, 1))

/-- A rising list of distinct numbers. -/
def sortNats (l : List Nat) : List Nat := l.foldl (fun acc x => keyInsert acc x) []

/-- The addresses of a tensor's elements. -/
def tensorAddrs (t : TDesc) (es : List Nat) : List Nat :=
  sortNats (es.flatMap (fun e => rangeFrom (elemAddr t e) (elemSize t.fmt)))

/-- The load requests that fetch those addresses from a board peer (R336). -/
def loadReqs (base : BoardReq) (as : List Nat) : List BoardReq :=
  (lineRuns as none).map (fun r => { base with kind := 0, addr := r.1, len := r.2 })

/-- The store requests that write bytes at rising addresses of a board peer (R336). -/
def storeReqs (base : BoardReq) (ws : List (Nat × Byte)) : List BoardReq :=
  (lineRuns (sortNats (ws.map (fun w => w.1))) none).map (fun r =>
    { base with kind := 1, addr := r.1, len := r.2, payload := (rangeFrom r.1 r.2).map (fun a => smapGet ws a 0#8) })

/-- The first address of the unit that poison marks on a board peer: a code line of its apertures, else a word. -/
def peerUnit (a : Nat) : Nat := if a < 0x20000000000 then a / 64 * 64 else a / 8 * 8

/-- The requests that write bytes with poison on a board peer: a unit that holds one is poisoned by a request of its own
(R217; assumption log 14, DESIGN CHOICE), and the other bytes are stored. -/
def peerStores (base : BoardReq) (all : List (Nat × Byte × Bool)) : List BoardReq :=
  let ws := lastWrites all
  let bad := distinct ((ws.filter (fun w => w.2.2)).map (fun w => peerUnit w.1))
  storeReqs base ((ws.filter (fun w => !bad.contains (peerUnit w.1))).foldl (fun acc w => smapSet acc w.1 w.2.1) []) ++
    bad.map (fun u =>
      let n := if u < 0x20000000000 then 64 else 8
      { base with kind := 1, addr := u, len := n, payload := List.replicate n 0#8, acc := 4 })

/-- The base of an instruction's requests. -/
def opReq (slot core : Nat) (o : LongOp) : BoardReq := { blankReq slot 0 core o.ctx o.pc o.word with op := o.id }

/-- A long operation of core `n` changed. -/
def modOp (d : Dev) (n id : Nat) (g : LongOp → LongOp) : Dev :=
  modCore d n (fun k => { k with ops := k.ops.map (fun o => if o.id = id then g o else o) })

/-- Requests of a long operation sent, which then awaits their replies; where the fence refuses them, the operation
completes with BOARD_FENCED (R28, R306). -/
def sendForOp (d : Dev) (n : Nat) (o : LongOp) (rs : List BoardReq) : Dev :=
  match boardSendAll d rs with
  | (d1, true) => modOp d1 n o.id (fun p => { p with awaiting := p.awaiting + rs.length })
  | (d1, false) => modOp d1 n o.id (fun p => { p with fault := some ⟨0x0B59, 2, wordDetail o.word⟩ })

/-- What board peers have returned to a long operation. -/
def bufView (o : LongOp) : ByteView :=
  ⟨fun a => smapGet o.buf a 0#8, fun a => o.bufPoison.contains a⟩

/-- Where a tensor's bytes are read: a peer's replies, the register mirror, or this device's memory. -/
def sourceView (d : Dev) (m : Mem) (o : LongOp) (t : TDesc) : ByteView :=
  if t.peer then bufView o
  else match spanRegion d.boot.part (spanLo t) (spanHi t) with
    | .mirror _ => mirrorView d m
    | _ => localView d m

/-- The first fault kept, else the second. -/
def orFault (a b : Option OpFault) : Option OpFault := match a with | some x => some x | none => b

/-! ### DMOV, copy form -/

/-- The fault of a poisoned source (R217, R241); at a board peer the line cannot be named more closely. -/
def moveFault (d : Dev) (o : LongOp) (t : TDesc) (vals : List (Nat × Bool)) : Option OpFault :=
  if t.peer then (if vals.any (fun v => v.2) then some ⟨0x0642, 0, wordDetail o.word⟩ else none) else srcFault d t vals

/-- Whether a tensor's span lies in the register mirror, in one BAR0 region or more. -/
def inMirror (t : TDesc) : Bool := !t.peer && decide (0x3F000000000 ≤ spanLo t) && decide (spanHi t < 0x3F004000000)

/-- The first element of a copy's source that is a read of GTIME (R272). -/
def gtimeElem (s : TDesc) : Option Nat :=
  if inMirror s then (rangeFrom 0 (elemCount s)).find? (fun e => (elemAddr s e - 0x3F000000000) / 8 == 0x40000) else none

/-- GTIME_FRAC as a copy leaves it: latched where an element reads GTIME (R21, R272). -/
def latchTime (d : Dev) (s : TDesc) : Dev :=
  if (gtimeElem s).isSome then { d with tm := { d.tm with frac := d.tm.gt % 16 } } else d

/-- The elements a copy reads, in loop order; those after a read of GTIME see GTIME_FRAC as it latched it. -/
def copyVals (d latched : Dev) (m : Mem) (o : LongOp) (s : TDesc) : List (Nat × Bool) :=
  let vals := readElems (sourceView d m o s) s
  match gtimeElem s with
  | some i => vals.take i ++ (readElems (sourceView latched m o s) s).drop i
  | none => vals

/-- The elements of a copy written: into this device, or as stores to a board peer (R115). -/
def copyOut (d : Dev) (m : Mem) (n : Nat) (o : LongOp) : Dev × List MemOp :=
  let s := tdesc (ownSlot d) o.ds
  let t := tdesc (ownSlot d) o.dd
  let latched := latchTime d s
  let vals := copyVals d latched m o s
  let flt := moveFault d o s vals
  if t.peer then
    (sendForOp (modOp latched n o.id (fun p => { p with fault := orFault p.fault flt })) n o
      (peerStores (opReq t.slot n o) (writeElems t 0 vals)), [])
  else
    let r := overlapFix latched t (if s.peer then [] else [s]) vals
    let st := storeElems r.1 m t r.2
    (modOp r.1 n o.id (fun p => { p with fault := orFault p.fault (orFault flt (st.2.map (dropFault d))) }), st.1)

/-- Anywhere of this device, or a board peer. -/
def anyRegion : Allowed := ⟨true, true, true, true, true, true⟩

/-- A tensor's region on this device. -/
def hereRegion (d : Dev) (t : TDesc) : Region := if t.peer then .unmapped else spanRegion d.boot.part (spanLo t) (spanHi t)

/-- The conditions of the copy form (R21, R115, R134). -/
def copyConds (d : Dev) (n : Nat) (f : BitVec 4) (o : BitVec 112) (dd ds : BitVec 512) : List Cond :=
  let t := tdesc (ownSlot d) dd
  let s := tdesc (ownSlot d) ds
  (0x0303, decide (2 ≤ f.toNat) || !onlyFields o [(104, 8), (96, 8), (0, 6), (7, 1)]) ::
    (0x030B, s.fmt != t.fmt || elemCount s != elemCount t || (inMirror s && s.fmt != 4 && s.fmt != 5)) ::
    (0x0321, match hereRegion d t with | .mirror _ => true | _ => false) ::
    (0x0B23, match hereRegion d t with | .accStore => true | _ => false) ::
    (descConds d n dd anyRegion allFmts ++ descConds d n ds anyRegion allFmts)

/-- The effect of DMOV's copy form, and of the reserved forms 2 and 3 (R114, R115). -/
def execDmovCopy (core : Nat) (f : BitVec 4) (o : BitVec 112) (errs : List MemErr) (s : State) :
    Host.Outcome State Fault Refusal :=
  let w := mkWord 4 1 f o
  finish s (if f.toNat % 4 = 1 then (s.dev, []) else
    issue s.dev core w (fun d c x =>
      let k := coreOf d core
      let dd := descOf k (fld o 104 8)
      let ds := descOf k (fld o 96 8)
      let src := tdesc (ownSlot d) ds
      let dst := tdesc (ownSlot d) dd
      let sg := descGranules d core src
      let dg := descGranules d core dst
      guarded (copyConds d core f o dd ds)
        (whenReady (longReady k sg dg)
          (let r := applyErrs d s.mem errs
           let op := { newOp k c x.pc w sg dg with dd := dd, ds := ds }
           let d1 := pushOp r.1 core op
           if src.peer then
             .next (sendForOp d1 core op (loadReqs (opReq src.slot core op) (tensorAddrs src (rangeFrom 0 (elemCount src))))) r.2
           else
             let q := copyOut d1 (memApplyAll s.mem r.2) core op
             .next q.1 (r.2 ++ q.2)))))

/-! ### DMOV, table-load form -/

/-- The register a table load writes, as LongOp numbers them (R38). -/
def tableReg (kind num : Nat) : Nat := if kind = 0 then num else if kind = 1 then 8 + num else 32 + num

/-- The values of an image of `kind`, and the event of a bad one (R36, R37, R41). -/
def imageBad (kind : Nat) (img : List Byte) : Option Nat :=
  let at_ := fun i k => leNat ((img.drop i).take k)
  if kind = 0 then
    (if (rangeFrom 0 256).any (fun i => let v := at_ (2 * i) 2; natBits v 12 4 != (if natBit v 11 then 15 else 0))
     then some 0x0120 else none)
  else if kind = 1 then none
  else if (rangeFrom 0 128).any (fun i => let v := at_ (4 * i) 4; decide (v < 0x00800000) || decide (0x7F7FFFFF < v))
    then some 0x0121 else none

/-- The parity bit of an entry: whether it has an odd number of ones (R162; assumption log 132, DESIGN CHOICE). -/
def entryParity (v : Nat) : Bool := (rangeFrom 0 32).foldl (fun p i => p != natBit v i) false

/-- The parity bits of `count` entries from number `base`. -/
def loadParity (p : SMap Bool) (base count : Nat) (v : Nat → Nat) : SMap Bool :=
  (rangeFrom 0 count).foldl (fun acc i => smapSet acc (base + i) (entryParity (v i))) p

/-- The image loaded (R36, R41, R42, R162). -/
def loadTable (d : Dev) (n kind num : Nat) (img : List Byte) : Dev :=
  let at_ := fun i k => leNat ((img.drop i).take k)
  if kind = 0 then
    modCore d n (fun k => { k with
      parity := loadParity k.parity (256 * num) 256 (fun i => at_ (2 * i) 2 % 2 ^ 12)
      cb8 := (rangeFrom 0 256).foldl (fun acc i =>
      smapSet acc (256 * num + i) (BitVec.ofNat 12 (at_ (2 * i) 2))) k.cb8 })
  else if kind = 1 then
    modCore d n (fun k => { k with
      parity := loadParity k.parity (4096 + 16 * num) 16 (fun i => at_ i 1)
      cb4 := (rangeFrom 0 16).foldl (fun acc i =>
      smapSet acc (16 * num + i) (BitVec.ofNat 8 (at_ i 1))) k.cb4 })
  else
    clipSet (modCore d n (fun k => { k with
      parity := loadParity k.parity (8192 + 128 * num) 128 (fun i => at_ (4 * i) 4)
      scales := (rangeFrom 0 128).foldl (fun acc i =>
      smapSet acc (128 * num + i) (BitVec.ofNat 32 (at_ (4 * i) 4))) k.scales })) n num 0

/-- The effect of DMOV's table-load form (R116): a bad or poisoned image leaves the register as it was (R37, R41). -/
def execDmovTableLoad (core : Nat) (f : BitVec 4) (o : BitVec 112) (errs : List MemErr) (s : State) :
    Host.Outcome State Fault Refusal :=
  let w := mkWord 4 1 f o
  let kind := fld o 110 2
  let num := fld o 104 5
  finish s (if f.toNat % 4 != 1 then (s.dev, []) else
    issue s.dev core w (fun d c x =>
      let k := coreOf d core
      let ds := descOf k (fld o 96 8)
      let src := tdesc (ownSlot d) ds
      let sg := descGranules d core src
      guarded
        ((0x0303, f != 1#4 || kind == 3 || !onlyFields o [(110, 2), (104, 5), (96, 8), (0, 6), (7, 1)]) ::
         (0x0124, (kind == 0 && decide (7 < num)) || (kind == 1 && decide (15 < num))) ::
         (0x030B, src.ndim != 1 || extOf src 0 != (if kind = 1 then 16 else 512)) ::
         descConds d core ds ownOnly [2])
        (whenReady (longReady k sg [] && bookFree k (tableReg kind num))
          (let r := applyErrs d s.mem errs
           let vals := readElems (localView d (memApplyAll s.mem r.2)) src
           let img := vals.map (fun v => BitVec.ofNat 8 v.1)
           let flt := orFault (srcFault d src vals)
             ((imageBad kind img).map (fun ev => (⟨ev, 2, wordDetail w⟩ : OpFault)))
           let d1 := if flt.isSome then r.1 else loadTable r.1 core kind num img
           .next (pushOp d1 core { newOp k c x.pc w sg [] with bookWritten := some (tableReg kind num), fault := flt }) r.2))))

/-! ### DACC -/

/-- The element format AFMT names (R114). -/
def afmtFmt (a : Nat) : Nat := if a = 2 then 4 else a

/-- Whether a tensor lies in an aperture of this device or of a board peer (R117). -/
def inAperture (d : Dev) (t : TDesc) : Bool :=
  match spanRegion (if t.peer then peerPart d t.slot else d.boot.part) (spanLo t) (spanHi t) with
  | .spread => true
  | .dieLocal _ => true
  | _ => false

/-- The requests of a DACC into a board peer: every contribution travels, one request for each element where addresses
repeat (R117). -/
def accReqs (base : BoardReq) (t : TDesc) (vals : List (Nat × Bool)) : List BoardReq :=
  let ws := writeElems t 0 vals
  let addrs := sortNats (ws.map (fun w => w.1))
  if addrs.length = ws.length then peerStores base ws
  else
    let bad := distinct ((ws.filter (fun w => w.2.2)).map (fun w => peerUnit w.1))
    peerStores base (ws.filter (fun w => w.2.2)) ++ vals.zipIdx.flatMap (fun v =>
      if bad.contains (peerUnit (elemAddr t v.2)) then [] else peerStores base (elemBytes t v.2 v.1 (0, false)))

/-- The effect of DACC (R117, R229, R230): contributions to a board peer travel as stores that carry the format
(assumption log 14, DESIGN CHOICE). -/
def execDacc (core : Nat) (f : BitVec 4) (o : BitVec 112) (errs : List MemErr) (s : State) :
    Host.Outcome State Fault Refusal :=
  let w := mkWord 4 2 f o
  let a := f.toNat % 4
  finish s (issue s.dev core w (fun d c x =>
    let k := coreOf d core
    let dd := descOf k (fld o 104 8)
    let ds := descOf k (fld o 96 8)
    let src := tdesc (ownSlot d) ds
    let dst := tdesc (ownSlot d) dd
    let sg := descGranules d core src
    guarded
      ((0x0303, decide (2 < f.toNat) || !onlyFields o [(104, 8), (96, 8), (0, 6), (7, 1)]) ::
       (0x030A, src.fmt != afmtFmt a || dst.fmt != afmtFmt a) ::
       (0x030B, elemCount src != elemCount dst) ::
       (0x0523, !inAperture d dst) ::
       (descConds d core dd anyRegion allFmts ++ descConds d core ds ownOnly allFmts))
      (whenReady (longReady k sg [])
        (let r := applyErrs d s.mem errs
         let m := memApplyAll s.mem r.2
         let op := { newOp k c x.pc w sg [] with dd := dd, ds := ds }
         let vals := readElems (localView r.1 m) src
         let flt := srcFault r.1 src vals
         if dst.peer then
           .next (sendForOp (pushOp r.1 core { op with fault := flt }) core op
             (accReqs { opReq dst.slot core op with acc := 1 + a } dst vals)) r.2
         else
           let v := accAll r.1 m dst ((rangeFrom 0 (elemCount dst)).map (fun e => (e, listGet vals e (0, false)))) flt
           .next (pushOp v.dev core { op with fault := v.fault }) (r.2 ++ v.ops)))))

/-! ### DPOOL -/

/-- One partial or pooled value: SUM adds, MAX keeps the first NaN or the greatest (R182, R234). -/
def poolStep (comb : Nat) (a b : W32) : W32 :=
  if comb = 2 then
    (if f32IsNan a then a else if f32IsNan b then b else if fLtZero (fOf32 a) (fOf32 b) then b else a)
  else fTo32 (fAdd (fOf32 a) (fOf32 b))

/-- A list combined from its first element (R233). -/
def poolList (comb : Nat) (l : List W32) : Option W32 :=
  match l with
  | [] => none
  | x :: t => some (t.foldl (poolStep comb) x)

/-- One element of a pooled row (R233): `rows` in list order, `col` the element in the row. -/
def poolElem (v : ByteView) (t : TDesc) (comb : Nat) (rows : List Nat) (col : Nat) : Option W32 :=
  let n0 := extOf t 0
  let at_ := fun r => wide t.fmt (elemRaw v t (r * n0 + col))
  let stack := fun r => keyPc (memKey (elemAddr t (r * n0 + col))) / 64
  let parts := (rangeFrom 0 20).flatMap (fun s =>
    (chunksOf 256 rows.length (rows.filter (fun r => stack r == s))).filterMap (fun c => poolList comb (c.map at_)))
  poolList comb parts

/-- One element of DD (R232 to R234). -/
def poolOut (v : ByteView) (t : TDesc) (comb fmt : Nat) (rows : List Nat) (col : Nat) : Nat :=
  match poolElem v t comb rows col with
  | none => 0
  | some x =>
    if comb = 1 then narrowTo fmt (fDiv (fOf32 x) (fOfInt rows.length)) else narrowTo fmt (fOf32 x)

/-- The entries of bag `b` that are not skipped (R232). -/
def bagRows (list : List (Nat × Bool)) (len b rows : Nat) : List Nat :=
  (((list.drop (b * len)).take len).filter (fun p => !p.2 && p.1 != 0xFFFFFFFF && decide (p.1 < rows))).map (fun p => p.1)

/-- Whether a row is poisoned. -/
def rowBad (v : ByteView) (t : TDesc) (r : Nat) : Bool :=
  (rangeFrom (r * extOf t 0) (extOf t 0)).any (fun e => elemBad v t e)

/-- The rows of DD written by DPOOL (R231 to R235, R241). -/
def poolRun (d : Dev) (m : Mem) (n : Nat) (o : LongOp) : Dev × List MemOp :=
  let comb := bvBits o.word 112 2
  let list := tdesc (ownSlot d) o.aux
  let t := tdesc (ownSlot d) o.ds
  let dst := tdesc (ownSlot d) o.dd
  let lv := readElems (localView d m) list
  let v := sourceView d m o t
  let rows := outerCount t
  let len := extOf list 0
  let dram := match hereRegion d dst with | .spad _ => false | _ => true
  let vals := (rangeFrom 0 (elemCount list / max 1 len)).flatMap (fun b =>
    let rs := bagRows lv len b rows
    let bad := rs.any (rowBad v t) || ((lv.drop (b * len)).take len).any (fun p => p.2)
    (rangeFrom 0 (extOf t 0)).map (fun c =>
      if bad then (0, !dram) else (poolOut v t comb dst.fmt rs c, false)))
  let used := (rangeFrom 0 (elemCount list / max 1 len)).flatMap (fun b => bagRows lv len b rows)
  let flt := orFault (srcFault d list lv)
    (match used.find? (rowBad v t) with
     | some r => if t.peer then some ⟨0x0642, 0, wordDetail o.word⟩
                 else (((rangeFrom (r * extOf t 0) (extOf t 0)).find? (fun e => elemBad v t e)).map (fun e =>
                   poisonFault d (elemAddr t e)))
     | none => none)
  let beyond := lv.any (fun p => !p.2 && p.1 != 0xFFFFFFFF && decide (rows ≤ p.1))
  let d1 := if beyond then setVflags d n vfIndex else d
  let st := storeElems d1 m dst vals
  (modOp d1 n o.id (fun p => { p with fault := orFault p.fault (orFault flt (st.2.map (dropFault d))) }), st.1)

/-- The shapes and places R231 asks for: its table is packed in dimension 0, and its bag list may lie in any scratchpad,
aperture or accumulation store of this device (assumption log 136, DESIGN CHOICE). -/
def poolConds (d : Dev) (n : Nat) (f : BitVec 4) (o : BitVec 112) (dd d1 d2 : BitVec 512) : List Cond :=
  let list := tdesc (ownSlot d) d1
  let t := tdesc (ownSlot d) d2
  let dst := tdesc (ownSlot d) dd
  let bags := elemCount list / max 1 (extOf list 0)
  let ddOk := match hereRegion d dst with | .spad k => k == n | .spread => true | .dieLocal _ => true | _ => false
  (0x0303, decide (2 < f.toNat) || !onlyFields o [(104, 8), (96, 8), (88, 8), (0, 6), (7, 1)]) ::
    (0x030A, !isFp t.fmt || !isFp dst.fmt || list.fmt != 4) ::
    (0x030B, !packed0 t || decide (4096 < extOf t 0 * elemSize t.fmt) || t.base % 256 != 0 ||
      (t.str.drop 1).any (fun s => s % 256 != 0) || !inAperture d t || decide (2 < list.ndim) ||
      extOf dst 0 != extOf t 0 || elemCount dst != extOf t 0 * bags || dst.peer || !ddOk) ::
    (descConds d n dd anyRegion allFmts ++
      descConds d n d1 ⟨true, true, true, true, false, false⟩ allFmts ++ descConds d n d2 anyRegion allFmts)

/-- The effect of DPOOL (R118, R231 to R235); the table of a board peer is fetched line by line and combined here in
the order of R233 (assumption log 14, DESIGN CHOICE). -/
def execDpool (core : Nat) (f : BitVec 4) (o : BitVec 112) (errs : List MemErr) (s : State) :
    Host.Outcome State Fault Refusal :=
  let w := mkWord 4 3 f o
  finish s (issue s.dev core w (fun d c x =>
    let k := coreOf d core
    let dd := descOf k (fld o 104 8)
    let d1 := descOf k (fld o 96 8)
    let d2 := descOf k (fld o 88 8)
    let list := tdesc (ownSlot d) d1
    let t := tdesc (ownSlot d) d2
    let sg := descGranules d core list
    let dg := descGranules d core (tdesc (ownSlot d) dd)
    guarded (poolConds d core f o dd d1 d2)
      (whenReady (longReady k sg dg)
        (let r := applyErrs d s.mem errs
         let m := memApplyAll s.mem r.2
         let op := { newOp k c x.pc w sg dg with dd := dd, ds := d2, aux := d1 }
         let p := pushOp r.1 core op
         if t.peer then
           let rows := (readElems (localView d m) list).filterMap (fun q =>
             if !q.2 && q.1 != 0xFFFFFFFF && decide (q.1 < outerCount t) then some q.1 else none)
           let es := rows.flatMap (fun q => rangeFrom (q * extOf t 0) (extOf t 0))
           .next (sendForOp p core op (loadReqs (opReq t.slot core op) (tensorAddrs t es))) r.2
         else
           let q := poolRun p m core op
           .next q.1 (r.2 ++ q.2)))))

/-! ### Completion -/

/-- A long operation's board data is whole: its effect follows (R77, R115, R233). A DMOV whose destination is a peer
then sends its stores. -/
def boardDataDone (d : Dev) (m : Mem) (n id : Nat) : Dev × List MemOp :=
  match (coreOf d n).ops.find? (fun o => o.id == id) with
  | none => (d, [])
  | some o =>
    let bad := match o.fault with | some _ => true | none => false
    if o.awaiting != 0 || bad then (d, [])
    else if opCode o.word = 1 then copyOut d m n o
    else if opCode o.word = 3 then poolRun d m n o
    else (d, [])

/-- A DMOV, DACC or DPOOL completes: its writes are visible, and every board peer has answered (R77). -/
def execDmaComplete (core op : Nat) (s : State) : Host.Outcome State Fault Refusal :=
  finishDev s
    (match (coreOf s.dev core).ops.find? (fun o => o.id == op) with
     | some o => if opClass o.word = 4 ∧ o.awaiting = 0 ∧ routerOn s.dev then completeOp s.dev core o else s.dev
     | none => s.dev)

end Sys2Proof.Machine
end

