-- ==== Sys2Proof/Machine/Peers.lean ====
section
/-! DEFINITION. Board channels at both ends: requests served, replies taken, re-sending, and the host's BAR2 window
(R14, R28, R335 to R338, R503, R504). -/

namespace Sys2Proof.Machine

/-- Why an access of `len` bytes at `a` fails on this device: 0 it does not, 1 unmapped, 2 an absent core, 3 a band its
view does not own (R336), 5 the accumulation store or register space (R28). -/
def accessReason (d : Dev) (a len : Nat) : Nat :=
  let hi := a + (len - 1)
  match spanRegion d.boot.part a hi with
  | .unmapped => 1
  | .spad n => if corePresent d n then 0 else 2
  | .accStore => 5
  | .mirror _ => 5
  | _ => if viewClash d a hi then 3 else 0

/-- Bytes written at device-local address `a`, with the key of a dropped write (R218, R239, R241). -/
def writeAt (d : Dev) (m : Mem) (a : Nat) (bs : List Byte) : List MemOp × Option Nat :=
  storeCells d m (bs.zipIdx.map (fun b => (memKey (a + b.2), b.1, false)))

/-- Whether any byte of a range reads poisoned. -/
def rangeBad (d : Dev) (m : Mem) (a len : Nat) : Bool := (rangeFrom a len).any (fun x => keyPoisoned d m (memKey x))

/-- Bytes read at a device-local address. -/
def readAt (m : Mem) (a len : Nat) : List Byte := (rangeFrom a len).map (fun x => memByte m (memKey x))

/-! ### The target -/

/-- A reply to a board request (R336): SUB, payload. None follows the last one to a drained peer (R359). -/
def sendReply (d : Dev) (p : Packet) (sub : Nat) (payload : List Byte) : Dev :=
  if drainOver d p.src then d else queuePacket d (sealPacket { mkPacket d 5 p.src sub payload with seq := p.seq, offset := p.offset })

/-- The FAULT reply with a reason; the accumulation store and register space count as unmapped. -/
def faultReply (d : Dev) (p : Packet) (reason : Nat) : Dev :=
  sendReply d p 4 (leBytes 8 (if reason = 5 then 1 else reason))

/-- What a request of a channel was answered when it was consumed, if it has been (R338). -/
def boardSeen (d : Dev) (p : Packet) : Option Nat := smapFind (smapGet d.ni.boardSeen (p.src % 8) []) p.seq

/-- A duplicate counted (R332, R338). -/
def boardDup (d : Dev) : Dev := regBump d 0x1100024 1

/-- A request of a channel consumed, with its answer. SEQs half their range behind it are forgotten, so that the numbers
can wrap. -/
def boardTaken (d : Dev) (p : Packet) (answer : Nat) : Dev :=
  let kept := (smapGet d.ni.boardSeen (p.src % 8) []).filter (fun e => decide ((p.seq + 2 ^ 32 - e.1) % 2 ^ 32 < 2 ^ 31))
  { d with ni := { d.ni with boardSeen := smapSet d.ni.boardSeen (p.src % 8) (smapSet kept p.seq answer) } }

/-- A board load request is served at the target (R336 to R338). -/
def execLsRead (p : Packet) (errs : List MemErr) (s : State) : Host.Outcome State Fault Refusal :=
  finish s (onPacket s.dev p 3 0 (fun d =>
    let len := payNat p 0 2
    let d1 := if (boardSeen d p).isSome then boardDup d else boardTaken d p 0
    let r := accessReason d1 p.offset len
    if len = 0 ∨ 256 < len then (faultReply d1 p 1, [])
    else if r != 0 then (faultReply d1 p r, [])
    else
      let q := portErrs d1 s.mem errs
      let m := memApplyAll s.mem q.2
      (if rangeBad q.1 m p.offset len then sendReply q.1 p 3 (List.replicate len 0#8)
       else sendReply q.1 p 0 (readAt m p.offset len), q.2)))

/-- The elements of an accumulate-write that a board peer sent (assumption log 14, DESIGN CHOICE). -/
def accStores (d : Dev) (m : Mem) (p : Packet) : RunOut :=
  let fmt := afmtFmt (p.epoch - 1)
  let n := p.len / elemSize fmt
  let t : TDesc := ⟨p.offset, 0, false, fmt, 1, [n, 1, 1, 1, 1], [(elemSize fmt : Nat), 0, 0, 0, 0], 0⟩
  accAll d m t ((rangeFrom 0 n).map (fun e => (e, (payNat p (e * elemSize fmt) (elemSize fmt), false)))) none

/-- The answer to a store or signal: an acknowledgement of SUB `sub`, or a FAULT with its reason (R336). -/
def answerReq (d : Dev) (p : Packet) (sub answer : Nat) : Dev :=
  if answer = 0 then sendReply d p sub (leBytes 8 0) else faultReply d p answer

/-- A board store is applied at the target and acknowledged; a duplicate is answered as it was and not applied (R337,
R338). EPOCH 4 poisons the units it names (R217; assumption log 14, DESIGN CHOICE). -/
def execLsWrite (x : Meets Packet) (s : State) : Host.Outcome State Fault Refusal :=
  let p := x.it
  finish s (onPacket s.dev p 4 0 (fun d =>
    match boardSeen d p with
    | some answer => (answerReq (boardDup d) p 1 answer, [])
    | none =>
      let r := accessReason d p.offset p.len
      if r != 0 then (answerReq (boardTaken d p r) p 1 r, [])
      else
        let e := portErrs d s.mem x.errs
        let m := memApplyAll s.mem e.2
        let v : Dev × List MemOp × Bool :=
          if p.epoch = 0 ∨ p.epoch = 4 then
            (let w := storeCells e.1 m ((p.payload.take p.len).zipIdx.map (fun b =>
               (memKey (p.offset + b.2), b.1, decide (p.epoch = 4))))
             (e.1, w.1, w.2.isSome))
          else
            (let w := accStores e.1 m p
             (w.dev, w.ops, w.fault.isSome))
        let answer := if v.2.2 then 4 else 0
        (answerReq (boardTaken v.1 p answer) p 1 answer, e.2 ++ v.2.1)))

/-- A board SSIG adds to a target core's event counter (R103, R336). -/
def execSignal (p : Packet) (s : State) : Host.Outcome State Fault Refusal :=
  finish s (onPacket s.dev p 9 0 (fun d =>
    let n := payNat p 0 2
    match boardSeen d p with
    | some answer => (answerReq (boardDup d) p 2 answer, [])
    | none =>
      if !corePresent d n then (answerReq (boardTaken d p 2) p 2 2, [])
      else (answerReq (boardTaken (addEvent d n (payNat p 2 1 % 64) (payNat p 4 2)) p 0) p 2 0, [])))

/-! ### BAR2 -/

/-- The board address a BAR2 offset reaches (R503). -/
def bar2Addr (d : Dev) (o : Nat) : Nat := (regField d 0x9300 0 9 * 2 ^ 36 + o % 2 ^ 36) % 2 ^ 45

/-- Whether BAR2 writes of the host to board peers are still unacknowledged (R504). -/
def bar2Busy (d : Dev) : Bool := d.ni.board.any (fun r => r.kind == 4)

/-- A host access through BAR2 that ends with Unsupported Request for `reason`; one in a band its view does not own is
recorded (R25, R503). -/
def bar2Refuse (d : Dev) (reason : Nat) : Dev :=
  emit (if reason = 3 then postRecord d (recOf 0x0522 2 0xFF []) else d) (.bar2 false false [])

/-- A read of a board peer begins: one request for each 256-byte line (R335). -/
def peerReadBegin (d : Dev) (slot x len : Nat) : Dev :=
  let base := { blankReq slot 3 0 0 0 0#128 with op := d.host.nextRead }
  let rs := (loadReqs base (rangeFrom x len)).map (fun r => { r with kind := 3 })
  let d0 := { d with host := { d.host with
    nextRead := d.host.nextRead + 1
    peerReads := d.host.peerReads ++ [⟨d.host.nextRead, x, len, rs.length, [], false, none, false⟩] } }
  match boardSendAll d0 rs with
  | (d1, true) => d1
  | (d1, false) => emit { d1 with host := { d1.host with peerReads := d.host.peerReads } } (.bar2 false false [])

/-- One line of a read of a board peer is answered, or lost; with the last one the host's read completes (R503). -/
def peerReadLine (d : Dev) (num : Nat) (g : PeerRead → PeerRead) : Dev :=
  match d.host.peerReads.find? (fun r => r.num == num) with
  | none => d
  | some r0 =>
    let r := g { r0 with left := r0.left - 1 }
    let d1 := { d with host := { d.host with peerReads := d.host.peerReads.filterMap (fun q =>
      if q.num = num then (if r.left = 0 then none else some r) else some q) } }
    if r.left ≠ 0 then d1
    else if r.lost then emit d1 (.bar2 false true [])
    else match r.refused with
      | some reason => bar2Refuse d1 reason
      | none =>
        if r.bad then emit d1 (.bar2 true true (List.replicate r.len 0#8))
        else emit d1 (.bar2 true false ((rangeFrom r.addr r.len).map (fun a => smapGet r.got a 0#8)))

/-- A host read through BAR2, now that earlier writes have completed (R503); `errs`: what it finds in this device's
memory. -/
def bar2ReadNow (d : Dev) (m : Mem) (a len : Nat) (errs : List MemErr) : Dev × List MemOp :=
  let slot := a / 2 ^ 42
  let x := a % 2 ^ 42
  if slot = ownSlot d then
    if accessReason d x len != 0 then (bar2Refuse d (accessReason d x len), [])
    else
      let e := portErrs d m errs
      let m1 := memApplyAll m e.2
      (if rangeBad e.1 m1 x len then emit e.1 (.bar2 true true (List.replicate len 0#8))
       else emit e.1 (.bar2 true false (readAt m1 x len)), e.2)
  else if peerPart d slot = 0 then (emit d (.bar2 false false []), [])
  else
    match spanRegion (peerPart d slot) x (x + (len - 1)) with
    | .unmapped => (emit d (.bar2 false false []), [])
    | .accStore => (emit d (.bar2 false false []), [])
    | .mirror _ => (emit d (.bar2 false false []), [])
    | _ => (if len = 0 then emit d (.bar2 true false []) else peerReadBegin d slot x len, [])

/-- Reads made in order. -/
def bar2ReadAll (d : Dev) (m : Mem) (rs : List (Nat × Nat × List MemErr)) : Dev × List MemOp :=
  match rs with
  | [] => (d, [])
  | r :: t =>
    let q := bar2ReadNow d m r.1 r.2.1 r.2.2
    let p := bar2ReadAll q.1 (memApplyAll m q.2) t
    (p.1, q.2 ++ p.2)

/-- Reads that waited for writes are served once none is outstanding (R504). -/
def bar2Resume (d : Dev) (m : Mem) : Dev × List MemOp :=
  if bar2Busy d then (d, []) else bar2ReadAll { d with host := { d.host with reads := [] } } m d.host.reads

/-- How the host port takes an access: 0 now, 1 after the exit from P2 or P3, 2 not at all, before stage 1 has ended or
without supplies (R442, R542, R547). -/
def hostTakes (d : Dev) : Nat :=
  if d.pwr.tripped ∨ d.own.epo ∨ d.pwr.aonLost ∨ regField d 0x800 0 4 < 2 then 2 else if 2 ≤ d.pwr.st then 1 else 0

/-- A host access to a device in P2 or P3 wakes it and completes after the exit (R542). -/
def hostDefer (d : Dev) (a : HostAcc) : Dev :=
  wakeDevice { d with host := { d.host with later := d.host.later ++ [a] } } 1

/-- A host read through BAR2 of `len` bytes at window offset `offset`, with what the reader's SECDED found in a scratchpad of
this device. -/
def bar2ReadGo (w : Dev × List MemOp) (m : Mem) (offset len : Nat) (errs : List MemErr) : Dev × List MemOp :=
  let a := bar2Addr w.1 offset
  if bar2Busy w.1 || !w.1.host.reads.isEmpty then
    ({ w.1 with host := { w.1.host with reads := w.1.host.reads ++ [(a, len, errs)] } }, w.2)
  else
    let r := bar2ReadNow w.1 (memApplyAll m w.2) a len errs
    (r.1, w.2 ++ r.2)

/-- Host read through the BAR2 board window (R503, R504). -/
def execBar2Read (offset len : Nat) (errs : List MemErr) (s : State) : Host.Outcome State Fault Refusal :=
  let d := s.dev
  finish s (match hostTakes d with
    | 0 => bar2ReadGo (d, []) s.mem offset len errs
    | 1 => (hostDefer d ⟨true, offset, len, none, errs⟩, [])
    | _ => (emit d (.bar2 false false []), []))

/-- A host write through BAR2 (R499, R503): posted, so a write into poison or a retired channel is dropped without an error
(R239). -/
def bar2WriteGo (d : Dev) (m : Mem) (offset : Nat) (bytes : List Byte) : Dev × List MemOp :=
  let a := bar2Addr d offset
  let slot := a / 2 ^ 42
  let x := a % 2 ^ 42
  if !isOwner d 1 then (dropWrite d 1 0, [])
  else if bytes.isEmpty then (d, [])
  else if slot = ownSlot d then
    if accessReason d x bytes.length != 0 then (bar2Refuse d (accessReason d x bytes.length), [])
    else (d, (writeAt d m x bytes).1)
  else if peerPart d slot = 0 then (emit d (.bar2 false false []), [])
  else
    match spanRegion (peerPart d slot) x (x + (bytes.length - 1)) with
    | .unmapped => (emit d (.bar2 false false []), [])
    | .accStore => (emit d (.bar2 false false []), [])
    | .mirror _ => (emit d (.bar2 false false []), [])
    | _ =>
      let base := { blankReq slot 4 0 0 0 0#128 with acc := 0 }
      match boardSendAll d ((storeReqs base (bytes.zipIdx.map (fun b => (x + b.2, b.1)))).map (fun r => { r with kind := 4 })) with
      | (d1, true) => (d1, [])
      | (d1, false) => (emit d1 (.bar2 false false []), [])

/-- Host write through the BAR2 board window (R499, R503, R542). -/
def execBar2Write (offset : Nat) (bytes : List Byte) (s : State) : Host.Outcome State Fault Refusal :=
  let d := s.dev
  finish s (match hostTakes d with
    | 0 => bar2WriteGo d s.mem offset bytes
    | 1 => (hostDefer d ⟨true, offset, bytes.length, some bytes, []⟩, [])
    | _ => (emit d (.bar2 false false []), []))

/-! ### The requester -/

/-- The request a reply answers (R335, R338). -/
def boardFind (d : Dev) (p : Packet) : Option BoardReq :=
  d.ni.board.find? (fun r => r.slot == p.src % 8 && r.seq == p.seq && r.sent)

/-- A request answered: its credit returns and the next request that waits for one leaves (R335). -/
def boardRetire (d : Dev) (r : BoardReq) : Dev :=
  boardPump { d with ni := { d.ni with board := d.ni.board.filter (fun q => q != r) } } r.slot

/-- One reply fewer awaited by the long operation of a request. -/
def opAnswered (d : Dev) (r : BoardReq) (g : LongOp → LongOp) : Dev :=
  modOp d r.core r.op (fun o => g { o with awaiting := o.awaiting - 1 })

/-- The fault of a board request (R338): on its long operation, or, for a signal, on its context at once. -/
def boardFault (d : Dev) (r : BoardReq) (f : OpFault) : Dev :=
  if r.kind = 2 then afterWork (faultCtx d r.core r.ctx r.pc f.ev f.cls f.detail) r.core
  else opAnswered d r (fun o => { o with fault := orFault o.fault (some f) })

/-- Load data lands in its reserved line slot (R335, R336). -/
def execLsReplyData (p : Packet) (s : State) : Host.Outcome State Fault Refusal :=
  finish s (onPacket s.dev p 5 0 (fun d =>
    match boardFind d p with
    | none => (regBump d 0x1100024 1, [])
    | some r =>
      let d1 := boardRetire d r
      if r.kind = 3 then (peerReadLine d1 r.op (fun q => { q with
        got := (p.payload.take r.len).zipIdx.foldl (fun acc b => smapSet acc (r.addr + b.2) b.1) q.got }), [])
      else
        let d2 := opAnswered d1 r (fun o => { o with
          buf := (p.payload.take r.len).zipIdx.foldl (fun acc b => smapSet acc (r.addr + b.2) b.1) o.buf })
        boardDataDone d2 s.mem r.core r.op))

/-- A store acknowledgement completes the store (R77, R337). -/
def execWriteAck (p : Packet) (s : State) : Host.Outcome State Fault Refusal :=
  finish s (onPacket s.dev p 5 1 (fun d =>
    match boardFind d p with
    | none => (regBump d 0x1100024 1, [])
    | some r =>
      let d1 := boardRetire d r
      if r.kind = 4 then bar2Resume d1 s.mem else (opAnswered d1 r (fun o => o), [])))

/-- A signal acknowledgement restores a credit (R335). -/
def execSignalAck (p : Packet) (s : State) : Host.Outcome State Fault Refusal :=
  finish s (onPacket s.dev p 5 2 (fun d =>
    match boardFind d p with
    | none => (regBump d 0x1100024 1, [])
    | some r => (boardRetire d r, [])))

/-- A poisoned load reply is handled as poison consumed (R241, R338). -/
def execDataPoison (p : Packet) (s : State) : Host.Outcome State Fault Refusal :=
  finish s (onPacket s.dev p 5 3 (fun d =>
    match boardFind d p with
    | none => (regBump d 0x1100024 1, [])
    | some r =>
      let d1 := boardRetire d r
      if r.kind = 3 then (peerReadLine d1 r.op (fun q => { q with bad := true }), [])
      else
        let d2 := opAnswered d1 r (fun o => { o with bufPoison := o.bufPoison ++ rangeFrom r.addr r.len })
        boardDataDone d2 s.mem r.core r.op))

/-- A FAULT reply completes the instruction with a remote fault, its reason after the instruction's bits in DETAIL
(R338, R469; assumption log 22, DEDUCED); a host access ends with Unsupported Request, and a write that the peer dropped without an
error. -/
def execLsReplyFault (p : Packet) (s : State) : Host.Outcome State Fault Refusal :=
  finish s (onPacket s.dev p 5 4 (fun d =>
    match boardFind d p with
    | none => (regBump d 0x1100024 1, [])
    | some r =>
      let reason := payNat p 0 1
      let d1 := boardRetire d r
      let f : OpFault := if reason = 4 then ⟨0x0642, 0, wordDetail r.word⟩
        else ⟨0x0B58, 2, wordDetail r.word ++ leBytes 1 reason⟩
      if r.kind = 3 then (peerReadLine d1 r.op (fun q => { q with refused := some reason }), [])
      else if r.kind = 4 then bar2Resume (if reason = 4 then d1 else bar2Refuse d1 reason) s.mem
      else (boardFault d1 r f, [])))

/-- The retry limit in effect (R333, R362). -/
def retryLimit (d : Dev) : Nat := max 1 (regField d 0x1100000 16 8)

/-- A board request that has gone unanswered for E2E_TIMEOUT re-sent with its SEQ, or lost after the retry limit
(R331, R338). -/
def boardResend (d : Dev) (m : Mem) (slot seq : Nat) : Dev × List MemOp :=
  match d.ni.board.find? (fun r => r.slot == slot && r.seq == seq && r.sent) with
  | none => (d, [])
  | some r =>
    if !aonPassed d r.sentAt (e2eTimeoutNs d) then (d, [])
    else if r.retries < retryLimit d then
      let d1 := dayBump (regBump d 0x110002C 1) 10 1
      let d2 := { d1 with ni := { d1.ni with board := d1.ni.board.map (fun q => if q == r then { q with retries := q.retries + 1, sentAt := d.boot.aonNs } else q) } }
      (postRecord (queueReq d2 r (reqPacket d2 r)) (recPort 0x0B52 0 0xFF (65536 + slotNode d slot)
        (netDetail (ownNode d) (slotNode d slot) 0 63)), [])
    else
      let d1 := boardRetire d r
      if r.kind = 3 then (peerReadLine d1 r.op (fun q => { q with lost := true }), [])
      else if r.kind = 4 then
        bar2Resume (postRecord d1 (recOf 0x0B57 0 0xFF (netDetail (ownNode d) (slotNode d slot) 0 63))) m
      else (boardFault d1 r ⟨0x0B57, 0, netDetail (ownNode d) (slotNode d slot) 0 63⟩, [])

end Sys2Proof.Machine
end

