-- ==== Sys2Proof/Machine/ColIssue.lean ====
section
/-! DEFINITION. COL instructions at issue, and how collectives start and end (R119 to R123, R341 to R347, R350, R358,
R361). -/

namespace Sys2Proof.Machine

/-! ### Starting -/

/-- The member list read (R342). -/
def readGroup (m : Mem) (a n : Nat) : List Nat :=
  (rangeFrom 0 n).map (fun i => leNat ((rangeFrom (a + 2 * i) 2).map (fun x => memByte m (memKey x))))

/-- Whether a list names a number twice (R344). -/
def hasTwice (l : List Nat) : Bool :=
  match l with
  | [] => false
  | x :: t => t.contains x || hasTwice t

/-- A collective ends with a status before any data moves (R344, R350). -/
def collRefuse (d : Dev) (c : Coll) (code : Nat) : Dev :=
  modColl d c.num (fun c => { c with
    status := max c.status code
    bad := (otherRanks c).foldl keyInsert c.bad
    lost := allRanks c
    sent := (c.root :: allRanks c).foldl keyInsert c.sent, got := (allRanks c).foldl keyInsert c.got
    kids := [], parent := c.rank, released := true })

/-- The members outside the slice, or that a pending slice command excludes (R306, R359). -/
def fencedRanks (d : Dev) (c : Coll) : List Nat :=
  (otherRanks c).filter (fun r => !isMember d (rankNode c r) || natBit d.ni.draining (rankNode c r))

/-- A rank that cannot be reached at the start: the refusal is counted where a packet would have met the fence (R306), and
a drained member's part ends without one (R359). -/
def fenceStart (n : Nat) (d : Dev) (r : Nat) : Dev :=
  match collFind d n with
  | some c => if isMember d (rankNode c r) then fencePart d n r else fenceRefused d n r
  | none => d

/-- A multicast at its start: its unreachable children are pruned; with a parent that cannot be reached it waits for its
adopter, and ends where no member above it is left to adopt it (R353). -/
def castStart (d : Dev) (c : Coll) (out : List Nat) : Dev :=
  let d1 := (out.filter (fun r => c.kids.contains r)).foldl (fenceStart c.num) d
  if !isRoot c && (treeAbove c c.rank c.size).all (fun r => out.contains r) then fenceStart c.num d1 c.parent else d1

/-- Parts of a collective that COUNT 0 leaves without data (R361). -/
def collEmpty (c : Coll) : Coll :=
  if c.count != 0 || c.kind == 7 || c.kind == 8 || c.kind == 9 then c
  else if c.kind = 5 then { c with got := keyInsert c.got c.rank }
  else if isTree c.kind then { c with released := true, result := some [], kids := [], parent := c.rank }
  else { c with sent := (allRanks c).foldl keyInsert c.sent, got := (allRanks c).foldl keyInsert c.got }

/-- A collective starts: its member list is read and checked, and its tree laid out (R344, R350, R352). -/
def collBegin (w : Work) (c0 : Coll) : Work :=
  let msg := c0.kind == 8 || c0.kind == 9
  let c1 := { c0 with phase := 1, group := if msg || c0.kind == 17 || c0.kind == 16 then c0.group
                                          else readGroup w.mem (dword c0.block 1 0 42) c0.size }
  let c2 := if isTree c1.kind then
      { c1 with kids := treeKids c1 c1.rank, parent := treeParent c1 c1.rank,
                got := if c1.kind = 5 ∧ isRoot c1 then [c1.rank] else [] }
    else { c1 with parent := c1.size }
  let c := collEmpty c2
  let w1 := wDev w (fun d => modColl d c.num (fun _ => c))
  if !msg && hasTwice c.group then wDev w1 (fun d => collRefuse d c 11)
  else if !msg && decide (c.kind < 16) && epochOld w1.dev c.epoch then wDev w1 (fun d => collRefuse d c 4)
  else
    let out := fencedRanks w1.dev c
    niSettle (wDev w1 (fun d => if c.kind = 5 then castStart d c out else out.foldl (fenceStart c.num) d))

/-- Whether a queued collective may start now (R344). -/
def collMayStart (d : Dev) (c : Coll) : Bool :=
  decide ((runningColls d).length < 64) &&
    (c.kind == 8 || c.kind == 9 || (collById d c.id).isNone)

/-- The oldest queued collective starts if it may. -/
def collNext (w : Work) : Work :=
  match w.dev.ni.colls.find? (fun c => c.phase == 0 && decide (c.kind < 16)) with
  | some c => if collMayStart w.dev c then collBegin w c else w
  | none => w

/-! ### Issue -/

/-- A collective of the network interface, as it stands before it is issued. -/
def collReset : Coll :=
  { num := 0, core := 0, ctx := 0, op := 0, kind := 0, id := 0, epoch := 0, group := [], size := 1, rank := 0, root := 0,
    fan := 1, count := 0, fmt := 0, min := false, block := 0#512, dd := 0#512, ds := 0#512, di := 0#512, si := 0#512,
    peer := 0, shard := 0, step := 0, phase := 0, status := 0, bad := [], elements := 0, retrans := 0, sent := [], got := [], lost := [],
    sendCount := [], landed := [], kids := [], kidsDone := [], parent := 0, pruned := [], prunedCount := 0, partials := [],
    result := none, upSent := false, tries := 0, offerAt := 0, released := false,
    issuedAt := 0, halted := false }

/-- The operands of a COL instruction (R119). -/
structure ColFields where
  block : BitVec 512
  dd : BitVec 512
  ds : BitVec 512
  si : BitVec 512
  di : BitVec 512
  count : Nat
  slot : Nat
  peer : Nat

/-- The fields of a COL instruction, read at issue. -/
def colFields (k : Core) (o : BitVec 112) : ColFields :=
  let b := descOf k (fld o 104 8)
  { block := b, dd := descOf k (fld o 96 8), ds := descOf k (fld o 88 8), si := descOf k (dword b 5 0 8),
    di := descOf k (dword b 5 8 8), count := fld o 56 32, slot := fld o 44 12, peer := fld o 28 16 }

/-- Where an operand of a COL instruction may lie (assumption log 25, DEDUCED). -/
def colSource : Allowed := ⟨true, true, true, true, false, false⟩
/-- The same for a destination; CRSC's is a bucket binding. -/
def colDest (kind : Nat) : Allowed := if kind = 2 then ⟨false, false, false, true, false, false⟩ else ⟨true, true, true, false, false, false⟩

/-- Whether this device uses the DD and the DS of a collective (R120). -/
def colUses (kind : Nat) (b : BitVec 512) : Bool × Bool :=
  let root := dword b 2 0 16 == dword b 2 32 16
  (kind != 7 && kind != 8 && !(kind == 5 && root), kind != 1 && kind != 7 && kind != 9 && !(kind == 5 && !root))

/-- The entry whose bucket slots a CRSC's DD spans exactly (R367). -/
def crscShard (d : Dev) (t : TDesc) (count : Nat) : Option Nat :=
  let s := ((spanLo t).toNat - 0x21000000000) / 0x8000
  let e := bktShard d s
  match shardOf d e with
  | some x =>
    if bktState d s != 0 && shKind x == 1 && shActive x && spanLo t == (bktBase (shFirst x) : Int) &&
        spanHi t == ((bktBase (shFirst x) + 4 * count - 1 : Nat) : Int) && shElems x == count && elemCount t == count
    then some e else none
  | none => none

/-- Whether the block of a collective is malformed (R343). -/
def blockBad (d : Dev) (m : Mem) (n kind : Nat) (v : ColFields) : Bool :=
  let b := v.block
  let rec_ := dword b 0 0 42
  let grp := dword b 1 0 42
  let size := dword b 1 42 17
  let rank := dword b 2 0 16
  let hi := grp + 2 * size - 1
  let here := spanRegion d.boot.part grp hi
  let ds := tdesc (ownSlot d) v.ds
  let coded := kind == 2 && (ds.fmt == 2 || ds.fmt == 3)
  let chans := (elemCount ds + dword b 4 42 20 - 1) / max 1 (dword b 4 42 20)
  let scales := dword b 4 0 42
  let inOwn := fun (a k : Nat) => spanRegion d.boot.part a ((a : Int) + (k : Int) - 1) == .spad n
  dword b 0 42 6 != 0 || dword b 1 59 5 != 0 || dword b 2 52 12 != 0 || dword b 3 48 16 != 0 || dword b 4 62 2 != 0 ||
    dword b 5 16 16 != 0 || dword b 6 0 64 != 0 || dword b 7 0 60 != 0 ||
    rec_ % 64 != 0 || !inOwn rec_ 64 ||
    grp % 2 != 0 || size == 0 || decide (65536 < size) || decide (size ≤ rank) ||
    (match here with | .spad k => k != n | .spread => viewClash d grp hi | .dieLocal _ => viewClash d grp hi | _ => true) ||
    listGet (readGroup m (grp + 2 * rank) 1) 0 0 != ownNode d ||
    ((kind == 5 || kind == 6 || kind == 7) && decide (size ≤ dword b 2 32 16)) ||
    ((kind == 5 || kind == 6 || kind == 7) != (dword b 2 48 4 != 0)) ||
    (coded && (dword b 4 42 20 == 0 || scales % 4 != 0 || !inOwn scales (4 * chans))) ||
    (kind == 4 && dword b 2 16 16 != (epochNow d + 1) % 2 ^ 16)

/-- Parts of COUNT elements that a collective needs of its DD and its DS (R121, R361). -/
def colParts (kind size : Nat) : Nat × Nat :=
  (if kind = 1 ∨ kind = 3 then size else 1, if kind = 2 ∨ kind = 3 then size else 1)

/-- Whether a slot is pinned to a peer (R320). -/
def pinnedTo (d : Dev) (c peer : Nat) : Bool :=
  decide (c < regField d 0x1100008 0 11) && natBit (regNat d (0x1101000 + 4 * c)) 16 &&
    regField d (0x1101000 + 4 * c) 0 16 == peer

/-- The conditions of a COL instruction (R119 to R122, R134, R343, R347, R355, R367). A CRSC of COUNT 0 names no bucket (R121;
assumption log 140, DEDUCED). -/
def colConds (d : Dev) (m : Mem) (n kind : Nat) (f : BitVec 4) (o : BitVec 112) (v : ColFields) : List Cond :=
  let msg := kind == 8 || kind == 9
  let u := colUses kind v.block
  let size := if msg then 1 else dword v.block 1 42 17
  let dd := tdesc (ownSlot d) v.dd
  let ds := tdesc (ownSlot d) v.ds
  let parts := colParts kind size
  let used := [(0, 6), (7, 1)] ++ (if msg then [(44, 12), (28, 16)] else [(104, 8)]) ++ (if kind = 7 then [] else [(56, 32)]) ++
    (if kind = 7 ∨ kind = 8 then [] else [(96, 8)]) ++ (if kind = 1 ∨ kind = 7 ∨ kind = 9 then [] else [(88, 8)])
  let fmts := if kind = 6 then [0, 1] else if kind = 2 then [0, 1, 2, 3] else allFmts
  let red := kind == 6
  (0x0303, f.toNat / 2 != 0 || (f.toNat == 1 && !red) || !onlyFields o used) ::
    (0x030C, !msg && dkind v.block != 2) ::
    (0x030A, u.1 && u.2 && kind != 2 && ds.fmt != dd.fmt) ::
    (0x0B24, (u.1 && decide (elemCount dd < parts.1 * v.count)) || (u.2 && decide (elemCount ds < parts.2 * v.count)) ||
      (red && (decide (elemCount (tdesc (ownSlot d) v.si) < v.count) || decide (elemCount (tdesc (ownSlot d) v.di) < v.count)))) ::
    (0x030B, kind == 2 && v.count != 0 && (crscShard d dd v.count).isNone) ::
    (0x0B21, if msg then !pinnedTo d v.slot v.peer else blockBad d m n kind v) ::
    (0x0B22, kind == 4 && decide (size ≤ dword v.block 2 32 16)) ::
    ((if u.1 then descConds d n v.dd (colDest kind) (if kind = 2 then [0] else fmts) else []) ++
     (if u.2 then descConds d n v.ds colSource fmts else []) ++
     (if red then descConds d n v.si colSource [4] ++ descConds d n v.di (colDest 6) [4] else []))

/-- The collective an instruction makes. -/
def newColl (d : Dev) (n c op kind : Nat) (f : BitVec 4) (v : ColFields) : Coll :=
  let b := v.block
  let msg := kind == 8 || kind == 9
  let u := colUses kind b
  { collReset with
    num := d.ni.nextColl, core := n, ctx := c, op := op, kind := kind
    id := if msg then 0 else dword b 0 48 16
    epoch := if msg then epochNow d else dword b 2 16 16
    group := if msg then [ownNode d, v.peer] else []
    size := if msg then 2 else dword b 1 42 17
    rank := if msg then 0 else dword b 2 0 16
    root := if msg then 0 else dword b 2 32 16
    fan := dword b 2 48 4, count := v.count
    fmt := if u.2 then (tdesc (ownSlot d) v.ds).fmt else (tdesc (ownSlot d) v.dd).fmt
    min := f.toNat % 2 == 1, block := if msg then 0#512 else b, dd := v.dd, ds := v.ds, di := v.di, si := v.si, peer := v.peer
    shard := if kind = 2 then (crscShard d (tdesc (ownSlot d) v.dd) v.count).getD 0 else 0
    step := d.upd.round, issuedAt := d.boot.aonNs }

/-- Granules of `len` bytes at device-local address `a` that lie in core `n`'s own scratchpad. -/
def rangeGranules (d : Dev) (n a len : Nat) : List Nat :=
  if len ≠ 0 ∧ spanRegion d.boot.part a ((a : Int) + (len : Int) - 1) = .spad n then
    granulesOf (a - spadBase n) (a - spadBase n + len - 1)
  else []

/-- Granules that a COL instruction reads: its sources, the member list and the scales (R78; assumption log 82, DEDUCED). -/
def colSrcs (d : Dev) (n kind : Nat) (v : ColFields) : List Nat :=
  let gr := fun (use : Bool) (r : BitVec 512) => if use then descGranules d n (tdesc (ownSlot d) r) else []
  let ds := tdesc (ownSlot d) v.ds
  let b := v.block
  gr (colUses kind b).2 v.ds ++ gr (kind == 6) v.si ++
    (if isMessage kind then [] else rangeGranules d n (dword b 1 0 42) (2 * dword b 1 42 17)) ++
    (if kind = 2 ∧ (ds.fmt = 2 ∨ ds.fmt = 3) then
      rangeGranules d n (dword b 4 0 42) (4 * ((elemCount ds + dword b 4 42 20 - 1) / max 1 (dword b 4 42 20))) else [])

/-- Granules that a COL instruction writes: its destinations and its completion record. -/
def colDsts (d : Dev) (n kind : Nat) (v : ColFields) : List Nat :=
  let gr := fun (use : Bool) (r : BitVec 512) => if use then descGranules d n (tdesc (ownSlot d) r) else []
  gr (colUses kind v.block).1 v.dd ++ gr (kind == 6) v.di ++
    (if isMessage kind then [] else rangeGranules d n (dword v.block 0 0 42) 64)

/-- A COL instruction: it faults, waits, or becomes a collective that starts now or in its turn (R119, R344, R350). -/
def colIssue (s : State) (n kind : Nat) (f : BitVec 4) (o : BitVec 112) : Dev × List MemOp :=
  let w := mkWord 5 kind f o
  issue s.dev n w (fun d c x =>
    let k := coreOf d n
    let v := colFields k o
    let srcs := colSrcs d n kind v
    let dsts := colDsts d n kind v
    guarded (colConds d s.mem n kind f o v)
      (whenReady (longReady k srcs dsts)
        (let cl := newColl d n c k.nextOp kind f v
         let d1 := pushOp d n { newOp k c x.pc w srcs dsts with awaiting := 1, dd := v.dd, ds := v.ds }
         let waiting := d1.ni.colls.any (fun e => e.phase == 0 && decide (e.kind < 16))
         let start := !waiting && collMayStart d1 cl
         let d2 := { d1 with ni := { d1.ni with colls := d1.ni.colls ++ [cl], nextColl := d1.ni.nextColl + 1 } }
         let d3 := if kind = 4 then regPutField d2 0x110000C 16 1 1 else d2
         let q := if start then collBegin ⟨d3, s.mem, []⟩ cl else ⟨d3, s.mem, []⟩
         .next q.dev q.ops)))

/-- CGATH gathers the named version of a tensor's shards (R348). -/
def execCgath (core : Nat) (f : BitVec 4) (o : BitVec 112) (s : State) : Host.Outcome State Fault Refusal :=
  finish s (colIssue s core 1 f o)

/-- CRSC sends each part of a gradient to its owner's buckets (R349, R367). -/
def execCrsc (core : Nat) (f : BitVec 4) (o : BitVec 112) (s : State) : Host.Outcome State Fault Refusal :=
  finish s (colIssue s core 2 f o)

/-- CA2A exchanges part j of each member's source with member j (R342). -/
def execCa2a (core : Nat) (f : BitVec 4) (o : BitVec 112) (s : State) : Host.Outcome State Fault Refusal :=
  finish s (colIssue s core 3 f o)

/-- CPERM re-shards under a new layout epoch (R350, R351). -/
def execCperm (core : Nat) (f : BitVec 4) (o : BitVec 112) (s : State) : Host.Outcome State Fault Refusal :=
  finish s (colIssue s core 4 f o)

/-- CMCST multicasts from the root down a tree (R352). -/
def execCmcst (core : Nat) (f : BitVec 4) (o : BitVec 112) (s : State) : Host.Outcome State Fault Refusal :=
  finish s (colIssue s core 5 f o)

/-- CRED reduces pairs up a tree and returns the winners (R355). -/
def execCred (core : Nat) (f : BitVec 4) (o : BitVec 112) (s : State) : Host.Outcome State Fault Refusal :=
  finish s (colIssue s core 6 f o)

/-- CBAR waits for every member (R356). -/
def execCbar (core : Nat) (f : BitVec 4) (o : BitVec 112) (s : State) : Host.Outcome State Fault Refusal :=
  finish s (colIssue s core 7 f o)

/-- CSEND sends a message on a pinned stream (R357). -/
def execCsend (core : Nat) (f : BitVec 4) (o : BitVec 112) (s : State) : Host.Outcome State Fault Refusal :=
  finish s (colIssue s core 8 f o)

/-- CRECV binds a binding of a pinned stream to one message (R357). -/
def execCrecv (core : Nat) (f : BitVec 4) (o : BitVec 112) (s : State) : Host.Outcome State Fault Refusal :=
  finish s (colIssue s core 9 f o)

/-- A queued collective starts once a place is free, in issue order (R344). -/
def execCollectiveDequeue (s : State) : Host.Outcome State Fault Refusal := finish s (wOut (collNext (workOf s)))

/-! ### Ending -/

/-- The 64 bytes of a completion record (R345, R346). -/
def collRecord (d : Dev) (c : Coll) : List Byte :=
  let out := c.pruned.foldl keyInsert c.bad
  let n := max out.length c.prunedCount
  let order := (rangeFrom 0 c.size).filterMap (fun o =>
    let r := (c.rank + o) % max 1 c.size
    if out.contains r then some r else none)
  let elems := if c.kind = 5 ∧ isRoot c then (c.size - 1 - n) * c.count else c.elements
  leBytes 1 c.status ++ leBytes 1 c.kind ++ leBytes 2 c.id ++ leBytes 2 c.epoch ++ leBytes 2 0 ++ leBytes 8 elems ++
    leBytes 4 n ++ leBytes 4 (dword c.block 3 0 32) ++ padTo 16 ((order.take 8).flatMap (fun r => leBytes 2 (rankNode c r))) ++
    leBytes 8 (gtimeNs d) ++ leBytes 4 c.retrans ++ leBytes 12 0

/-- The elements of the destination that a collective leaves unpredictable, as the first and how many (R347, R357). -/
def lostParts (c : Coll) : List (Nat × Nat) :=
  if c.status = 0 then []
  else if c.kind = 1 ∨ c.kind = 3 then c.lost.map (fun r => (r * c.count, c.count))
  else if (c.kind = 5 ∧ isRoot c) ∨ c.kind = 2 ∨ c.kind = 7 ∨ c.kind = 8 then []
  else if c.lost ≠ [] then [(0, c.count)]
  else if c.kind = 9 ∧ c.elements < c.count then [(c.elements, c.count - c.elements)]
  else []

/-- Elements of a tensor that take free values. -/
def putFree (t : TDesc) (w : Work) (q : Nat × Nat) : Work :=
  let salt := w.dev.free
  let bits := if t.fmt = 3 then 4 else 8 * elemSize t.fmt
  putElems (wDev w (fun d => { d with free := d.free + q.2 })) t q.1
    ((rangeFrom 0 q.2).map (fun i => ((Config.freeWord (salt + i)).toNat % 2 ^ bits, false)))

/-- The parts of DD, and of a CRED's DID, that no one supplied take free values (R347). -/
def freeLost (w : Work) (c : Coll) : Work :=
  let w1 := (lostParts c).foldl (putFree (tdesc (ownSlot w.dev) c.dd)) w
  if c.kind = 6 then (lostParts c).foldl (putFree (tdesc (ownSlot w.dev) c.di)) w1 else w1

/-- What a completed CA2A means for the sparse shards that name it (R386). -/
def sparseLanded (d : Dev) (c : Coll) : Dev :=
  if c.kind = 3 ∧ c.status = 0 then
    (d.upd.shards.map (fun e => e.1)).foldl (fun e t => modShard e t (fun x =>
      if shKind x = 3 then
        let a := if shN x 184 2 = c.id then natPut x.landed 0 1 1 else x.landed
        { x with landed := if shN x 186 2 = c.id then natPut (natPut a 1 1 1) 4 4 c.fmt else a }
      else x)) d
  else d

/-- Whether a CPERM still waits for its epoch to become current (R350). -/
def permHeld (d : Dev) (c : Coll) : Bool :=
  c.kind == 4 && c.status == 0 && draining d && c.epoch == (epochNow d + 1) % 2 ^ 16

/-- The bindings a failed collective has no more use for: the tokens it holds go back, and what it has granted is closed
(R329, R358). -/
def collRelease (d : Dev) (n : Nat) : Dev :=
  match collFind d n with
  | none => d
  | some c =>
    if c.status = 0 then d
    else d.ni.streams.foldl (fun e st => (rangeFrom 0 16).foldl (fun f b =>
      let x := rxOf f st.1 b
      let t := txOf f st.1 b
      let f1 := if x.coll = some n ∧ rxOut x ≠ 0 ∧ !(rxWants c).contains x.rank then closeRx f st.1 b else f
      if t.use = 1 ∧ t.coll = n ∧ !(txWants c).contains t.rank then txStop f1 st.1 b else f1) e) d

/-- A collective that has nothing left to wait for frees what it leaves unpredictable, writes its record and completes; a status other than OK votes against
the commit of its step (R77, R345, R390, R391). -/
def execCollectiveComplete (num : Nat) (s : State) : Host.Outcome State Fault Refusal :=
  finish s
    (match collFind s.dev num with
     | none => (s.dev, [])
     | some c =>
       if c.phase = 1 ∧ c.kind < 16 ∧ collDone c ∧ !permHeld s.dev c then
         let w0 := freeLost (workOf s) c
         let w1 := if c.kind = 8 ∨ c.kind = 9 then w0
           else wMem w0 (writeAt w0.dev w0.mem (dword c.block 0 0 42) (collRecord w0.dev c)).1
         let w2 := wDev w1 (fun d => sparseLanded (collRelease (modColl d num (fun c => { c with phase := 2 })) num) c)
         let w3 := if c.status != 0 && c.step == w2.dev.upd.round && commitState w2.dev == 0 then
             wDev w2 (fun d => addCode d 2) else w2
         let w4 := match (coreOf w3.dev c.core).ops.find? (fun o => o.id == c.op) with
           | some o => wDev w3 (fun d => completeOp d c.core o)
           | none => w3
         wOut (niSettle w4)
       else (s.dev, []))

/-- A collective stops: its granted bindings close and its held tokens return (R358). -/
def collStop (d : Dev) (n : Nat) : Dev :=
  d.ni.streams.foldl (fun e st => (rangeFrom 0 16).foldl (fun f b =>
    let f1 := if (rxOf f st.1 b).coll = some n then closeRx f st.1 b else f
    if (txOf f1 st.1 b).use = 1 ∧ (txOf f1 st.1 b).coll = n then txStop f1 st.1 b else f1) e) d

/-- TIMEOUT_US expires: the collective stops, and what is still missing fails with TIMEOUT (R358). -/
def execCollectiveTimeout (num : Nat) (s : State) : Host.Outcome State Fault Refusal :=
  finishDev s
    (match collFind s.dev num with
     | none => s.dev
     | some c =>
       if c.phase ≤ 1 ∧ c.kind < 16 ∧ dword c.block 5 32 32 ≠ 0 ∧ aonPassed s.dev c.issuedAt (1000 * dword c.block 5 32 32) ∧
           (!collDone c ∨ permHeld s.dev c) then
         let c1 := if c.phase = 0 then { c with phase := 1, group := readGroup s.mem (dword c.block 1 0 42) c.size, parent := c.size } else c
         modColl (failRanks (collStop (modColl s.dev num (fun _ => c1)) num) num 5 (ranksMissing c1)) num
           (fun c => { c with halted := true, status := max c.status 5 })
       else s.dev)

/-- The layout epoch advances when the collectives of the older epoch have ended and nothing of it is left in the buckets or
on its way to them (R350). -/
def execEpochAdvance (s : State) : Host.Outcome State Fault Refusal :=
  let d := s.dev
  let clean := (allSlots d).all (fun q => bktState d q == 0 || (bktState d q == 1 && bktGet d q 16 24 == 0)) &&
    commitState d == 0 && d.ni.colls.all (fun c => (c.kind != 2 || c.phase == 2 && (allRanks c).all (fun r => c.got.contains r)) &&
      (c.phase == 2 || isMessage c.kind || decide (16 ≤ c.kind) || !epochOld d c.epoch))
  finish s
    (if draining d && clean then
      wOut (niSettle (wDev (workOf s) (fun d => regPutField d 0x110000C 0 17 ((epochNow d + 1) % 2 ^ 16))))
     else (d, []))

end Sys2Proof.Machine
end

