-- ==== Sys2Proof/Machine/ColEvents.lean ====
section
/-! DEFINITION. Stream packets as they arrive, grants and notices, re-sending, and the swap window (R321 to R334, R348 to
R360). -/

namespace Sys2Proof.Machine

/-! ### Data under tokens -/

/-- A packet whose DCTX names no resident stream, or another peer's, is discarded (R323). -/
def onStream (w : Work) (p : Packet) (go : Work → Work) : Work :=
  if slotPeer w.dev p.dctx = some p.src then go (wDev w (fun d => touchStream d p.src)) else wDev w (fun d => regBump d 0x1100020 1)

/-- A packet outside what was granted: counted, and its stream flagged (R332, R334). -/
def offsetBad (w : Work) (p : Packet) (rec_ : Bool) : Work :=
  wDev w (fun d =>
    let d1 := regBump d 0x1100028 1
    flagStream (if rec_ then postRecord d1 (packetRec 0x0B54 2 63 p) else d1) p.src)

/-- The token of a SEQ is consumed (R328, R332). -/
def consume (d : Dev) (peer b seq : Nat) : Dev :=
  modRx d peer b (fun x =>
    let all := seq :: x.seen
    let run := ((rangeFrom 0 all.length).takeWhile (fun i => all.contains (seqAdd x.low i))).length
    { x with low := seqAdd x.low run
             seen := all.filter (fun q => !((rangeFrom 0 run).any (fun i => seqAdd x.low i == q)))
             unacked := x.unacked + 1, lastAt := d.boot.aonNs })

/-- Whether a tensor part takes a packet: its first element and its elements (R325, R332). -/
def landingAt (fmt count off len : Nat) : Option (Nat × Nat) :=
  let start := off / 256 * perPacket fmt
  let n := elemsIn fmt len (count - start)
  let bytes := if fmt = 3 then (n + 1) / 2 else n * elemSize fmt
  if off % 256 = 0 ∧ start < count ∧ 0 < n ∧ len = bytes then some (start, n) else none

/-- Elements of a part written where it lands; a poisoned packet poisons them, and the collective says so (R360). -/
def landElems (w : Work) (c : Coll) (r first start n : Nat) (p : Packet) : Work :=
  let bad := decide (128 ≤ p.sub)
  let w1 := putElems w (tdesc (ownSlot w.dev) c.dd) (first + start)
    ((rangeFrom 0 n).map (fun i => (unpackElem c.fmt p.payload i, bad)))
  if bad then wDev w1 (fun d => markRank d c.num r 6) else w1

/-- Elements counted for a binding. -/
def rxGot (d : Dev) (peer b n : Nat) : Dev := modRx d peer b (fun x => { x with got := x.got + n })

/-- A rank's part is here. -/
def partHere (d : Dev) (n r : Nat) : Dev := modColl d n (fun c => { c with got := keyInsert c.got r })

/-- A LANDING or DATA packet of a tensor part (R348, R352, R357). -/
def takeLanding (w : Work) (c : Coll) (peer b r off : Nat) (p : Packet) : Option Work :=
  match landingAt c.fmt c.count off p.len with
  | none => none
  | some (start, n) =>
    let first := if c.kind = 1 ∨ c.kind = 3 then r * c.count else 0
    let fresh := c.kind != 5 || !c.landed.contains (off / 256)
    let w1 := landElems w c r first start n p
    let w2 := wDev w1 (fun d => modColl (rxGot d peer b n) c.num (fun c => { c with
      elements := c.elements + (if fresh then n else 0)
      landed := if c.kind = 5 then keyInsert c.landed (off / 256) else c.landed }))
    let w3 := if c.kind = 9 ∧ start + n = c.count ∧ !p.last then wDev w2 (fun d => markRank d c.num r 9) else w2
    some (if c.kind = 5 then
        wDev w3 (fun d => modColl d c.num (fun c =>
          if decide (packetsFor c.fmt c.count ≤ c.landed.length) && (rxOf d peer b).got == c.count then
            { c with got := keyInsert c.got c.rank } else c))
      else if (rxOf w3.dev peer b).got = c.count then
        wDev w3 (fun d =>
          let d1 := partHere d c.num r
          if c.kind = 1 then modStream d1 peer (fun x => { x with asked := x.asked - 1 }) else d1)
      else w3)

/-- Buckets of a shard that elements `lo` to `lo + n - 1` touch, with how many of them. -/
def bucketParts (x : Shard) (lo n : Nat) : List (Nat × Nat) :=
  (rangeFrom 0 (shBuckets x)).filterMap (fun b =>
    let k := min (lo + n) (8192 * (b + 1)) - max lo (8192 * b)
    if lo < 8192 * (b + 1) ∧ 8192 * b < lo + n ∧ 0 < k then some (b, k) else none)

/-- A contribution's elements counted per bucket; a bucket it has completed counts it (R364). -/
def shareCount (w : Work) (x : Shard) (peer b : Nat) (parts : List (Nat × Nat)) : Work :=
  parts.foldl (fun w q =>
    let w1 := wDev w (fun d => modRx d peer b (fun r => { r with buckets := smapMod r.buckets q.1 0 (fun v => v + q.2) }))
    if smapGet (rxOf w1.dev peer b).buckets q.1 0 = bktElems x q.1 then bktArrive w1 (shFirst x + q.1) else w1) w

/-- A SHARE packet: decoded and added to its buckets, or, with POISON, tainting them (R349, R360, R364 to R370). The
format and CHAN_LEN are those of this member's own CRSC (assumption log 26, DESIGN CHOICE). -/
def takeShare (w : Work) (c : Coll) (peer b r off : Nat) (p : Packet) : Option Work :=
  match shardOf w.dev c.shard with
  | none => none
  | some x =>
    let fmt := (tdesc (ownSlot w.dev) c.ds).fmt
    let start := off / 4
    let coded := fmt == 2 || fmt == 3
    let room := shareSize fmt (chanLen c) (c.rank * c.count) c.count start
    let n := elemsIn fmt (p.len - (if coded then 4 else 0)) room
    let bytes := (if coded then 4 else 0) + (if fmt = 3 then (n + 1) / 2 else n * elemSize fmt)
    if off % 4 != 0 || decide (c.count ≤ start) || n == 0 || p.len != bytes then none
    else
      let parts := bucketParts x start n
      let w1 := if 128 ≤ p.sub then
          parts.foldl (fun w q => bktTaint w (shFirst x + q.1)) (wDev w (fun d => markRank d c.num r 6))
        else bktAddAll w x start (shareValues w.dev fmt (shN x 20 1) n p.payload)
      let w2 := shareCount (wDev w1 (fun d => rxGot d peer b n)) x peer b parts
      some (if (rxOf w2.dev peer b).got = c.count then wDev w2 (fun d => partHere d c.num r) else w2)

/-- Where an exchange's vectors land in XBUF: this device's own, then its children's in tree order (R384; assumption log
27, DEDUCED). -/
def xbufAt (x : Shard) (c : Coll) (r : Nat) : Nat :=
  let k := if c.kids.contains r then (treeOff c r - 1) % max 1 c.fan + 1 else 0
  shN x 176 8 + 4 * (k * c.count)

/-- A packet of a tree vector: pairs of a CRED or a vote, or the values of an exchange (R355, R384, R391). -/
def takeVector (w : Work) (c : Coll) (peer b r off : Nat) (p : Packet) : Option Work :=
  let per := treePer c
  let i := off / 256
  let n := min per (c.count - i * per)
  let size := if c.kind = 17 then 4 else elemSize c.fmt + 4
  if off % 256 != 0 || decide (c.count ≤ i * per) || p.len != n * size then none
  else
    let ps := if c.kind = 17 then (rangeFrom 0 n).map (fun k => ⟨BitVec.ofNat 32 (unpackElem 0 p.payload k), 0, r, decide (128 ≤ p.sub)⟩)
      else unpackPairs c.fmt n r (decide (128 ≤ p.sub)) p.payload
    let w1 := wDev w (fun d => modColl (rxGot d peer b n) c.num (fun c => { c with partials := smapSet c.partials (partKey r i) ps }))
    let w2 := if 128 ≤ p.sub then wDev w1 (fun d => markRank d c.num r 6) else w1
    let w3 := match c.kind == 17, shardOf w2.dev c.shard with
      | true, some x => wMem w2 (storeCells w2.dev w2.mem ((p.payload.take p.len).zipIdx.map (fun b =>
          (memKey (xbufAt x c r + 256 * i + b.2), b.1, decide (128 ≤ p.sub))))).1
      | _, _ => w2
    if (rxOf w3.dev peer b).got = c.count then
      if c.kids.contains r then some (wDev w3 (fun d => modColl d c.num (fun c => { c with kidsDone := keyInsert c.kidsDone r })))
      else
        match collFind w3.dev c.num with
        | some c1 => some (takeResult w3 c1 (rankVector c1 r))
        | none => some w3
    else some w3

/-- A child of a multicast reports its subtree (R353, R354). -/
def takeSubtree (w : Work) (c : Coll) (r : Nat) (p : Packet) : Option Work :=
  if !c.kids.contains r || p.len < 4 || decide (20 < p.len) || p.len % 2 != 0 then none
  else
    let n := payNat p 0 4
    let nodes := (rangeFrom 0 ((p.len - 4) / 2)).map (fun i => payNat p (4 + 2 * i) 2)
    some (wDev w (fun d => modColl d c.num (fun c => { c with
      kidsDone := keyInsert c.kidsDone r
      prunedCount := c.prunedCount + n
      pruned := (nodes.filterMap (nodeRank c)).foldl keyInsert c.pruned
      bad := (nodes.filterMap (nodeRank c)).foldl keyInsert c.bad
      status := if n = 0 then c.status else max c.status 1 })))

/-- What a packet does to the collective that holds its binding; `none` where it is not one of the part's packets. -/
def takePart (w : Work) (c : Coll) (peer b r off : Nat) (p : Packet) : Option Work :=
  let sub := subOf p
  if p.typ = 1 then (if c.kind = 9 then takeLanding w c peer b r off p else none)
  else if sub = 0 then
    (if c.kind = 17 then takeVector w c peer b r off p
     else if c.kind = 1 || c.kind = 3 || c.kind = 4 || (c.kind == 5 && !c.kids.contains r) then takeLanding w c peer b r off p
     else none)
  else if sub = 1 then (if c.kind = 2 then takeShare w c peer b r off p else none)
  else if sub = 5 then
    (if (c.kind = 6 ∨ c.kind = 16) ∧ c.kids.contains r then takeVector w c peer b r off p else none)
  else if sub = 6 then
    (if (c.kind = 6 ∨ c.kind = 16) ∧ !c.kids.contains r then takeVector w c peer b r off p else none)
  else if sub = 7 then
    (if c.kind = 7 ∧ c.kids.contains r then
      some (wDev w (fun d => modColl d c.num (fun c => { c with kidsDone := keyInsert c.kidsDone r }))) else none)
  else if sub = 8 then
    (if c.kind = 7 ∧ !c.kids.contains r then some (wDev w (fun d => modColl d c.num (fun c => { c with released := true })))
     else none)
  else if sub = 9 then (if c.kind = 5 then takeSubtree w c r p else none)
  else none

/-- A message whose surplus has been returned is whole once every SEQ left is consumed (R330, R357). -/
def messageEnd (d : Dev) (peer b : Nat) : Dev :=
  let x := rxOf d peer b
  match x.coll with
  | some n =>
    if x.returned && x.low == x.limit && ((collFind d n).map (fun (c : Coll) => c.kind == 9)).getD false then partHere d n x.rank
    else d
  | none => d

/-- A packet under a token (R328, R332): stale, a duplicate, beyond what was granted, outside its part, or written and
its token consumed. -/
def streamData (w : Work) (p : Packet) : Work :=
  onStream w p (fun w =>
    let b := p.offset / 2 ^ 38 % 16
    let off := p.offset % 2 ^ 38
    let x := rxOf w.dev p.src b
    if x.closed then wDev w (fun d => regBump d 0x1100020 1)
    else if seqNewer p.seq x.low || x.seen.contains p.seq then
      wDev w (fun d => sendGrant (regBump d 0x1100024 1) p.src [b])
    else if seqDist x.low x.limit ≤ seqDist x.low p.seq then offsetBad w p false
    else
      let did := match x.coll with
        | none => some w
        | some n => (match collFind w.dev n with
          | none => some w
          | some c => if (rxWants c).contains x.rank then takePart w c p.src b x.rank off p else some w)
      match did with
      | none => offsetBad w p true
      | some w1 =>
        let w2 := wDev w1 (fun d => messageEnd (consume d p.src b p.seq) p.src b)
        niSettle (if 32 ≤ (rxOf w2.dev p.src b).unacked then wDev w2 (fun d => sendGrant (rxRaise d p.src b) p.src [b]) else w2))

/-- One packet row of the data under tokens. -/
def dataRow (p : Packet) (typ sub : Nat) (s : State) : Host.Outcome State Fault Refusal :=
  finish s (onPacket s.dev p typ sub (fun d => wOut (streamData ⟨d, s.mem, []⟩ p)))

/-- A CSEND's packet (R332, R357). -/
def execData (p : Packet) (s : State) : Host.Outcome State Fault Refusal := dataRow p 1 0 s
/-- Elements of a collective's landing part (R332, R347). -/
def execLanding (p : Packet) (s : State) : Host.Outcome State Fault Refusal := dataRow p 2 0 s
/-- A CRSC contribution (R349, R364). -/
def execShare (p : Packet) (s : State) : Host.Outcome State Fault Refusal := dataRow p 2 1 s
/-- CRED pairs from a subtree (R355). -/
def execPartialUp (p : Packet) (s : State) : Host.Outcome State Fault Refusal := dataRow p 2 5 s
/-- CRED result pairs (R355). -/
def execResultDown (p : Packet) (s : State) : Host.Outcome State Fault Refusal := dataRow p 2 6 s
/-- A barrier's arrival from below (R356). -/
def execBarArrive (p : Packet) (s : State) : Host.Outcome State Fault Refusal := dataRow p 2 7 s
/-- A barrier's release from above (R356). -/
def execBarRelease (p : Packet) (s : State) : Host.Outcome State Fault Refusal := dataRow p 2 8 s
/-- A child's subtree is done (R353, R354). -/
def execSubtreeDone (p : Packet) (s : State) : Host.Outcome State Fault Refusal := dataRow p 2 9 s

/-! ### Requests -/

/-- A packet put back until the collective it names has started here. -/
def keepPacket (w : Work) (p : Packet) : Work := wDev w (fun d => { d with ni := { d.ni with ejected := d.ni.ejected ++ [p] } })

/-- An owner serves, holds or refuses a gather request (R348, R350). -/
def execGatherReq (p : Packet) (s : State) : Host.Outcome State Fault Refusal :=
  finish s (onPacket s.dev p 2 2 (fun d =>
    wOut (onStream ⟨d, s.mem, []⟩ p (fun w =>
      let q : GatherReq := ⟨p.src, p.seq % 2 ^ 16, payNat p 0 2, payNat p 2 4, payNat p 6 4, payNat p 10 1, payNat p 11 1 % 16⟩
      if epochOld w.dev p.epoch then wDev w (fun d => sendNotice d p.src 2 q.coll)
      else if 4 ≤ (streamOf w.dev p.src).reqs.length ∨ (streamOf w.dev p.src).reqs.contains q ∨
          (streamOf w.dev p.src).tx.any (fun e => e.2.use == 2 && e.2.req == some q) then w
      else
        match gatherJudge w.dev q.tensor q.version q.count q.fmt with
        | .gone => wDev w (fun d => sendNotice d p.src 1 q.coll)
        | .mismatch => wDev w (fun d => sendNotice d p.src 4 q.coll)
        | _ => niSettle (wDev w (fun d => modStream d p.src (fun x => { x with reqs := x.reqs ++ [q] })))))))

/-- Whether the CPERM an offer speaks of has ended here: its epoch is current, and no CPERM of the name waits or runs. -/
def permOver (d : Dev) (p : Packet) : Bool :=
  p.epoch == epochNow d && !draining d &&
    !d.ni.colls.any (fun c => c.kind == 4 && decide (c.phase ≤ 1) && c.id == p.seq % 2 ^ 16 && c.epoch == p.epoch)

/-- A CPERM destination binds the first offer it accepts and refuses later ones, also once it has ended; an offer that comes
early waits (R350, R351). -/
def execPermOffer (p : Packet) (s : State) : Host.Outcome State Fault Refusal :=
  finish s (onPacket s.dev p 2 3 (fun d =>
    wOut (onStream ⟨d, s.mem, []⟩ p (fun w =>
      if epochOld w.dev p.epoch then wDev w (fun d => sendNotice d p.src 2 (p.seq % 2 ^ 16))
      else if permOver w.dev p then wDev w (fun d => sendNotice d p.src 3 (p.seq % 2 ^ 16))
      else niSettle (keepPacket w p)))))

/-- A multicast node takes a new parent: its binding to the old one closes, and it waits for the whole message from the
new one (R353). -/
def adoptBy (d : Dev) (c : Coll) (r : Nat) : Dev :=
  let old := rankNode c c.parent
  let d1 := (rangeFrom 0 16).foldl (fun e b =>
    let x := rxOf e old b
    if x.coll = some c.num ∧ x.rank = c.parent then modRx (writeOff e old b) old b (fun x => { x with coll := none, closed := true }) else e) d
  let d2 := (rangeFrom 0 16).foldl (fun e b =>
    let t := txOf e old b
    if t.use = 1 ∧ t.coll = c.num ∧ t.rank = c.parent then
      modTx e old b (fun t => { t with use := 0, open_ := false, next := t.limit, ack := t.limit, retries := [], times := [] }) else e) d1
  modColl d2 c.num (fun c => { c with parent := r, got := c.got.filter (fun q => q != c.rank), sent := c.sent.filter (fun q => q != r) })

/-- An adopted multicast node binds to its adopter (R353). -/
def execAdopt (p : Packet) (s : State) : Host.Outcome State Fault Refusal :=
  finish s (onPacket s.dev p 2 4 (fun d =>
    wOut (onStream ⟨d, s.mem, []⟩ p (fun w =>
      match w.dev.ni.colls.find? (fun c => c.kind == 5 && c.phase != 0 && c.id == p.seq && c.epoch == p.epoch) with
      | some c =>
        let r := payNat p 2 2
        if r < c.size ∧ rankNode c r = p.src ∧ r ≠ c.parent ∧ !isRoot c ∧ c.root = payNat p 0 2 then
          niSettle (wDev w (fun d => adoptBy d c r))
        else w
      | none => if epochOld w.dev p.epoch then w else keepPacket w p))))

/-! ### Grants and notices -/

/-- CLOSED taken by the sender: it stops using the binding, and the collective that uses it, or has sent all it had to send
under it, ends with TIMEOUT (R358). An entry older than what the sender holds, or that names another collective than the
binding's, changes nothing (R326; assumption log 144, DEDUCED). -/
def grantClosed (w : Work) (peer b coll epoch lim ack : Nat) : Work :=
  let t := txOf w.dev peer b
  if seqNewer lim t.limit || seqNewer ack t.ack then w
  else
    let d1 := modStream w.dev peer (fun x => { x with reqs := x.reqs.filter (fun q => !(q.bind == b && q.coll == coll)) })
    if t.gColl ≠ coll ∨ t.gEpoch ≠ epoch then { w with dev := d1 }
    else
      let d2 := modTx d1 peer b (fun t => { t with
        use := 0, req := none, open_ := false, next := lim, ack := lim, limit := lim, retries := [], times := [] })
      let served := ((collFind d2 t.coll).map (fun c => c.phase == 1 && c.id == coll && c.epoch == epoch)).getD false
      { w with dev := if t.use = 1 ∨ (t.use = 0 ∧ served) then failRank d2 t.coll t.rank 5 else d2 }

/-- One GRANT entry taken by the sender (R326, R340, R358). -/
def grantTake (w : Work) (peer : Nat) (e : List Byte) : Work :=
  let b := bytesNat e 0 1 % 16
  let flags := bytesNat e 1 1
  let lim := bytesNat e 8 4
  let ack := bytesNat e 12 4
  let count := bytesNat e 16 4
  let t := txOf w.dev peer b
  if natBit flags 2 then grantClosed w peer b (bytesNat e 2 2) (bytesNat e 4 2) lim ack
  else if !seqNewer t.limit lim && !seqNewer t.ack ack && !(natBit flags 0 && count == 0 && t.use == 0 && !t.open_) then w
  else
    let w1 := wDev w (fun d => modTx d peer b (fun t => if seqNewer t.ack ack then { t with ack := ack } else t))
    let w2 := txFinish w1 peer b
    let t2 := txOf w2.dev peer b
    if natBit flags 0 && t2.use == 0 then
      wDev w2 (fun d => modTx (modStream d peer (fun x => { x with arrivals := x.arrivals + 1 })) peer b (fun t => { t with
        open_ := true, order := (streamOf d peer).arrivals, gColl := bytesNat e 2 2, gEpoch := bytesNat e 4 2, gFmt := bytesNat e 6 1, gCount := count
        gShare := natBit flags 1, next := ack, ack := ack, limit := lim, retries := [], times := [] }))
    else if (t2.use != 0 || t2.open_) && seqNewer t2.limit lim then
      wDev w2 (fun d => modTx d peer b (fun t => { t with limit := lim }))
    else w2

/-- GRANT entries raise LIMIT and ACK, and open and close bindings (R326, R340). `errs`: what the reads of the parts now sent
meet (assumption log 38, DESIGN CHOICE). -/
def execGrant (m : Meets Packet) (s : State) : Host.Outcome State Fault Refusal :=
  let p := m.it
  finish s (onPacket s.dev p 6 0 (fun d =>
    wOut (onStream ⟨d, s.mem, []⟩ p (fun w =>
      niSettle ((rangeFrom 0 (min 10 (p.len / 24))).foldl (fun u i => grantTake u p.src ((p.payload.drop (24 * i)).take 24))
        (wErrs m.errs w))))))

/-- A sender returns tokens: LIMIT falls to the last SEQ it names plus 1, and a message's counts are compared
(R330, R357). -/
def execGrantReturn (p : Packet) (s : State) : Host.Outcome State Fault Refusal :=
  finish s (onPacket s.dev p 6 1 (fun d =>
    wOut (onStream ⟨d, s.mem, []⟩ p (fun w =>
      let b := payNat p 0 1 % 16
      let lim := seqAdd (payNat p 8 4) 1
      let x := rxOf w.dev p.src b
      if x.coll.isSome && decide (seqDist x.low lim ≤ seqDist x.low x.limit) &&
          x.seen.all (fun q => decide (seqDist x.low q < seqDist x.low lim)) then
        let d1 := modRx w.dev p.src b (fun x => { x with limit := lim, returned := true })
        let d2 := match x.coll.bind (collFind d1) with
          | some c =>
            if c.kind = 9 ∧ (c.count ≠ payNat p 16 4 ∨ c.fmt ≠ payNat p 6 1) then markRank d1 c.num x.rank 9 else d1
          | none => d1
        niSettle { w with dev := messageEnd d2 p.src b }
      else w))))

/-- The collective and rank a NOTICE of a peer speaks of. -/
def noticeOf (d : Dev) (p : Packet) : Option (Coll × Nat) :=
  match collById d (payNat p 0 2) with
  | some c => (nodeRank c p.src).map (fun r => (c, r))
  | none => none

/-- A refused part: its bindings close, and it fails with a status. Of a CPERM it is the part that goes out, to the member
of rank ROOT (R351). -/
def noticeFail (d : Dev) (c : Coll) (r code : Nat) : Dev :=
  let peer := rankNode c r
  if c.kind = 4 then
    (if r = c.root then modColl d c.num (fun c => { markColl c code [r] with sent := keyInsert c.sent r }) else d)
  else
  let d1 := (rangeFrom 0 16).foldl (fun e b =>
    let x := rxOf e peer b
    if x.coll = some c.num ∧ x.rank = r then closeRx e peer b else e) d
  failRank d1 c.num r code

/-- A NOTICE that ends one part of a collective of the kinds `ok` with a status. -/
def noticeRow (p : Packet) (sub code : Nat) (ok : Nat → Bool) (s : State) : Host.Outcome State Fault Refusal :=
  finish s (onPacket s.dev p 7 sub (fun d =>
    wOut (onStream ⟨d, s.mem, []⟩ p (fun w =>
      match noticeOf w.dev p with
      | some (c, r) => if ok c.kind then niSettle (wDev w (fun d => noticeFail d c r code)) else w
      | none => w))))

/-- The running multicast a PRUNE speaks of: the one of its COLL_ID, or, since a router cannot know COLL_ID, the first
that has a child at the node named (assumption log 32, DESIGN CHOICE). -/
def prunedColl (d : Dev) (id node : Nat) : Option (Coll × Nat) :=
  let cs := d.ni.colls.filterMap (fun c =>
    if c.phase = 1 ∧ c.kind = 5 then
      (nodeRank c node).bind (fun r => if c.kids.contains r then some (c, r) else none)
    else none)
  match cs.find? (fun e => e.1.id == id) with
  | some e => some e
  | none => cs.head?

/-- A multicast child has been pruned at the fence (R308, R353). -/
def execNoticePrune (p : Packet) (s : State) : Host.Outcome State Fault Refusal :=
  finish s (onPacket s.dev p 7 0 (fun d =>
    match prunedColl d (payNat p 0 2) (payNat p 2 2) with
    | some (c, r) => wOut (niSettle ⟨pruneKid d c.num r, s.mem, []⟩)
    | none => (d, [])))

/-- An owner has released the version a gather names (R348). -/
def execNoticeVersionGone (p : Packet) (s : State) : Host.Outcome State Fault Refusal := noticeRow p 1 3 (fun k => k == 1) s
/-- A peer refuses a collective of an older epoch (R350). -/
def execNoticeEpochStale (p : Packet) (s : State) : Host.Outcome State Fault Refusal :=
  noticeRow p 2 4 (fun k => k == 1 || k == 4) s
/-- A CPERM destination has bound another member's offer (R351). -/
def execNoticePermConflict (p : Packet) (s : State) : Host.Outcome State Fault Refusal := noticeRow p 3 10 (fun k => k == 4) s
/-- An owner's shard differs in format or count (R348). -/
def execNoticeFlagged (p : Packet) (s : State) : Host.Outcome State Fault Refusal := noticeRow p 4 12 (fun k => k == 1) s
/-- The peer has closed its binding (R358). -/
def execNoticeClosed (p : Packet) (s : State) : Host.Outcome State Fault Refusal := noticeRow p 5 5 (fun _ => true) s

/-! ### Time -/

/-- DETAIL of a stream record. -/
def streamDetail (d : Dev) (peer coll : Nat) : List Byte := netDetail (ownNode d) peer coll 63

/-- A stream fails after RETRY_LIMIT re-sendings (R333). -/
def peerLost (d : Dev) (peer coll : Nat) : Dev := streamFail (postRecord d (recOf 0x0B53 0 0xFF (streamDetail d peer coll))) peer 7

/-- A re-sending counted, for the collective it belongs to as well (R331). -/
def resendCount (d : Dev) (n : Option Nat) : Dev :=
  let d1 := dayBump (regBump d 0x110002C 1) 10 1
  match n with
  | some n => modColl d1 n (fun c => { c with retrans := c.retrans + 1 })
  | none => d1

/-- The record of a re-sending (R331). -/
def resendRec (d : Dev) (peer coll : Nat) : Dev := postRecord d (recPort 0x0B52 0 0xFF (65536 + peer) (streamDetail d peer coll))

/-- Whether collective `c` waits under a binding for an answer to the packet that announced it: a gather's request, an
adoption, or a CPERM's offer. -/
def unanswered (d : Dev) (c : Coll) (peer b : Nat) : Bool :=
  let x := rxOf d peer b
  let sends := (streamOf d peer).tx.any (fun e => e.2.use == 1 && e.2.coll == c.num)
  c.phase == 1 &&
    (if c.kind = 4 then c.upSent && !c.sent.contains c.root && rankNode c c.root == peer && !sends
     else x.coll == some c.num && !x.closed && x.low == x.base && x.seen.isEmpty && announces c x.rank && !sends)

/-- A request, adoption or offer sent again, or its stream lost: its SEQ is its COLL_ID (R331, R333; assumption log 23, DESIGN CHOICE). -/
def announceResend (d : Dev) (peer b seq : Nat) : Dev :=
  match d.ni.colls.find? (fun c => c.id == seq && unanswered d c peer b) with
  | none => d
  | some c =>
    let x := rxOf d peer b
    if !aonPassed d (if c.kind = 4 then c.offerAt else x.askedAt) (e2eTimeoutNs d) then d
    else if retryLimit d ≤ (if c.kind = 4 then c.tries else x.tries) then peerLost d peer c.id
    else
      let d1 := resendCount d (some c.num)
      let d2 := if c.kind = 4 then modColl (offerSend d1 c) c.num (fun c => { c with tries := c.tries + 1, offerAt := d.boot.aonNs })
        else modRx (announce d1 c peer b x.rank) peer b (fun x => { x with tries := x.tries + 1, askedAt := d.boot.aonNs })
      resendRec d2 peer c.id

/-- What reads of memory and of the network die's stores meet; a stream with an uncorrectable word fails as PEER_LOST has it
(R333, R475). -/
def storeErrs (errs : List MemErr) (w : Work) : Work :=
  errs.foldl (fun u e => match e with
    | .stream peer bits => if 2 ≤ bits ∧ (smapFind u.dev.ni.streams peer).isSome then wDev u (fun d => peerLost d peer 0) else u
    | _ => u) (wErrs errs w)

/-- A spent SEQ of a stream, or a packet sent without a token, sent again, or the stream lost (R331, R333). -/
def streamResend (w : Work) (peer b seq : Nat) : Work :=
  let t := txOf w.dev peer b
  if t.use = 0 || decide (seqDist t.ack t.next ≤ seqDist t.ack seq) then wDev w (fun d => announceResend d peer b seq)
  else if !aonPassed w.dev (smapGet t.times seq 0) (e2eTimeoutNs w.dev) then w
  else if retryLimit w.dev ≤ smapGet t.retries seq 0 then wDev w (fun d => peerLost d peer t.gColl)
  else
    match txWire w t (seqDist t.base seq) with
    | none => w
    | some x =>
      let d1 := resendCount (sendStream w.dev (txPacket w peer b t x seq)) (if t.use = 1 then some t.coll else none)
      let d2 := modTx d1 peer b (fun t => { t with
        retries := smapMod t.retries seq 0 (fun k => k + 1), times := smapSet t.times seq w.dev.boot.aonNs })
      { w with dev := resendRec d2 peer t.gColl }

/-- E2E_TIMEOUT passes without an acknowledgement: of SEQ `seq` under binding `bind` of the stream to node `peer`, or,
with `board`, of a request to the device in slot `peer` (R331, R333, R338). `errs`: what the read of the source, done again,
meets. -/
def execE2eRetransmit (board : Bool) (peer bind : Nat) (seq : Meets Nat) (s : State) : Host.Outcome State Fault Refusal :=
  finish s
    (if board then boardResend s.dev s.mem peer seq.it
     else wOut (niSettle (streamResend (storeErrs seq.errs (workOf s)) peer bind seq.it)))

/-- 250 µs without a packet while tokens are outstanding: the latest entry again (R326). -/
def execGrantResend (peer bind : Nat) (s : State) : Host.Outcome State Fault Refusal :=
  let x := rxOf s.dev peer bind
  finishDev s (if 0 < rxOut x ∧ aonPassed s.dev x.lastAt 250000 then sendGrant s.dev peer [bind] else s.dev)

/-- Within 1 µs of consumption a GRANT goes out with the new ACK, and LIMIT raised as far as it may be (R327, R332). -/
def execAckGrantSend (peer : Nat) (s : State) : Host.Outcome State Fault Refusal :=
  let bs := (rangeFrom 0 16).filter (fun b => decide (0 < (rxOf s.dev peer b).unacked))
  finishDev s (if bs.isEmpty then s.dev else sendGrant (bs.foldl (fun e b => rxRaise e peer b) s.dev) peer bs)

/-- Peers that active collectives need, in the order of the demand list (R321). -/
def demandList (d : Dev) : List Nat :=
  distinct (d.ni.colls.flatMap (fun c =>
    if c.phase = 0 then []
    else
      let need := rxWants c ++ txWants c
      let far := fun o => min o (c.size - o)
      ((rangeFrom 0 (c.size / 2 + 1)).flatMap (fun k =>
        (rangeFrom 1 (c.size - 1)).filter (fun o => far o == k))).filterMap (fun o =>
          let r := (c.rank + o) % max 1 c.size
          if need.contains r then some (rankNode c r) else none)))

/-- Slots of the pool: those that are not pinned, whether or not a pinned one serves a peer (R320). -/
def poolSlot (d : Dev) (c : Nat) : Bool := decide (regField d 0x1100008 0 11 ≤ c)

/-- Whether the context in a pool slot may be evicted (R322, R334). -/
def evictable (d : Dev) (peer : Nat) : Bool :=
  let x := streamOf d peer
  tokensOut x == 0 && tokensHeld x == 0 && !x.flagged &&
    (!(demandList d).contains peer || decide (x.active + beatLen d ≤ gtimeNs d))

/-- The evictable context that was active least recently. -/
def evictPick (d : Dev) : Option (Nat × Nat) :=
  (d.ni.slots.filter (fun e => poolSlot d e.1 && evictable d e.2)).foldl (fun acc e =>
    match acc with
    | none => some e
    | some q => if (streamOf d e.2).active < (streamOf d q.2).active then some e else some q) none

/-- A stream takes a slot. The slot at the peer is drawn free: no field announces it (assumption log 21, DESIGN CHOICE). -/
def loadStream (d : Dev) (slot peer : Nat) : Dev :=
  let r := drawFree d
  let known := (smapFind d.ni.streams peer).isSome
  let d1 := if known then d else modStream r.2 peer (fun x => { x with peerSlot := r.1.toNat % 4096 })
  touchStream { d1 with ni := { d1.ni with slots := smapSet d1.ni.slots slot peer } } peer

/-- Up to `k` evictable contexts evicted. -/
def swapOut (d : Dev) (k : Nat) : Dev :=
  match k with
  | 0 => d
  | k + 1 =>
    match evictPick d with
    | some e => swapOut (regBump { d with ni := { d.ni with slots := smapDrop d.ni.slots (fun c => c == e.1) } } 0x1100038 1) k
    | none => d

/-- Wanted streams loaded into free pool slots. -/
def swapIn (d : Dev) (peers : List Nat) (free : List Nat) : Dev :=
  match peers, free with
  | p :: t, c :: u => swapIn (regBump (loadStream d c p) 0x1100034 1) t u
  | _, _ => d

/-- Free pool slots, lowest first. -/
def freeSlots (d : Dev) : List Nat := (rangeFrom 0 4096).filter (fun c => poolSlot d c && (smapFind d.ni.slots c).isNone)

/-- The latest grid boundary, T0 before it (R271). -/
def gridStart (d : Dev) : Nat := beatT0 d + gridBeat d (gtimeNs d) * beatLen d
/-- Whether the swap window of a grid boundary is open: min(1 µs, BEAT_LEN / 4) from the boundary (R271). -/
def inSwapWindow (d : Dev) : Bool :=
  decide (gridStart d ≤ gtimeNs d ∧ 4 * (gtimeNs d - gridStart d) < min 4000 (beatLen d))

/-- A swap window: evictable contexts leave, least recently active first, and the streams at the head of the demand list
come in (R271, R321, R322). One window opens in each grid beat. -/
def execSwapWindow (s : State) : Host.Outcome State Fault Refusal :=
  let d := s.dev
  let g := gridStart d + 1
  finish s
    (if g = d.tm.window ∨ !inSwapWindow d then (d, [])
     else
       let d1 := { d with tm := { d.tm with window := g } }
       let d2 := swapOut d1 4096
       let want := (demandList d2).filter (fun p => (slotOf d2 p).isNone)
       wOut (niSettle ⟨swapIn d2 (want.take 4096) (freeSlots d2), s.mem, []⟩))

end Sys2Proof.Machine
end

