-- ==== Sys2Proof/Machine/HostCmd.lean ====
section
/-! DEFINITION. Host command queues: doorbells, fetching, the commands, their order of checks and their completions (R69,
R444, R460, R473, R510 to R516, R586). -/

namespace Sys2Proof.Machine

/-! ### A command's fields and checks (R512, R513, R515, R586) -/

/-- Field of a command: `k` bytes from `o`. -/
def cmdN (b : List Byte) (o k : Nat) : Nat := bytesNat b o k
/-- OP -/
def cmdOp (b : List Byte) : Nat := cmdN b 0 1
/-- FLAGS.IRQ -/
def cmdIrq (b : List Byte) : Bool := natBit (cmdN b 1 1) 0
/-- CID -/
def cmdCid (b : List Byte) : Nat := cmdN b 2 2
/-- LCORE -/
def cmdCore (b : List Byte) : Nat := cmdN b 4 2
/-- CTXMASK -/
def cmdMask (b : List Byte) : Nat := cmdN b 6 1
/-- ADDR -/
def cmdAddr (b : List Byte) : Nat := cmdN b 8 8
/-- LENGTH -/
def cmdLen (b : List Byte) : Nat := cmdN b 16 4
/-- EVN -/
def cmdEvn (b : List Byte) : Nat := cmdN b 20 1
/-- PC_c -/
def cmdPc (b : List Byte) (c : Nat) : Nat := cmdN b (24 + 2 * c) 2

/-- Whether a byte outside the used fields is not 0. -/
def cmdStray (b : List Byte) (used : List (Nat × Nat)) : Bool :=
  (rangeFrom 0 64).any (fun i => listGet b i 0#8 != 0#8 && !used.any (fun u => decide (u.1 ≤ i ∧ i < u.1 + u.2)))

/-- Bytes each OP uses (R512). -/
def cmdUsed (b : List Byte) : List (Nat × Nat) :=
  (0, 4) :: (match cmdOp b with
    | 1 => [(4, 2), (8, 8), (16, 4)]
    | 2 => [(4, 3)] ++ ((rangeFrom 0 8).filter (fun c => natBit (cmdMask b) c)).map (fun c => (24 + 2 * c, 2))
    | 3 => [(4, 3)]
    | 4 => [(4, 2), (16, 5)]
    | _ => [])

/-- BAD_COMMAND: a reserved OP, field or value (R512, R515). -/
def cmdBad (b : List Byte) : Bool :=
  decide (5 < cmdOp b) || cmdStray b (cmdUsed b) || decide (cmdN b 1 1 / (if cmdOp b = 2 then 4 else 2) ≠ 0) ||
    (match cmdOp b with
     | 1 => decide (2 ^ 42 ≤ cmdAddr b) || cmdLen b == 0 || decide (16384 < cmdLen b)
     | 2 => (rangeFrom 0 8).any (fun c => decide (16384 ≤ cmdPc b c))
     | 4 => decide (63 < cmdEvn b)
     | _ => false)

/-- The logical cores a command names (R512). -/
def cmdCores (d : Dev) (b : List Byte) : List Nat :=
  if cmdCore b = 0xFFFF ∧ (cmdOp b = 1 ∨ cmdOp b = 3) then (rangeFrom 0 (coresTotal d)).filter (coreInService d) else [cmdCore b]

/-- BAD_ADDRESS: unaligned, not in an aperture of this device, or in the other band view (R513, R515). -/
def cmdBadAddr (d : Dev) (b : List Byte) : Bool :=
  let a := cmdAddr b
  let hi := a + 16 * cmdLen b - 1
  a % 16 != 0 ||
    (match spanRegion d.boot.part a hi with
     | .spread => viewClash d a hi
     | .dieLocal _ => viewClash d a hi
     | _ => true)

/-- BUSY: a context named is started and neither halted nor faulted (R513, R515). A context in WAITM may be started
again, which is the third way out of WAITM that R131 gives (assumption log 130, DEDUCED). -/
def cmdBusy (d : Dev) (b : List Byte) : Bool :=
  (cmdCores d b).any (fun n => (rangeFrom 0 8).any (fun c =>
    let x := ctxOf (coreOf d n) c
    (cmdOp b == 1 && ctxLive x) || (cmdOp b == 2 && natBit (cmdMask b) c && ctxLive x && x.st != 5)))

/-- The first condition of R586 that applies; 0 OK. A device whose die link has failed refuses CORE_START (R473). A core retired
and not yet remapped starts nothing (R2): ABSENT (assumption log 90, DEDUCED). -/
def cmdStatus (d : Dev) (m : Mem) (b : List Byte) : Nat :=
  let op := cmdOp b
  if cmdBad b then 5
  else if op = 2 ∧ (!bootReady d ∨ d.boot.linkDead) then 2
  else if op = 2 ∧ d.boot.reduced then 3
  else if 1 ≤ op ∧ op ≤ 4 ∧ (cmdCores d b).any (fun n => !corePresent d n || (op == 2 && !coreInService d n)) then 4
  else if op = 1 ∧ cmdBadAddr d b then 6
  else if (op = 1 ∨ op = 2) ∧ cmdBusy d b then 1
  else if op = 1 ∧ rangeBad d m (cmdAddr b) (16 * cmdLen b) then 7
  else 0

/-! ### Effects (R513) -/

/-- PROG_LOAD on one core: every index beyond LENGTH is 0, and the image is recorded (R69). -/
def progLoad (m : Mem) (a len : Nat) (d : Dev) (n : Nat) : Dev :=
  modCore d n (fun k => { k with istore := imageStore m a len, image := some (a, len) })

/-- One context starts. -/
def ctxStart (track : Option (Nat × Nat)) (b : List Byte) (n : Nat) (d : Dev) (c : Nat) : Dev :=
  modCtx d n c (fun _ => { ctxReset with pc := cmdPc b c, st := 1, track := track })

/-- CORE_START: the first context started on a core sets its local beat (R262). -/
def coreStart (d : Dev) (q : Nat) (b : List Byte) : Dev :=
  let n := cmdCore b
  let cs := (rangeFrom 0 8).filter (fun c => natBit (cmdMask b) c)
  let track := if natBit (cmdN b 1 1) 1 then some (q, cmdCid b) else none
  let idle := !(rangeFrom 0 8).any (fun c => ctxLive (ctxOf (coreOf d n) c))
  let d1 := if idle && !cs.isEmpty then
      modCore d n (fun k => { k with beat := beatOnGrid d k.beat (gtimeNs d) (beatEnable d) })
    else d
  settleBeatEnd (cs.foldl (ctxStart track b n) (modCore d1 n (fun k => { k with gated := k.gated && cs.isEmpty }))) n

/-- CORE_STOP on one core: the contexts issue nothing more. -/
def coreStop (mask : Nat) (d : Dev) (n : Nat) : Dev :=
  (rangeFrom 0 8).foldl (fun e c =>
    if natBit mask c && ctxLive (ctxOf (coreOf e n) c) then modCtx e n c (fun x => { x with stopping := true }) else e) d

/-- A command that waits joins those started. -/
def pushRunning (d : Dev) (h : HostCmd) : Dev := { d with host := { d.host with running := d.host.running ++ [h] } }

/-- A command of queue `q` runs and completes, or waits to complete (R511 to R515). -/
def cmdRun (d : Dev) (m : Mem) (q : Nat) (b : List Byte) : Dev :=
  let st := cmdStatus d m b
  let done := fun e => pushCq e q (cmdEntry (cmdCid b) st (cmdCore b) (cmdIrq b))
  let h : HostCmd := ⟨q, cmdOp b, cmdCid b, cmdIrq b, cmdCore b, cmdMask b⟩
  if st ≠ 0 then done (if st = 3 then { d with boot := { d.boot with reduced := false } } else d)
  else
    match cmdOp b with
    | 1 => done ((cmdCores d b).foldl (progLoad m (cmdAddr b) (cmdLen b)) d)
    | 2 => done (coreStart d q b)
    | 3 =>
      let ns := cmdCores d b
      let e := ns.foldl (fun e n => settleStops e n (rangeFrom 0 8)) (pushRunning (ns.foldl (coreStop (cmdMask b)) d) h)
      ns.foldl afterWork (settleStopCmds e e.host.running)
    | 4 => done (addEvent d (cmdCore b) (cmdEvn b) (cmdLen b))
    | 5 => if d.host.running.any (fun r => r.q == q) then pushRunning d h else done d
    | _ => done d

/-! ### Queues (R510, R511, R516) -/

/-- Whether queue `q` fetches (R511, R516). -/
def queueFetches (d : Dev) (q : Nat) : Bool :=
  decide (q < 16) && isOwner d 1 && regField d (qOff q + 0x10) 14 2 == 1 &&
    regField d (qOff q + 0x1C) 0 16 != regField d (qOff q + 0x18) 0 16 && !cqFull d q &&
    (smapGet d.host.held q []).isEmpty && decide (d.pwr.st ≤ 1) && !d.pwr.tripped && !d.own.epo

/-- The command at the head of queue `q` is fetched and started, when its OP is one of the row's. -/
def hostCmd (q : Nat) (cmd : List Byte) (ops : Nat → Bool) (s : State) : Host.Outcome State Fault Refusal :=
  let d := s.dev
  let b := padTo 64 cmd
  finishDev s (if queueFetches d q && ops (cmdOp b) then
    cmdRun (regPutField d (qOff q + 0x1C) 0 16 ((regField d (qOff q + 0x1C) 0 16 + 1) % sqSize d q)) s.mem q b
  else d)

/-- NOP -/
def execCmdNop (q : Nat) (cmd : List Byte) (s : State) : Host.Outcome State Fault Refusal := hostCmd q cmd (fun o => o == 0) s
/-- PROG_LOAD -/
def execProgLoad (q : Nat) (cmd : List Byte) (s : State) : Host.Outcome State Fault Refusal := hostCmd q cmd (fun o => o == 1) s
/-- CORE_START -/
def execCoreStart (q : Nat) (cmd : List Byte) (s : State) : Host.Outcome State Fault Refusal := hostCmd q cmd (fun o => o == 2) s
/-- CORE_STOP -/
def execCoreStop (q : Nat) (cmd : List Byte) (s : State) : Host.Outcome State Fault Refusal := hostCmd q cmd (fun o => o == 3) s
/-- EVENT_ADD -/
def execEventAdd (q : Nat) (cmd : List Byte) (s : State) : Host.Outcome State Fault Refusal := hostCmd q cmd (fun o => o == 4) s
/-- FENCE -/
def execCmdFence (q : Nat) (cmd : List Byte) (s : State) : Host.Outcome State Fault Refusal := hostCmd q cmd (fun o => o == 5) s
/-- A reserved OP completes with BAD_COMMAND (R515). -/
def execBadCommand (q : Nat) (cmd : List Byte) (s : State) : Host.Outcome State Fault Refusal :=
  hostCmd q cmd (fun o => decide (5 < o)) s

/-- SQ_TAIL written: a doorbell at or beyond the ring size is an error (R511). -/
def sqTailWrite (d : Dev) (q v : Nat) : Dev :=
  let d1 := regPutField d (qOff q + 0x18) 0 16 v
  if sqSize d q ≤ v % 65536 then regPutField (regPutField d1 (qOff q + 0x10) 15 1 1) (qOff q + 0x10) 16 8 2 else d1

/-- CQ_HEAD written: entries held back are written while there is room (R516). -/
def cqHeadWrite (d : Dev) (q v : Nat) : Dev :=
  drainHeld (regPutField d (qOff q + 0x20) 0 16 v) q (smapGet d.host.held q []).length

/-- Whether `k` pages from a host address, the last of `len` bytes in all, lie in enabled windows. -/
def ringInside (d : Dev) (a len : Nat) : Bool :=
  (rangeFrom 0 ((len + 4095) / 4096)).all (fun i => inWindows d (a + 4096 * i) (min 4096 (len - 4096 * i)))

/-- QCFG written: enabling sets the indices and the phase anew, clears the error and checks the rings (R511). -/
def qcfgWrite (d : Dev) (q v : Nat) : Dev :=
  let o := qOff q
  let was := natBit (regNat d (o + 0x10)) 14
  let d1 := regPutField d (o + 0x10) 0 15 v
  if natBit v 14 && !was then
    let d2 := [0x18, 0x1C, 0x20, 0x24].foldl (fun e i => regPutField e (o + i) 0 16 0) (regPutField d1 (o + 0x10) 15 9 0)
    let d3 := { d2 with host := { d2.host with phase := smapSet d2.host.phase q true } }
    let ok := ringInside d3 (regNat64 d3 o / 4096 * 4096) (64 * sqSize d3 q) &&
      ringInside d3 (regNat64 d3 (o + 8) / 4096 * 4096) (32 * cqSize d3 q)
    let d4 := if ok then d3 else regPutField (regPutField d3 (o + 0x10) 15 1 1) (o + 0x10) 16 8 1
    drainHeld d4 q (smapGet d4.host.held q []).length
  else d1

/-- FR_HEAD written, taken modulo the ring size (R510). -/
def frHeadWrite (d : Dev) (v : Nat) : Dev := regPutField d 0x3E0000C 0 17 (v % 2 ^ 17 % ringSize d)

end Sys2Proof.Machine
end

