-- ==== Sys2Proof/Machine/Upd.lean ====
section
/-! DEFINITION. Update programs, the shard table and the update engines (R363 to R389, R396, R397, R585). -/

namespace Sys2Proof.Machine

/-! ### Validation of programs (R373 to R378, R585) -/

/-- The image in a slot of the program store, as its registers hold it. -/
def storeImage (d : Dev) (p : Nat) : List Byte :=
  (rangeFrom 0 64).flatMap (fun i => leBytes 4 (regNat d (0x1210000 + 256 * p + 4 * i)))

/-- Instructions of an image, at most 32. -/
def pgWords (b : List Byte) : List Nat := (rangeFrom 0 (min 32 (pgCount b))).map (pgInstr b)

/-- The fields of an instruction that its operation leaves unnamed are not all 0, or the operation is reserved (R375). -/
def instrReserved (w : Nat) : Bool :=
  let op := natBits w 27 5
  let a := natBits w 20 4
  let b := natBits w 16 4
  let c := natBits w 12 4
  let dst := natBits w 24 3
  let x := natBits w 0 12
  match op with
  | 0x01 => c != 0 || x != 0
  | 0x02 => c != 0 || x != 0
  | 0x03 => x != 0
  | 0x04 => b != 0 || c != 0 || x != 0
  | 0x05 => b != 0 || c != 0 || x != 0
  | 0x06 => b != 0 || c != 0 || x != 0
  | 0x07 => c != 0 || x != 0
  | 0x08 => c != 0 || x != 0
  | 0x09 => x != 0
  | 0x0A => x != 0
  | 0x0B => c != 0 || decide (32 ≤ x) || decide (8 ≤ x ∧ x ≤ 15)
  | 0x0C => c != 0 || decide (32 ≤ x) || decide (8 ≤ x ∧ x ≤ 15)
  | 0x0D => b != 0 || c != 0 || decide (256 ≤ x)
  | 0x0E => a != 0 || b != 0 || c != 0 || decide (16 ≤ x) || decide (5 ≤ x ∧ x ≤ 7) || decide (13 ≤ x)
  | 0x0F => dst != 0 || b != 0 || c != 0 || decide (4 ≤ x)
  | _ => true

/-- Whether instruction `k` breaks a rule of R376 or R377. -/
def instrOrder (b : List Byte) (k w : Nat) : Bool :=
  let op := natBits w 27 5
  let x := natBits w 0 12 % 16
  let second := pgPass2 b != 0 && decide (pgPass2 b ≤ k)
  if op = 0x0E then
    (decide (8 ≤ x ∧ x ≤ 11) && (!second || pgOutKind b (x - 8) == 1)) || (x == 12 && !second)
  else if op = 0x0F then second && decide (2 ≤ pgOutKind b (x % 4)) else false

/-- Whether instruction `w` uses a stream that its kind marks unused. -/
def instrUnused (b : List Byte) (w : Nat) : Bool :=
  let op := natBits w 27 5
  let x := natBits w 0 12 % 16
  (op == 0x0E && ((decide (x < 4) && pgInKind b x == 0) || (decide (8 ≤ x ∧ x ≤ 11) && pgOutKind b (x - 8) == 0))) ||
    (op == 0x0F && pgOutKind b (x % 4) == 0)

/-- Whether a stream's format is one its kind allows (R373). -/
def streamFmtOk (elem : Bool) (kind fmt : Nat) : Bool :=
  if kind = 0 then fmt == 0 else if elem then decide (fmt ≤ 3) else decide (fmt ≤ 1)

/-- The breach of an image, 0 for none (R378, R585). -/
def progCode (b : List Byte) : Nat :=
  let ws := pgWords b
  let four := rangeFrom 0 4
  if bytesNat b 2 2 != 0 || bytesNat b 80 16 != 0 || bytesNat b 224 32 != 0 || ws.any instrReserved ||
      four.any (fun i => natBit (bytesNat b (40 + i) 1) 3 || natBit (bytesNat b (44 + i) 1) 3 ||
        decide (3 < pgInKind b i) || decide (4 < pgOutKind b i)) then 1
  else if pgCount b = 0 ∨ 32 < pgCount b ∨ pgCount b ≤ pgPass2 b then 2
  else if bytesNat b 4 4 < 0x00800000 ∨ 0x7F7FFFFF < bytesNat b 4 4 then 3
  else if ws.zipIdx.any (fun p => instrOrder b p.2 p.1) then 4
  else if ws.any (instrUnused b) then 5
  else if four.any (fun i => !streamFmtOk (pgInKind b i == 1) (pgInKind b i) (pgInFmt b i) ||
      !streamFmtOk (pgOutKind b i == 1) (pgOutKind b i) (pgOutFmt b i)) then 6
  else if pgUses b 0x0E (fun x => x == 12) && !four.any (fun i => pgOutKind b i == 2) then 7
  else 0

/-- An entry's bucket slots become IDLE. -/
def slotsIdle (d : Dev) (x : Shard) : Dev :=
  if shKind x = 2 then d else (shSlots x).foldl (fun e s => regPut64 e (bktOff s) 0) d

/-- An entry is invalidated (R382). -/
def shardDrop (d : Dev) (t : Nat) : Dev :=
  match shardOf d t with
  | none => d
  | some x =>
    let d1 := slotsIdle d x
    let gone := shSlots x
    let keep := fun s => shKind x == 2 || !gone.contains s
    { d1 with upd := { d1.upd with
        shards := smapDrop d1.upd.shards (fun k => k == t)
        queue := d1.upd.queue.filter keep
        running := d1.upd.running.filter (fun e => keep e.2) } }

/-- CFG_RESULT.CODE, and the record of a rejection (R585). -/
def cfgResult (d : Dev) (ev code num : Nat) : Dev :=
  let d1 := regPutField d 0x1200068 0 8 code
  if code = 0 then d1 else postRecord d1 (recOf ev 2 0xFF (leBytes 1 code ++ leBytes 2 num))

/-- PROG_VALIDATE written (R378). -/
def progValidate (d : Dev) (p : Nat) : Dev :=
  let users := (d.upd.shards.filter (fun e => shKind e.2 != 2 && shProg e.2 == p)).map (fun e => e.1)
  if !users.isEmpty && anyLive d then cfgResult d 0x0C20 8 p
  else
    let b := storeImage d p
    let code := progCode b
    if code = 0 then cfgResult { d with upd := { d.upd with progs := smapSet d.upd.progs p b } } 0x0C20 0 p
    else
      let d1 := { d with upd := { d.upd with progs := smapDrop d.upd.progs (fun k => k == p) } }
      cfgResult (users.foldl shardDrop d1) 0x0C20 code p

/-! ### Validation of entries (R381, R382, R585) -/

/-- Bytes 0 to 191 of a shard entry, as its registers hold them. -/
def storeEntry (d : Dev) (t : Nat) : List Byte :=
  (rangeFrom 0 48).flatMap (fun i => leBytes 4 (regNat d (0x1240000 + 256 * t + 4 * i)))

/-- An entry as validation puts it in force (R382). -/
def shardNew (e : List Byte) : Shard :=
  { entry := e, cur := 0, other := 0, held := false, version := 0, clips := 0, flags := 0, parts := [], xsum := 0#32, xsumBad := false,
    folded := false, exch := none, landed := 0, updated := false, log := [] }

/-- Whether an address lies in an aperture of this device, the spread one or a die-local one (R19, R381). -/
def dramAddr (a : Nat) : Bool := decide (a < 0x20000000000)

/-- Whether a field breaks R381. -/
def entryBad (x : Shard) : Bool :=
  let k := shKind x
  let row := shRowLen x
  let streams := (rangeFrom 0 8).any (fun i => natBits (shN x (32 + 16 * i) 16) 84 44 != 0 ||
    !dramAddr (shBase x i 0) || !dramAddr (shBase x i 1))
  if 16 ≤ shN x 0 1 then true
  else if k = 2 then decide (2 ^ 14 ≤ shN x 2 2)
  else
    row == 0 || decide (1048575 < row) || shElems x == 0 || shElems x % max 1 row != 0 || decide (4096 ≤ shN x 12 2) ||
      shBuckets x == 0 || decide (32 < shBuckets x) || decide (4096 < shFirst x + shBuckets x) || shN x 15 1 == 0 ||
      shN x 16 4 == 0 || decide (65536 < shN x 16 4) || decide (32 ≤ shN x 20 1) || (decide (8 ≤ shN x 20 1) && decide (shN x 20 1 < 16)) || streams ||
      (k == 1 && (decide (262144 < shElems x) || decide (shBuckets x * 8192 < shElems x) ||
        shN x 168 4 == 0 || decide (65536 < shN x 168 4) || shN x 174 1 == 0 || decide (15 < shN x 174 1) ||
        shN x 175 1 != 0 || shN x 186 6 != 0))

/-- Whether a range lies wholly in one populated aperture of this device, in bands its view owns. -/
def rangeFits (d : Dev) (lo hi : Int) : Bool :=
  match spanRegion d.boot.part lo hi with
  | .spread => !viewClash d lo.toNat hi.toNat
  | .dieLocal _ => !viewClash d lo.toNat hi.toNat
  | _ => false

/-- Whether every stream of an entry fits the populated part of its aperture: both regions of an UPDATE entry, BASE0 of a
SPARSE one (R382, R389). -/
def streamsFit (d : Dev) (x : Shard) : Bool :=
  (rangeFrom 0 8).all (fun i => (if shKind x = 3 then [0] else [0, 1]).all (fun r =>
    match streamDesc d x i r with
    | some t => (match spanRegion d.boot.part (spanLo t) (spanHi t) with | .spread => true | .dieLocal _ => true | _ => false)
    | none => true))

/-- Whether the program of a SPARSE entry is one R386 allows: one pass, and no COL or COLSUM stream. -/
def sparseOk (b : List Byte) : Bool :=
  pgPass2 b == 0 && (rangeFrom 0 4).all (fun i => pgInKind b i != 3 && pgOutKind b i != 3)

/-- The breach of an entry, 0 for none (R382, R585). -/
def entryCode (d : Dev) (t : Nat) (x : Shard) : Nat :=
  let b := progOf d (shProg x)
  let view := shKind x == 2
  let xl := shN x 160 8
  let xb := shN x 176 8
  if anyLive d then 16
  else if entryBad x || (shKind x == 3 && !b.isEmpty && !sparseOk b) then 17
  else if view then 0
  else if b.isEmpty then 18
  else if !streamsFit d x then 19
  else if d.upd.shards.any (fun e => e.1 != t && shKind e.2 != 2 && (shSlots e.2).any (fun s => (shSlots x).contains s)) then 20
  else if shKind x = 1 && pgExchanges b && decide (1 < shN x 168 4) &&
      (xl % 2 != 0 || !rangeFits d xl (xl + 2 * shN x 168 4 - 1) ||
        !rangeFits d xb (xb + 4 * ((shN x 174 1 + 1) * (shRowLen x + 1)) - 1)) then 21
  else 0

/-- A valid entry's bucket slots: OPEN when it is ACTIVE (R364, R366). -/
def slotsOpen (d : Dev) (t : Nat) (x : Shard) : Dev :=
  if shKind x = 2 then d
  else (shSlots x).foldl (fun e s =>
    regPut64 e (bktOff s) ((if shActive x then 1 else 0) + 16 * t + 2 ^ 40 * (shExpected x % 2 ^ 24))) d

/-- SHARD_VALIDATE written (R382). -/
def shardValidate (d : Dev) (t : Nat) : Dev :=
  let x := shardNew (storeEntry d t)
  if shKind x = 0 then (if anyLive d then cfgResult d 0x0C21 16 t else cfgResult (shardDrop d t) 0x0C21 0 t)
  else
    let code := entryCode d t x
    if code = 0 then
      let d1 := shardDrop d t
      cfgResult (slotsOpen { d1 with upd := { d1.upd with shards := smapSet d1.upd.shards t x } } t x) 0x0C21 0 t
    else cfgResult d 0x0C21 code t

/-! ### Arithmetic (R375, R379) -/

/-- The square root of a number, rounded down, by bits from `2^fuel`. -/
def isqrt (n fuel r : Nat) : Nat :=
  match fuel with
  | 0 => r
  | fuel + 1 =>
    let t := r + 2 ^ fuel
    isqrt n fuel (if t * t ≤ n then t else r)

/-- 1/√x of a positive number, with the lowest bit standing for a remainder. -/
def rsqrtDy (v : Dyadic) : Dyadic :=
  let sh : Int := 200
  let e := 2 * sh - v.exp
  let y := 2 ^ e.toNat / v.man
  let r := isqrt y 280 0
  let exact := r * r * v.man == 2 ^ e.toNat
  ⟨false, 2 * r + (if exact then 0 else 1), -sh - 1⟩

/-- Lane state of a pass: temporaries with their taint, step flags, clips, partials and outputs. -/
structure Lane where
  temps : List (W32 × Bool)
  flags : Nat
  clips : Nat
  parts : SMap W32
  /-- Outputs: stream, element of the stream, bits and taint. -/
  outs : List (Nat × Nat × Nat × Bool)
  /-- An input line read poisoned (R397). -/
  bad : Bool

/-- UF_FLOOR -/
def ufFloor : Nat := 1
/-- UF_RCP_ZERO -/
def ufRcpZero : Nat := 2
/-- UF_INVALID -/
def ufInvalid : Nat := 4
/-- UF_NONFINITE -/
def ufNonfinite : Nat := 8
/-- UF_CLIP -/
def ufClip : Nat := 16

/-- A step flag of a lane raised. -/
def laneFlag (l : Lane) (p : Bool) (f : Nat) : Lane := if p then { l with flags := l.flags ||| f } else l

/-- An operand: a temporary, or a constant (R374). -/
def laneArg (b : List Byte) (l : Lane) (i : Nat) : W32 × Bool :=
  if i < 8 then listGet l.temps i (0#32, false) else (pgConst b (i - 8), false)

/-- A temporary written. -/
def laneSet (l : Lane) (i : Nat) (v : W32 × Bool) : Lane := { l with temps := listSet l.temps i v }

/-- Whether bits are a NaN or an infinity. -/
def nonfinite (v : W32) : Bool := decide (0x7F800000 ≤ bvBits v 0 31)

/-- A value as an integer code below `top`, or `none` (R375, R377). -/
def codeOf (v : W32) (top : Nat) : Option Nat :=
  match fOf32 v with
  | .fin x =>
    let k := (dyFloor x).toNat
    if fEq (fOf32 v) (fOfInt k) && decide (k < top) then some k else none
  | _ => none

/-- 1/A (R379). -/
def urcp (a : W32) : W32 × Nat :=
  (f32Div 0x3F800000#32 a, if bvBits a 0 31 = 0 then ufRcpZero else 0)

/-- 1/√A (R379). -/
def ursq (a : W32) : W32 × Nat :=
  if f32IsNan a then (f32Mul a 0x3F800000#32, 0)
  else if bvBits a 0 31 = 0 then (if a.msb then 0xFF800000#32 else 0x7F800000#32, ufRcpZero)
  else if a.msb then (0x7FC00000#32, ufInvalid)
  else match fOf32 a with
    | .fin v => (fTo32 (.fin (rsqrtDy v)), 0)
    | _ => (0#32, 0)

/-! ### A pass (R371 to R377, R383, R384) -/

/-- Where a pass runs: the shard, its program, the element and its row, and which bucket. -/
structure PassAt where
  shard : Shard
  prog : List Byte
  bucket : Nat
  elem : Nat
  row : Nat
  col : Nat
  /-- The value BUCKET supplies, with its taint. -/
  grad : W32 × Bool

/-- The element of stream `i` (IN0 to IN3, OUT0 to OUT3) that belongs to the current element, by the stream's kind. -/
def streamElem (a : PassAt) (i : Nat) : Nat :=
  let kind := if i < 4 then pgInKind a.prog i else pgOutKind a.prog (i - 4)
  if kind = 1 then a.elem
  else if i < 4 then (if kind = 2 then a.row else a.col)
  else if kind = 3 then a.col else a.row

/-- The current value of stream `i` in region `r`: FP32, BF16 widened, or a code as an integer (R376). -/
def streamValue (d : Dev) (m : Mem) (a : PassAt) (i r : Nat) : W32 × Bool :=
  match streamUnder a.prog a.shard i r with
  | none => (0#32, false)
  | some t =>
    let e := streamElem a i
    let raw := elemRaw (localView d m) t e
    (if t.fmt = 2 ∨ t.fmt = 3 then fTo32 (fOfInt raw) else wide t.fmt raw, elemBad (localView d m) t e)

/-- Key of a partial sum: output stream, bucket and index; 4 is added to the stream for the mark of a poisoned one. -/
def sumKey (stream bucket idx : Nat) : Nat := 2 ^ 25 * stream + 2 ^ 20 * bucket + idx

/-- A value joined to a partial: a sum, or the greatest magnitude (R377, R384). -/
def sumPut (l : Lane) (kind stream bucket idx : Nat) (v : W32 × Bool) : Lane :=
  let k := sumKey stream bucket idx
  let x := if kind = 4 then BitVec.ofNat 32 (bvBits v.1 0 31) else v.1
  let y := match smapFind l.parts k with
    | none => x
    | some o => if kind = 4 then fTo32 (fMax (fOf32 o) (fOf32 x)) else f32Add o x
  let p := smapSet l.parts k y
  { l with parts := if v.2 then smapSet p (sumKey (stream + 4) bucket idx) 0#32 else p }

/-- USTS (R377, R379). -/
def laneStore (l : Lane) (a : PassAt) (x : Nat) (v : W32 × Bool) : Lane :=
  let kind := pgOutKind a.prog x
  let fmt := pgOutFmt a.prog x
  let l1 := laneFlag l (nonfinite v.1) ufNonfinite
  if kind = 1 then
    if fmt = 2 ∨ fmt = 3 then
      let c := codeOf v.1 (if fmt = 2 then 256 else 16)
      let l2 := laneFlag l1 c.isNone ufInvalid
      { l2 with outs := l2.outs ++ [(x, a.elem, c.getD 0, v.2)] }
    else
      let r := narrowTo fmt (fOf32 v.1)
      let l2 := laneFlag l1 (nonfinite (wide fmt r)) ufNonfinite
      { l2 with outs := l2.outs ++ [(x, a.elem, r, v.2)] }
  else sumPut l1 kind x a.bucket (if kind = 3 then a.col else a.row) v

/-- ULDS (R376). -/
def laneLoad (d : Dev) (m : Mem) (l : Lane) (a : PassAt) (dst x : Nat) : Lane :=
  let v := if x < 4 then streamValue d m a x a.shard.cur
    else if x = 4 then a.grad
    else if x = 12 then (a.shard.xsum, a.shard.xsumBad)
    else streamValue d m a (x - 4) (1 - a.shard.cur)
  { laneSet l dst v with bad := l.bad || v.2 }

/-- A network-die book as a list of entries. -/
def ncbList (d : Dev) (x : Nat) : List Int :=
  let cb4 := natBit x 4
  (rangeFrom 0 (if cb4 then 16 else 256)).map (ncbEntry d cb4 (x % 16))

/-- One instruction of an update program (R374, R375). -/
def laneStep (d : Dev) (m : Mem) (a : PassAt) (l : Lane) (w : Nat) : Lane :=
  let dst := natBits w 24 3
  let p := laneArg a.prog l (natBits w 20 4)
  let q := laneArg a.prog l (natBits w 16 4)
  let r := laneArg a.prog l (natBits w 12 4)
  let x := natBits w 0 12
  let fp := fOf32 p.1
  let fq := fOf32 q.1
  let fr := fOf32 r.1
  match natBits w 27 5 with
  | 0x01 => laneSet l dst (fTo32 (fAdd fp fq), p.2 || q.2)
  | 0x02 => laneSet l dst (fTo32 (fMul fp fq), p.2 || q.2)
  | 0x03 => laneSet l dst (fTo32 (fFma fp fq fr), p.2 || q.2 || r.2)
  | 0x04 => laneSet l dst (fTo32 (fMul fp fp), p.2)
  | 0x05 => let v := ursq p.1; { laneSet l dst (v.1, p.2) with flags := l.flags ||| v.2 }
  | 0x06 => let v := urcp p.1; { laneSet l dst (v.1, p.2) with flags := l.flags ||| v.2 }
  | 0x07 => laneSet l dst (fTo32 (fMax fp fq), p.2 || q.2)
  | 0x08 => laneSet l dst (fTo32 (fMin fp fq), p.2 || q.2)
  | 0x09 => laneSet l dst (fTo32 (fMin (fMax fp fq) fr), p.2 || q.2 || r.2)
  | 0x0A => laneSet l dst (if bvBits p.1 0 31 != 0 then q.1 else r.1, p.2 || q.2 || r.2)
  | 0x0B =>
    let c := codeOf p.1 (if natBit x 4 then 16 else 256)
    laneFlag (laneSet l dst (fTo32 (fMul (fOfInt (listGet (ncbList d x) (c.getD 0) 0)) fq), p.2 || q.2)) c.isNone ufInvalid
  | 0x0C =>
    let e := encodeElem (ncbList d x) p.1 q.1
    let l1 := laneFlag (laneSet l dst (fTo32 (fOfInt e.code), p.2 || q.2)) (e.nonfinite || nonfinite p.1) ufNonfinite
    { l1 with clips := l1.clips + e.clipped.toNat }
  | 0x0D => laneSet l dst (fTo32 (fMul fp (.fin ⟨false, 1, signedOf 8 (x % 256)⟩)), p.2)
  | 0x0E => laneLoad d m l a dst (x % 16)
  | _ => laneStore l a (x % 4) p

/-- The instructions of a pass. -/
def passInstrs (b : List Byte) (second : Bool) : List Nat :=
  let all := (rangeFrom 0 (pgCount b)).map (pgInstr b)
  if second then all.drop (pgPass2 b) else if pgPass2 b = 0 then all else all.take (pgPass2 b)

/-- Temporaries nothing has written in this pass are free (assumption log 5, DESIGN CHOICE). -/
def laneStart (l : Lane) (salt : Nat) : Lane :=
  { l with temps := (rangeFrom 0 8).map (fun i => (BitVec.ofNat 32 (Config.freeWord (salt + i)).toNat, false)) }

/-- The pass over elements of one bucket, in ascending order. -/
def passRun (d : Dev) (m : Mem) (x : Shard) (b : List Byte) (ws : List Nat) (bucket salt : Nat) (l : Lane) (es : List Nat) : Lane :=
  match es with
  | [] => l
  | e :: t =>
    let g := BitVec.ofNat 32 (leNat (memBytes m (bktBase (shFirst x + e / 8192) + 4 * (e % 8192)) 4))
    let a : PassAt := ⟨x, b, bucket, e, e / max 1 (shRowLen x), e % max 1 (shRowLen x), (g, false)⟩
    passRun d m x b ws bucket (salt + 8) (ws.foldl (laneStep d m a) (laneStart l salt)) t

/-- A flag newly set in a step is recorded with the first shard that raised it (R380). -/
def raiseUf (d : Dev) (t slot : Nat) (flags : Nat) : Dev :=
  let had := d.upd.shards.foldl (fun acc e => acc ||| e.2.flags) 0
  let d1 := modShard (regPutNat d 0x1200004 (regNat d 0x1200004 ||| flags)) t (fun x => { x with flags := x.flags ||| flags })
  (rangeFrom 0 5).foldl (fun e i =>
    if natBit flags i && !natBit had i then postRecord e (recOf 0x0C30 2 0xFF (updDetail t slot i 0)) else e) d1

/-- Clips counted, and UF_CLIP when a shard's CLIPS passes its limit (R379). -/
def countClips (d : Dev) (t slot k : Nat) : Dev :=
  let d1 := modShard (regBump d 0x1200008 k) t (fun x => { x with clips := satAdd32 x.clips k })
  match shardOf d1 t with
  | some x => if 0 < k ∧ shN x 24 4 < x.clips then raiseUf d1 t slot ufClip else d1
  | none => d1

/-- The outputs of a pass of program `b` written to the region being built (R383). -/
def writeOuts (w : Work) (b : List Byte) (x : Shard) (outs : List (Nat × Nat × Nat × Bool)) : Work :=
  outs.foldl (fun w o =>
    match streamUnder b x (4 + o.1) (1 - x.cur) with
    | some t => putElems w t o.2.1 [(o.2.2.1, o.2.2.2)]
    | none => w) w

/-- An input line of an update was poisoned (R397). -/
def poisonRead (d : Dev) (t slot : Nat) : Dev := addCode (postRecord d (recOf 0x0C43 0 0xFF (updDetail t slot 0 0))) 3

/-- The building region is written from now on (R388). -/
def startBuild (d : Dev) (t : Nat) : Dev :=
  modShard d t (fun x => if x.other = 0 then { x with other := 1, held := false } else x)

/-- Bucket partials of an index combined in ascending bucket order; +0 where no bucket has one. -/
def partTotal (x : Shard) (kind stream idx : Nat) : W32 × Bool :=
  let bs := rangeFrom 0 (shBuckets x)
  let vs := bs.filterMap (fun b => smapFind x.parts (sumKey stream b idx))
  let bad := bs.any (fun b => (smapFind x.parts (sumKey (stream + 4) b idx)).isSome)
  match vs with
  | [] => (0#32, bad)
  | v :: t => (t.foldl (fun a b => if kind = 4 then fTo32 (fMax (fOf32 a) (fOf32 b)) else f32Add a b) v, bad)

/-- Whether the program writes output stream `i`. -/
def pgWritesOut (b : List Byte) (i : Nat) : Bool := pgUses b 0x0F (fun x => x % 4 == i)

/-- Output streams of a kind that the program writes, lowest first. -/
def pgOuts (b : List Byte) (kind : Nat) : List Nat :=
  (rangeFrom 0 4).filter (fun i => pgOutKind b i == kind && pgWritesOut b i)

/-- The column partials of a shard as far as its buckets have them: those of its lowest COLSUM stream (R384). -/
def columnParts (b : List Byte) (x : Shard) : List (W32 × Bool) :=
  (rangeFrom 0 (shRowLen x)).map (fun c => match (pgOuts b 3).head? with | some i => partTotal x 3 i c | none => (0#32, false))

/-- Whether the exchange of a shard runs between owners, so that it has an exchange buffer (R382, R385). -/
def exchanges (b : List Byte) (x : Shard) : Bool := shKind x == 1 && pgExchanges b && decide (1 < shN x 168 4)

/-- A vector written as this device's own into the exchange buffer (R372; assumption log 27, DEDUCED). -/
def xbufOwn (w : Work) (x : Shard) (vs : List (W32 × Bool)) : Work :=
  wMem w (storeCells w.dev w.mem (vs.zipIdx.flatMap (fun v =>
    (leBytes 4 v.1.1.toNat).zipIdx.map (fun b => (memKey (shN x 176 8 + 4 * v.2 + b.2), b.1, v.1.2))))).1

/-- One pass of one bucket, of program `b` (R371 to R384). The first pass leaves the column sums so far in the exchange
buffer; the row sums stay with the shard (assumption log 27, DEDUCED). -/
def runPass (w : Work) (slot : Nat) (second : Bool) (b : List Byte) : Work :=
  let t := bktShard w.dev slot
  match shardOf w.dev t with
  | none => w
  | some x =>
    let bucket := slot - shFirst x
    let l := passRun w.dev w.mem x b (passInstrs b second) bucket w.dev.free ⟨[], 0, 0, [], [], false⟩
      (rangeFrom (8192 * bucket) (bktElems x bucket))
    let d1 := { w.dev with free := w.dev.free + 8 * bktElems x bucket }
    let d2 := modShard d1 t (fun x => { x with
      parts := l.parts.foldl (fun acc e => smapSet acc e.1 e.2) (smapDrop x.parts (fun k => !second && k / 2 ^ 20 % 32 == bucket)) })
    let d3 := raiseUf (countClips d2 t slot l.clips) t slot l.flags
    let w1 := writeOuts { w with dev := if l.bad then poisonRead d3 t slot else d3 } b x l.outs
    match shardOf w1.dev t with
    | some y => if !second && exchanges b y then xbufOwn w1 y (columnParts b y) else w1
    | none => w1

/-! ### The engines (R371, R396) -/

/-- Whether engine `e` is in service and idle. -/
def engineIdle (d : Dev) (e : Nat) : Bool :=
  decide (e < 16) && natBit (regField d 0x1200000 0 16) e && (smapFind d.upd.running e).isNone

/-- Whether a pass writes an ELEM stream. -/
def passWrites (b : List Byte) (second : Bool) : Bool :=
  (passInstrs b second).any (fun w => natBits w 27 5 == 0x0F && pgOutKind b (natBits w 0 2) == 1)

/-- An idle engine takes the bucket at the head of the queue. `bad`: the read of the bucket finds an uncorrectable word,
so its pass is not run (R370, R371). `errs`: errors its streams meet. -/
def execUpdatePassStart (engine : Nat) (bad : Bool) (errs : List MemErr) (s : State) : Host.Outcome State Fault Refusal :=
  finish s
    (if !engineIdle s.dev engine || !coresRun s.dev then (s.dev, [])
     else match s.dev.upd.queue with
      | [] => (s.dev, [])
      | slot :: rest =>
        let w := wErrs errs (wDev (workOf s) (fun d => { d with upd := { d.upd with queue := rest } }))
        let second := bktState w.dev slot == 4
        if bad || errs.any storeUe then
          let w1 := bktTaint w slot
          wOut (if second then bktDone w1 slot else bktPass1Done w1 slot (bktProg w1.dev slot))
        else
          let d1 := { w.dev with upd := { w.dev.upd with
            running := smapSet w.dev.upd.running engine slot, image := smapSet w.dev.upd.image engine (bktProg w.dev slot)
            attempt := smapSet w.dev.upd.attempt engine 1
            badLanes := smapSet w.dev.upd.badLanes engine [] } }
          wOut { w with dev := if passWrites (bktProg d1 slot) second then startBuild d1 (bktShard d1 slot) else d1 })

/-- A pass ends: the program image it started with (R378) has run on every element of the bucket, which goes on to WAIT_X, PASS2 or DONE (R372,
R373 to R384). -/
def execUpdatePassDone (engine : Nat) (s : State) : Host.Outcome State Fault Refusal :=
  finish s
    (match smapFind s.dev.upd.running engine with
     | none => (s.dev, [])
     | some slot =>
       if !coresRun s.dev then (s.dev, []) else
       let second := bktState s.dev slot == 4
       let w := wDev (workOf s) (fun d => { d with upd := { d.upd with running := smapDrop d.upd.running (fun e => e == engine) } })
       let b := smapGet s.dev.upd.image engine []
       let w1 := runPass w slot second b
       wOut (if second then bktDone w1 slot else bktPass1Done w1 slot b))

/-- An update lane's residue mismatches: the pass runs again from its start, or its engine retires and another runs it
(R396). -/
def execUpdResidueRetry (engine lane : Nat) (s : State) : Host.Outcome State Fault Refusal :=
  finishDev s
    (match smapFind s.dev.upd.running engine with
     | none => s.dev
     | some slot =>
       let d := s.dev
       let t := bktShard d slot
       let seen := smapGet d.upd.badLanes engine []
       let att := smapGet d.upd.attempt engine 1
       let d1 := postRecord (dayBump (regBump d 0x120000C 1) 2 1) (recOf 0x0C40 0 engine (updDetail t slot 0 0))
       if seen.contains lane || decide (3 ≤ att) then
         let d2 := callEntry (regPutField d1 0x1200000 engine 1 0) 7 engine 0x0C41 1
         let d3 := postRecord d2 { recOf 0x0C41 1 engine (updDetail t slot 0 0) with ledger := true }
         let left := smapDrop d3.upd.running (fun e => e == engine)
         match (rangeFrom 0 16).find? (fun e => engineIdle d3 e) with
         | some e => { d3 with upd := { d3.upd with running := smapSet left e slot,
                                                    image := smapSet d3.upd.image e (smapGet d.upd.image engine []), attempt := smapSet d3.upd.attempt e 1,
                                                    badLanes := smapSet d3.upd.badLanes e [] } }
         | none => { d3 with upd := { d3.upd with running := left, queue := slot :: d3.upd.queue } }
       else
         { d1 with upd := { d1.upd with attempt := smapSet d1.upd.attempt engine (att + 1)
                                        badLanes := smapSet d1.upd.badLanes engine (lane :: seen) } })

/-! ### The fold and the exchange (R383 to R385) -/

/-- One folded value (R383): exact, rounded once. -/
def foldValue (b : List Byte) (i kind fmt : Nat) (old s : W32) : Nat :=
  let fo := BitVec.ofNat 32 (bytesNat b (48 + 8 * i) 4)
  let fn := BitVec.ofNat 32 (bytesNat b (52 + 8 * i) 4)
  let new := fMul (fOf32 fn) (fOf32 s)
  narrowTo fmt (if kind = 4 then new else fAdd (fMul (fOf32 fo) (fOf32 old)) new)

/-- A ROWSUM, COLSUM or ROWMAX stream folded from sums by index (R383); an old value that reads poisoned counts as a
poisoned line of an input (R397; assumption log 146, DEDUCED). -/
def foldStream (w : Work) (t : Nat) (x : Shard) (i : Nat) (sums : List (W32 × Bool)) : Work :=
  let b := progOf w.dev (shProg x)
  match streamDesc w.dev x (4 + i) x.cur, streamDesc w.dev x (4 + i) (1 - x.cur) with
  | some old, some new =>
    let v := localView w.dev w.mem
    let kind := pgOutKind b i
    let bad := kind != 4 && sums.zipIdx.any (fun s => elemBad v old s.2)
    putElems (if bad then wDev w (fun d => poisonRead d t (shFirst x)) else w) new 0 (sums.zipIdx.map (fun s =>
      (foldValue b i kind old.fmt (wide old.fmt (elemRaw v old s.2)) s.1.1, s.1.2 || (kind != 4 && elemBad v old s.2))))
  | _, _ => w

/-- The row statistics folded (R372, R384). -/
def foldRows (w : Work) (t : Nat) (x : Shard) : Work :=
  let b := progOf w.dev (shProg x)
  ((rangeFrom 0 4).filter (fun i => (pgOutKind b i == 2 || pgOutKind b i == 4) && pgWritesOut b i)).foldl (fun w i =>
    foldStream w t x i ((rangeFrom 0 (shRows x)).map (fun r => partTotal x (pgOutKind b i) i r))) w

/-- XSUM's local part: the new values of the lowest ROWSUM stream, in ascending row order (R384). -/
def xsumLocal (w : Work) (x : Shard) : W32 × Bool :=
  match (pgOuts (progOf w.dev (shProg x)) 2).head?.bind (fun i => streamDesc w.dev x (4 + i) (1 - x.cur)) with
  | none => (0#32, false)
  | some t =>
    let v := localView w.dev w.mem
    let rows := rangeFrom 0 (shRows x)
    (match rows.map (fun r => wide t.fmt (elemRaw v t r)) with | [] => 0#32 | a :: rest => rest.foldl f32Add a,
      rows.any (fun r => elemBad v t r))

/-- The column partials of this shard and its XSUM part (R384). -/
def exchVector (w : Work) (x : Shard) : List (W32 × Bool) := columnParts (progOf w.dev (shProg x)) x ++ [xsumLocal w x]

/-- The sums a COLSUM stream folds: the exchange's for the lowest one; for another, its own column sums where the exchange
is local, and free values where it is not, since the exchange carries one stream (assumption log 29, DESIGN CHOICE). -/
def colSums (d : Dev) (x : Shard) (i : Nat) (first : Bool) (vec : List (W32 × Bool)) : List (W32 × Bool) :=
  (rangeFrom 0 (shRowLen x)).map (fun c =>
    if first then listGet vec c (0#32, false)
    else if exchanges (progOf d (shProg x)) x then
      (BitVec.ofNat 32 (Config.freeWord (d.free + c)).toNat, (partTotal x 3 i c).2)
    else partTotal x 3 i c)

/-- The fold ends: COLSUM and XSUM are taken, and every bucket goes on. An XSUM that an exchange leaves ±0 or subnormal is
EPS1 (R372, R384, R385). -/
def foldEnd (w : Work) (t : Nat) (x : Shard) (vec : List (W32 × Bool)) : Work :=
  let b := progOf w.dev (shProg x)
  let s := listGet vec (shRowLen x) (0#32, false)
  let low := pgExchanges b && !(pgOuts b 2).isEmpty && !s.2 && decide (bvBits s.1 0 31 < 0x00800000)
  let w1 := wDev w (fun d =>
    let d1 := modShard d t (fun x => { x with
      folded := true, exch := none, xsum := if low then BitVec.ofNat 32 (bytesNat b 4 4) else s.1, xsumBad := s.2 })
    if low then raiseUf d1 t 0 ufFloor else d1)
  let w2 := (pgOuts b 3).zipIdx.foldl (fun w i =>
    let w3 := foldStream w t x i.1 (colSums w.dev x i.1 (i.2 == 0) vec)
    if i.2 = 0 then w3 else wDev w3 (fun d => { d with free := d.free + shRowLen x })) w1
  (shSlots x).foldl (fun w q => if pgPass2 b = 0 then bktDone w q else bktPass2 w q) w2

/-- The collective an exchange runs as (R384). -/
def exchColl (d : Dev) (m : Mem) (t : Nat) (x : Shard) (vec : List (W32 × Bool)) : Coll :=
  let size := shN x 168 4
  { collReset with
    num := d.ni.nextColl, core := 0xFFFF, kind := 17, id := shN x 184 2, epoch := epochNow d
    group := readGroup m (shN x 160 8) size, size := size, rank := shN x 172 2, root := 0, fan := shN x 174 1
    count := shRowLen x + 1, shard := t, step := d.upd.round
    partials := [(partKey size 0, vec.map (fun v => ⟨v.1, 0, 0, v.2⟩))] }

/-- Whether the buckets of an UPDATE shard all wait for its fold (R372). -/
def foldDue (d : Dev) (x : Shard) : Bool :=
  shKind x == 1 && !x.folded && (shSlots x).all (fun q => bktState d q == 3)

/-- A shard's row statistics fold once every bucket waits; then the column sums are exchanged, at once where the exchange
is local, and when the exchange has ended the buckets go on (R372, R384, R385). An exchange that fails leaves them waiting;
one that carried poison ends, and what it touches is poisoned (R385, R397). -/
def execFoldAndExchange (m : Meets Nat) (s : State) : Host.Outcome State Fault Refusal :=
  let entry := m.it
  finish s
    (match shardOf s.dev entry with
     | none => (s.dev, [])
     | some x =>
       if !foldDue s.dev x || !coresRun s.dev then (s.dev, [])
       else
         match x.exch with
         | some n =>
           (match collFind s.dev n with
            | some c =>
              (match c.result with
               | some ps =>
                 wOut (niSettle (foldEnd (wDev (workOf s) (fun d => modColl d n (fun c => { c with phase := 2 }))) entry x
                   (ps.map (fun p => (p.val, p.bad)))))
               | none => if c.status != 0 then wOut (wDev (workOf s) (fun d => addCode d 4)) else (s.dev, []))
            | none => (s.dev, []))
         | none =>
           let w0 := wDev (wErrs m.errs (workOf s)) (fun d => startBuild d entry)
           let w := foldRows w0 entry x
           let vec := exchVector w x
           if exchanges (progOf w.dev (shProg x)) x then
             let c := exchColl w.dev w.mem entry x vec
             let w1 := wDev (xbufOwn w x vec) (fun d => modShard { d with ni := { d.ni with colls := d.ni.colls ++ [c], nextColl := d.ni.nextColl + 1 } }
               entry (fun x => { x with exch := some c.num }))
             wOut (collBegin w1 c)
           else wOut (foldEnd w entry x vec))

/-! ### Sparse shards (R386, R387) -/

/-- The list of a sparse shard: its indices and rows in FP32, in order, each value with its taint (R397). -/
structure SparseList where
  idx : List Nat
  rows : List (List (W32 × Bool))
  /-- An index reads poisoned. -/
  bad : Bool

/-- The landed lists read. -/
def sparseRead (w : Work) (x : Shard) : SparseList :=
  let n := shN x 188 4
  let v := localView w.dev w.mem
  let fmt := natBits x.landed 4 4
  let row := shRowLen x
  let at_ := fun a k => (leNat ((rangeFrom a k).map v.byte), (rangeFrom a k).any v.bad)
  let is := (rangeFrom 0 n).map (fun i => at_ (shN x 160 8 + 4 * i) 4)
  ⟨is.map (fun i => i.1), (rangeFrom 0 n).map (fun i => (rangeFrom 0 row).map (fun j =>
      let e := at_ (shN x 168 8 + (i * row + j) * elemSize fmt) (elemSize fmt)
      (wide fmt e.1, e.2))), is.any (fun i => i.2)⟩

/-- One distinct row's entries summed in FP32, in list order (R386). -/
def sparseSum (l : SparseList) (r : Nat) : List (W32 × Bool) :=
  match ((l.idx.zip l.rows).filter (fun p => p.1 == r)).map (fun p => p.2) with
  | [] => []
  | v :: t => t.foldl (fun a b => (a.zip b).map (fun p => (f32Add p.1.1 p.2.1, p.1.2 || p.2.2))) v

/-- Rows as they are staged in the bucket slots, from their start (R386). -/
def sparseStage (w : Work) (x : Shard) (rows : List (List (W32 × Bool))) : Work :=
  wMem w (wrBytes (bktBase (shFirst x)) ((rows.flatMap (fun r => r)).flatMap (fun v => leBytes 4 v.1.toNat)))

/-- Elements as bytes, each byte with the taint of what it holds (R397). -/
def packTaint (fmt : Nat) (vs : List (Nat × Bool)) : List (Byte × Bool) :=
  let per := if fmt = 3 then 2 else 1
  (chunksOf per vs.length vs).flatMap (fun p => (packElems fmt (p.map (fun v => v.1))).map (fun b => (b, p.any (fun v => v.2))))

/-- A row of the row log: row, address in the table, and bytes. -/
abbrev LogRow := Nat × Nat × List (Byte × Bool)

/-- The program run on one distinct row; its output rows, in stream order (R386). -/
def sparseRow (w : Work) (t : Nat) (x : Shard) (r : Nat) (sum : List (W32 × Bool)) : Work × List LogRow :=
  let b := progOf w.dev (shProg x)
  let ws := passInstrs b false
  let row := shRowLen x
  let l := sum.zipIdx.foldl (fun l g =>
    ws.foldl (laneStep w.dev w.mem ⟨x, b, 0, r * row + g.2, r, g.2, g.1⟩) (laneStart l (w.dev.free + 8 * g.2)))
    (⟨[], 0, 0, [], [], false⟩ : Lane)
  let d1 := { w.dev with free := w.dev.free + 8 * row }
  let d2 := raiseUf (countClips d1 t 0 l.clips) t 0 l.flags
  let d3 := if l.bad then poisonRead d2 t (shFirst x) else d2
  let outs := (rangeFrom 0 4).filterMap (fun i =>
    if !pgWritesOut b i then none
    else (streamDesc w.dev x (4 + i) 0).map (fun td =>
      if pgOutKind b i = 1 then
        (r, elemAddr td (r * row), packTaint (pgOutFmt b i) ((l.outs.filter (fun o => o.1 == i)).map (fun o => o.2.2)))
      else
        let v := localView w.dev w.mem
        let s := smapGet l.parts (sumKey i 0 r) 0#32
        let bad := (smapFind l.parts (sumKey (i + 4) 0 r)).isSome || (pgOutKind b i != 4 && elemBad v td r)
        (r, elemAddr td r, packTaint td.fmt [(foldValue b i (pgOutKind b i) td.fmt (wide td.fmt (elemRaw v td r)) s, bad)])))
  ({ w with dev := d3 }, outs)

/-- Distinct rows updated in ascending order, in rounds that fit the staging rows; the second result says whether the log
overflowed (R386, R387). -/
def sparseRows (w : Work) (t : Nat) (x : Shard) (cap : Nat) (log : List LogRow) (rows : List (Nat × List (W32 × Bool))) :
    Work × List LogRow × Bool :=
  match rows with
  | [] => (w, log, false)
  | p :: rest =>
    let r := sparseRow w t x p.1 p.2
    let all := log ++ r.2
    if cap < all.length then (r.1, log, true) else sparseRows r.1 t x cap all rest

/-- Bytes written one after another from device-local address `a`, poisoned where they are tainted. -/
def writeTaint (w : Work) (a : Nat) (bs : List (Byte × Bool)) : Work :=
  wMem w (storeCells w.dev w.mem (bs.zipIdx.map (fun b => (memKey (a + b.2), b.1.1, b.1.2)))).1

/-- The row log as it stands at LOG, row after row (R386; assumption log 145, DESIGN CHOICE). -/
def writeLog (w : Work) (x : Shard) (log : List LogRow) : Work :=
  let bs := log.flatMap (fun e => e.2.2)
  let a := shN x 176 8
  match spanRegion w.dev.boot.part a (a + (bs.length - 1)) with
  | .spread => writeTaint w a bs
  | .dieLocal _ => writeTaint w a bs
  | .spad _ => writeTaint w a bs
  | _ => w

/-- The sparse update of a shard, once both its CA2As have completed OK (R386, R387). -/
def execSparseUpdate (m : Meets Nat) (s : State) : Host.Outcome State Fault Refusal :=
  let entry := m.it
  finish s
    (match shardOf s.dev entry with
     | none => (s.dev, [])
     | some x =>
       if shKind x ≠ 3 ∨ x.updated ∨ x.landed % 4 ≠ 3 ∨ !coresRun s.dev then (s.dev, [])
       else
         let w0 := wErrs m.errs (workOf s)
         let l := sparseRead w0 x
         let ok := fun i => i != 0xFFFFFFFF && decide (i < shRows x)
         let wrong := l.idx.any (fun i => i != 0xFFFFFFFF && !ok i)
         let w1 := wDev w0 (fun d =>
           let d1 := if wrong then raiseUf d entry 0 ufInvalid else d
           if l.bad then poisonRead d1 entry (shFirst x) else d1)
         let rows := ((sortNats (l.idx.filter ok)).map (fun r => (r, sparseSum l r)))
         let per := max 1 (shBuckets x * 8192 / max 1 (shRowLen x))
         let w2 := (chunksOf per rows.length rows).foldl (fun w c => sparseStage w x (c.map (fun p => p.2))) w1
         let r := sparseRows w2 entry x (shN x 188 4) [] rows
         let d1 := modShard r.1.dev entry (fun x => { x with updated := true, log := r.2.1 })
         wOut (writeLog { r.1 with dev := if r.2.2 then addCode d1 4 else d1 } x r.2.1))

/-- A row log applied to its table in ascending row order (R387). -/
def applyLog (w : Work) (t : Nat) : Work :=
  match shardOf w.dev t with
  | none => w
  | some x =>
    let w1 := (sortNats (x.log.map (fun e => e.1))).foldl (fun w r =>
      (x.log.filter (fun e => e.1 == r)).foldl (fun w e => writeTaint w e.2.1 e.2.2) w) w
    wDev w1 (fun d => modShard d t (fun x => { x with log := [] }))

end Sys2Proof.Machine
end

