-- ==== Sys2Proof/Machine/Commit.lean ====
section
/-! DEFINITION. The step commit: the vote, its result, the flip, aborts and undecided steps (R388 to R395, R588). -/

namespace Sys2Proof.Machine

/-- COMMIT_STATUS.STATE set: 0 RUNNING, 1 VOTED, 2 APPLYING, 3 ABORTING, 4 UNDECIDED. -/
def setCommit (d : Dev) (st : Nat) : Dev := regPutField d 0x1200030 0 3 st

/-- Whether an active shard is complete (R391). -/
def shardComplete (d : Dev) (x : Shard) : Bool :=
  if shKind x = 1 then (shSlots x).all (fun s => bktState d s == 5) else if shKind x = 3 then x.updated else true

/-- The active shards: UPDATE and SPARSE entries that count toward the commit. -/
def activeShards (d : Dev) : List (Nat × Shard) := d.upd.shards.filter (fun e => shActive e.2 && shKind e.2 != 2)

/-- Whether every active shard is complete. -/
def allComplete (d : Dev) : Bool := (activeShards d).all (fun e => shardComplete d e.2)

/-- COMMIT_CTL.HOLD -/
def commitHold (d : Dev) : Bool := natBit (regNat d 0x1200028) 0

/-- The abort codes that apply to this device's step (R391). -/
def voteCodes (d : Dev) : List Nat :=
  let nonfin := d.upd.shards.any (fun e => natBit e.2.flags 3) && !natBit (regNat d 0x1200010) 4
  let poison := (allSlots d).any (fun s => bktPoison d s)
  d.upd.codes ++ (if nonfin then [1] else []) ++ (if poison then [3] else []) ++ (if d.boot.voteRetired then [5] else []) ++
    (if regField d 0x1200000 0 16 = 0 then [6] else [])

/-- RANK, SIZE, FANOUT and COLL_ID of the commit group. -/
def groupField (d : Dev) (lo w : Nat) : Nat := natBits (regNat64 d 0x1200020) lo w

/-- Whether the commit group passes its check (R588). -/
def groupGood (d : Dev) (m : Mem) : Bool :=
  let size := groupField d 16 17
  let rank := groupField d 0 16
  let fan := groupField d 33 4
  let a := natBits (regNat64 d 0x1200018) 0 42
  let hi := a + 2 * size - 1
  let list := readGroup m a size
  decide (1 ≤ size ∧ size ≤ 65536) && decide (rank < size) && decide (1 ≤ fan) && a % 2 == 0 &&
    (match spanRegion d.boot.part a hi with
     | .unmapped => false
     | .accStore => false
     | .mirror _ => false
     | .spad n => corePresent d n
     | _ => !viewClash d a hi) &&
    listGet list rank 0 == ownNode d && !hasTwice list

/-- FP32 bits of a small number. -/
def smallFloat (k : Nat) : W32 := fTo32 (fOfInt k)

/-- The vote cast, or, with a bad commit group, left waiting (R391, R588). A device whose die link has failed casts none
(R473). -/
def castVote (w : Work) (owner : Bool) : Work :=
  let d := w.dev
  if d.boot.linkDead then w
  else if !groupGood d w.mem then
    wRec (wDev w (fun d => { d with upd := { d.upd with waiting := true, codes := if owner then keyInsert d.upd.codes 7 else d.upd.codes } }))
      (recOf 0x0C54 2 0xFF (updDetail 0 0 0 0))
  else
    let code := (voteCodes d).foldl max (if owner then 7 else 0)
    let size := groupField d 16 17
    let rank := groupField d 0 16
    let own : List Pair := [⟨smallFloat code, rank, rank, false⟩, ⟨0#32, 0xFFFFFFFF - gridBeat d (gtimeNs d) % 2 ^ 32, rank, false⟩]
    let c : Coll := { collReset with
      num := d.ni.nextColl, core := 0xFFFF, kind := 16, id := groupField d 48 16, epoch := epochNow d
      group := readGroup w.mem (natBits (regNat64 d 0x1200018) 0 42) size, size := size, rank := rank, root := 0
      fan := groupField d 33 4, count := 2, step := d.upd.round, partials := [(partKey size 0, own)] }
    let w1 := wDev w (fun d => setCommit { d with
      upd := { d.upd with waiting := false, result := none }
      boot := { d.boot with voteRetired := false }
      ni := { d.ni with colls := d.ni.colls ++ [c], nextColl := d.ni.nextColl + 1 } } 1)
    collBegin w1 c

/-- A device whose shards are complete casts its vote (R391, R395). -/
def execCommitVote (s : State) : Host.Outcome State Fault Refusal :=
  let d := s.dev
  finish s
    (if commitEnabled d && commitState d == 0 && !d.upd.waiting && allComplete d && !commitHold d then wOut (castVote (workOf s) false)
     else (d, []))

/-- The grid beat nearest the current one whose low 32 bits are `low` (R392). -/
def nearBeat (d : Dev) (low : Nat) : Nat :=
  let g := gridBeat d (gtimeNs d)
  let up := (low + 2 ^ 32 - g % 2 ^ 32) % 2 ^ 32
  if up < 2 ^ 31 ∨ g < 2 ^ 32 - up then g + up else g - (2 ^ 32 - up)

/-- LEAD_BEATS in effect (R398). -/
def leadBeats (d : Dev) : Nat := max 1 (regField d 0x1200010 1 3)

/-- A shard's step ends: its partials, flags and lists are empty again. -/
def shardFresh (x : Shard) : Shard :=
  { x with clips := 0, flags := 0, parts := [], xsum := 0#32, xsumBad := false, folded := false, exch := none, landed := 0, updated := false, log := [] }

/-- A new step begins: buckets reopen, codes go, and exchanges still here are dropped. -/
def stepBegin (w : Work) : Work :=
  let w1 := bktReopenAll w
  wDev w1 (fun d => { d with
    upd := { d.upd with codes := [], result := none, waiting := false, round := d.upd.round + 1 }
    ni := { d.ni with colls := d.ni.colls.map (fun c => if c.kind = 16 ∨ c.kind = 17 then { c with phase := 2 } else c) } })

/-- Event counter EVN of every started core is signalled (R392). -/
def commitSignal (d : Dev) : Dev :=
  if natBit (regNat d 0x1200010) 5 then
    (rangeFrom 0 (coresTotal d)).foldl (fun e n =>
      if (rangeFrom 0 8).any (fun c => ctxLive (ctxOf (coreOf e n) c)) then addEvent e n (regField d 0x1200010 6 6) 1 else e) d
  else d

/-- Every shard's version flips, and the next step begins (R392). -/
def commitFlip (w : Work) : Work :=
  let w1 := wDev w (fun d => { d with upd := { d.upd with shards := d.upd.shards.map (fun e =>
    (e.1, if shKind e.2 = 1 ∧ shActive e.2 then
            shardFresh { e.2 with cur := 1 - e.2.cur, version := (e.2.version + 1) % 2 ^ 32, other := 0, held := true }
          else if shKind e.2 = 3 then
            shardFresh { e.2 with version := if shActive e.2 then (e.2.version + 1) % 2 ^ 32 else e.2.version }
          else e.2)) } })
  let w2 := wDev (stepBegin w1) (fun d => setCommit (regBump (regPut64 d 0x1200038 (regNat64 d 0x1200038 + 1)) 0x1200048 1) 0)
  wBoth (wDev (niSettle w2) commitSignal) stepBoundary

/-- The row logs of all sparse shards applied (R387, R392). -/
def applyLogs (w : Work) : Work := ((w.dev.upd.shards.filter (fun e => shKind e.2 == 3)).map (fun e => e.1)).foldl applyLog w

/-- The building state is discarded, and the step is run again (R393). -/
def commitAbort (w : Work) (code rank : Nat) : Work :=
  let d0 := w.dev
  let waits := fun (q : GatherReq) => match gatherJudge d0 q.tensor q.version q.count q.fmt with | .wait => true | _ => false
  let own := d0.ni.colls.filter (fun c => c.kind == 1 && c.phase == 1 && !c.got.contains c.rank &&
    waits ⟨0, 0, dword c.block 3 32 16, dword c.block 3 0 32, c.count, c.fmt, 0⟩)
  let d1 := d0.ni.streams.foldl (fun e st => (st.2.reqs.filter waits).foldl (fun f q =>
    modStream (sendNotice f st.1 1 q.coll) st.1 (fun x => { x with reqs := x.reqs.erase q })) e) d0
  let d2 := own.foldl (fun e c => failRank e c.num c.rank 3) d1
  let d3 := { d2 with upd := { d2.upd with shards := d2.upd.shards.map (fun e =>
    (e.1, if shKind e.2 = 1 ∧ shActive e.2 then shardFresh { e.2 with other := 0, held := e.2.held && e.2.other == 0 }
          else if shKind e.2 = 3 then shardFresh e.2 else e.2)) } }
  let w1 := stepBegin { w with dev := d3 }
  let w2 := wDev w1 (fun d =>
    let d1 := regPutField (regPutField (regBump d 0x120004C 1) 0x1200030 8 8 code) 0x1200030 16 16 rank
    postRecord (setCommit d1 0) (recOf 0x0C50 0 0xFF (updDetail 0 0 code rank)))
  wBoth (niSettle w2) stepBoundary

/-- The vote's result arrives: row logs are applied and the flip awaits its beat, or the step is aborted (R392, R393). -/
def execCommitResult (s : State) : Host.Outcome State Fault Refusal :=
  let d := s.dev
  finish s
    (match commitState d, d.upd.result with
     | 1, some (code, rank, g) =>
       if code = 0 then
         let w := wDev (workOf s) (fun d => regPut64 (setCommit d 2) 0x1200040 (nearBeat d ((g + leadBeats d) % 2 ^ 32)))
         wOut (applyLogs w)
       else wOut (commitAbort (workOf s) code rank)
     | _, _ => (d, []))

/-- The start of the commit beat: every shard flips. A flip later than that is recorded (R392). -/
def execCommitFlip (s : State) : Host.Outcome State Fault Refusal :=
  let d := s.dev
  let start := beatT0 d + regNat64 d 0x1200040 * beatLen d
  finish s
    (if commitState d = 2 ∧ start ≤ gtimeNs d then
      let w := workOf s
      wOut (commitFlip (if start < gtimeNs d then wRec w (recOf 0x0C51 0 0xFF (updDetail 0 0 0 0)) else w))
     else (d, []))

/-- The vote fails, or its timer expires (`expired`), before a result arrives: the device waits for its owner (R394). -/
def execCommitUndecided (expired : Bool) (s : State) : Host.Outcome State Fault Refusal :=
  let d := s.dev
  let votes := d.ni.colls.filter (fun c => c.kind == 16 && c.phase == 1)
  finishDev s
    (if commitState d = 1 ∧ d.upd.result.isNone ∧ (expired ∨ votes.any (fun c => c.status != 0)) then
      let d1 := votes.foldl (fun e c => modColl (collStop e c.num) c.num (fun c => { c with phase := 2, released := true, kids := [], parent := c.rank })) d
      postRecord (setCommit d1 4) (recOf 0x0C53 0 0xFF (updDetail 0 0 0 0))
     else d)

/-- FORCE_ABORT on an undecided step (R394). -/
def forceAbort (w : Work) : Work := commitAbort w 7 (groupField w.dev 0 16)

/-- FORCE_COMMIT on an undecided step: only when every active shard is complete (R394). -/
def forceCommit (w : Work) : Work :=
  if allComplete w.dev then
    commitFlip (applyLogs (wDev w (fun d => regPut64 d 0x1200040 (gridBeat d (gtimeNs d)))))
  else wRec w (recOf 0x0C52 2 0xFF (updDetail 0 0 0 0))

/-- COMMIT_CTL written: HOLD, then the first of FORCE_ABORT, FORCE_COMMIT and ABORT that applies (R391, R394, R395). -/
def commitCtlWrite (w : Work) (v : Nat) : Work :=
  let w1 := wDev w (fun d => regPutField d 0x1200028 0 1 v)
  let undecided := commitState w1.dev == 4
  if natBit v 3 && undecided then forceAbort w1
  else if natBit v 2 && undecided then forceCommit w1
  else if natBit v 1 && commitState w1.dev == 0 && commitEnabled w1.dev then castVote w1 true
  else w1

/-- COMMIT_GROUP or COMMIT_GROUP_ADDR rewritten: a vote that waits for a good group is tried again (R588). During a hold only
an ABORT's vote is cast; another is due again, under a good group, when the hold ends (R391, R395). -/
def groupRecheck (w : Work) : Work :=
  let owner := w.dev.upd.codes.contains 7
  if !w.dev.upd.waiting || commitState w.dev != 0 then w
  else if commitHold w.dev && !owner && groupGood w.dev w.mem then wDev w (fun d => { d with upd := { d.upd with waiting := false } })
  else castVote w owner

end Sys2Proof.Machine
end

