-- ==== Sys2Proof/Machine/Power.lean ====
section
/-! DEFINITION. Power states: the answers of the blocks, entries, what an exit leaves, wakes, the power cap and the throttle
of the dies (R434, R435, R532 to R550, R578). -/

namespace Sys2Proof.Machine

/-! ### Answers (R536, R537) -/

/-- Contexts of core `n` that make its sequencer refuse state `t`. -/
def coreRefuses (d : Dev) (t n : Nat) : Bool :=
  coreInService d n && (rangeFrom 0 8).any (fun c =>
    let st := (ctxOf (coreOf d n) c).st
    decide (1 ≤ st ∧ st ≤ 4) || (st == 5 && decide (2 ≤ t)))

/-- Whether an update engine refuses P2 and P3. -/
def updRefuses (d : Dev) : Bool := (allSlots d).any (fun s => decide (1 < bktState d s)) || commitState d != 0

/-- UNITs that refuse state `t`, lowest first. -/
def refusers (d : Dev) (t : Nat) : List Nat :=
  ((rangeFrom 0 (coresTotal d)).filter (coreRefuses d t)).map (fun n => 0x0300 + n) ++
    (if 2 ≤ t ∧ (sliceValid d ∨ d.ni.colls.any (fun c => c.phase < 2)) then [0x0BFF] else []) ++
    (if 2 ≤ t ∧ updRefuses d then ((rangeFrom 0 16).filter (fun e => natBit (regNat d 0x1200000) e)).map (fun e => 0x0C00 + e) else []) ++
    (if bootReady d then [] else [0x10FF])

/-- Whether a lane of port `p` is being relocked. -/
def relocking (d : Dev) (p : Nat) : Bool :=
  (rangeFrom 0 8).any (fun l => laneAway d p l && !natBit (failedLanes d p) l)

/-- Whether the security engine verifies or signs. -/
def securityBusy (d : Dev) : Bool :=
  !d.own.verifying.isEmpty || !d.own.attestQueue.isEmpty || d.own.fwUpd == 1 || d.own.keyUpd == 1

/-- UNITs that ask for a delay, lowest first. -/
def delayers (d : Dev) : List Nat :=
  ((rangeFrom 0 7).filter (relocking d)).map (fun p => 0x0800 + p) ++
    ((rangeFrom 0 32).filter (fun q => calBusy d (7 + q) || hoHolds d (7 + q) || relocking d (7 + q))).map (fun q => 0x0900 + q) ++
    ((rangeFrom 0 16).filter (fun e => (smapFind d.upd.running e).isSome)).map (fun e => 0x0C00 + e) ++
    (if securityBusy d then [0x0FFF] else []) ++
    (if !d.boot.due.isEmpty || decide (d.boot.daysDone < d.boot.opSeconds / 86400) then [0x10FF] else [])

/-- Every block is asked: a refusal abandons the entry, a delay leaves it waiting, else it is accepted. -/
def pollBlocks (d : Dev) : Dev :=
  match refusers d d.pwr.target with
  | u :: _ => abandonEntry d u 1
  | [] => if (delayers d).isEmpty then { d with pwr := { d.pwr with accepted := true } } else d

/-- GO with TARGET `t`: ignored with TARGET 0, during an entry, or outside P0 (R536). -/
def pwrGo (d : Dev) (t : Nat) : Dev :=
  if t = 0 || d.pwr.entering || d.pwr.st != 0 || d.pwr.tripped || d.own.epo then d
  else pollBlocks { d with pwr := { d.pwr with
    entering := true, target := t, accepted := false, goTime := gtimeNs d, latched := false } }

/-- PWR_CTL written; a write with GO that is ignored leaves TARGET too (R536; assumption log 151, DEDUCED). -/
def pwrCtlWrite (d : Dev) (v : Nat) : Dev :=
  let d1 := regPutField d 0x3800000 0 2 v
  if !natBit v 2 then d1
  else if v % 4 = 0 || d.pwr.entering || d.pwr.st != 0 then d
  else pwrGo d1 (v % 4)

/-- Whether an entry waits for answers. -/
def entryWaits (d : Dev) : Bool := d.pwr.entering && !d.pwr.accepted

/-- ENTRY_REASK (R536). -/
def execEntryReask (s : State) : Host.Outcome State Fault Refusal :=
  finishDev s (if entryWaits s.dev then pollBlocks s.dev else s.dev)

/-- DELAY_MAX_US in effect, in nanoseconds (R551). -/
def delayMaxNs (d : Dev) : Nat :=
  let v := regNat d 0x3800008
  (if v = 0 then 100 else v) * 1000

/-- ENTRY_DELAY_EXPIRED (R537). -/
def execEntryDelayExpired (s : State) : Host.Outcome State Fault Refusal :=
  let d := s.dev
  finishDev s (if entryWaits d ∧ d.pwr.goTime + delayMaxNs d < gtimeNs d then
    match delayers d with
    | u :: _ => abandonEntry d u 2
    | [] => pollBlocks d
  else d)

/-! ### The end of an entry (R434, R535, R538, R539) -/

/-- Time runs from the local oscillator while the device sleeps (R257, R535). -/
def sleepTime (d : Dev) : Dev :=
  if d.tm.st = 0 then d
  else { d with tm := { d.tm with
    st := 3, root := false, parent := 63, heard := staleHeard d.tm.heard, good := 0, slew := 0 } }

/-- Optical ports in service stand by (R434, R438). -/
def portsStandBy (d : Dev) : Dev :=
  (rangeFrom 7 32).foldl (fun e p => if portSt e p = 2 then regPutField e (optOff p) 0 4 5 else e) d

/-- Board ports in service go down with their links. -/
def boardPortsDown (d : Dev) : Dev :=
  (rangeFrom 0 7).foldl (fun e p =>
    if portSt e p = 2 then
      modLink (regPutField (regPutField (regPutField e (portOff p) 0 3 0) (portOff p) 3 8 0) (portOff p) 11 1 0) p linkDown
    else e) d

/-- Every port that is up writes its MODE in its markers (R434). -/
def tellMode (d : Dev) : Dev := (upPorts d).foldl (fun e p => emit e (.markers p (laneMarkers e p))) d

/-- The device is in state `t`: P2 and P3 are told to every partner as STANDBY and SLEEP (R434). -/
def enterState (d : Dev) (t : Nat) : Dev :=
  let d0 := { d with pwr := { d.pwr with st := t, entering := false, accepted := false } }
  let d1 := if 2 ≤ t then tellMode d0 else d0
  let d2 := if t = 2 then portsStandBy (sleepTime d1) else if t = 3 then boardPortsDown (lasersOff (sleepTime d1)) else d1
  if d2.pwr.latched then
    beginExit { d2 with pwr := { d2.pwr with latched := false } } d2.pwr.latchSrc
  else d2

/-- ENTRY_COMPLETE (R538, R539). -/
def execEntryComplete (s : State) : Host.Outcome State Fault Refusal :=
  let d := s.dev
  finishDev s (if d.pwr.entering ∧ d.pwr.accepted then enterState d d.pwr.target else d)

/-! ### What an exit leaves (R533, R534) -/

/-- RETAIN_MASK.BANKS -/
def retainMask (d : Dev) : Nat := natBits (regNat64 d 0x3800018) 0 48

/-- Core `n` after P2 or P3: everything at reset but its place in the map and its physical condition, the program loaded
again, and the banks outside `keep` undefined; `beat` is BEAT_CTL.ENABLE, which a core without started contexts follows at once
(R39, R69, R265, R534). -/
def exitCore (beat : Bool) (d : Dev) (m : Mem) (keep n : Nat) : Dev × List MemOp :=
  let k := coreOf d n
  if 2 ≤ k.mapState then (d, [])
  else
    let store := match k.image with | some (a, len) => imageStore m a len | none => []
    let s := freshSalt (clearCoreBlock d n)
    (setCore s.2 n { coreReset with
      istore := store, image := k.image, mapState := k.mapState, phys := k.phys, stopped := k.stopped, health := k.health
      beat := { coreReset.beat with enabled := beat } },
     [.undef ⟨spadBase n, spadBase n + 0x600000, s.1, keep, 0, 0⟩])

/-- Every core after P2 or P3. -/
def exitCores (beat : Bool) (d : Dev) (m : Mem) (keep : Nat) (ns : List Nat) : Dev × List MemOp :=
  match ns with
  | [] => (d, [])
  | n :: t =>
    let r := exitCore beat d m keep n
    let q := exitCores beat r.1 m keep t
    (q.1, r.2 ++ q.2)

/-- Stacks that STACK_RETAIN leaves off. -/
def stacksOff (d : Dev) : List Nat := (rangeFrom 0 20).filter (fun k => !natBit (regNat d 0x3800020) k && !(stackOf d k).failed)

/-- Poison that line entries of the ledger call for in stack `k` (R243). -/
def stackPoison (l : List LedgerEntry) (k : Nat) : List MemOp := ledgerPoison (l.filter (fun e => e.unit % 2048 / 64 == k || e.kind != 2))

/-- Stack `k`, which was off, is trained and tested as at stage 4, its contents undefined (R533). -/
def exitStack (r : StageResult) (d : Dev) (k : Nat) : Dev × List MemOp :=
  let s := freshSalt d
  let t := (r.stackRes.find? (fun t => t.1 == k)).getD (k, 0, 64)
  (trainStack s.2 t, .undef ⟨64 * k * 0x30000000, 64 * (k + 1) * 0x30000000, s.1, 0, 0, 0⟩ :: stackPoison d.boot.ledger k)

/-- Every stack that was off. -/
def exitStacks (r : StageResult) (d : Dev) (ks : List Nat) : Dev × List MemOp :=
  match ks with
  | [] => (d, [])
  | k :: t =>
    let x := exitStack r d k
    let q := exitStacks r x.1 t
    (q.1, x.2 ++ q.2)

/-- Registers that P3 keeps: the always-on state, what flash holds, and the update engines in service (R534, R551). -/
def keptP3 (off : Nat) : Bool :=
  [0x10, 0x800, 0x804, 0x1200000, 0x3C00010, 0x3C00030, 0x3C00034, 0x3C00050, 0x3C00054, 0x3C00058].contains off ||
    decide (0x100000 ≤ off ∧ off < 0x200000) || decide (0x3800000 ≤ off ∧ off < 0x3C00000)

/-- Ports retired, or kept out for their wiring, until the next start stay so (R292, R312). -/
def keepRetired (was d : Dev) : Dev :=
  allPorts.foldl (fun e p =>
    if portSt was p = 3 then
      (let e1 := regPutField e (portOff p) 0 3 3
       if isOptical p then regPutField e1 (optOff p) 0 4 7 else e1)
    else if portSt was p = 4 then regPutField (regPutField e (portOff p) 0 3 4) (portOff p) 16 16 (regField was (portOff p) 16 16)
    else e) d

/-- Everything but the always-on state at its reset value (R534). -/
def wipeP3 (d : Dev) : Dev :=
  keepRetired d { d with
    regs := smapDrop d.regs (fun o => !keptP3 o)
    fab := fabReset
    ni := niReset
    upd := updReset
    opt := { d.opt with lanes := [], ports := [] }
    host := { hostReset with later := d.host.later }
    mon := { monReset with mode := d.mon.mode }
    rcd := rcdReset }

/-- The accumulation store after a reset of the network die. -/
def accUndef (salt : Nat) : MemOp := .undef ⟨0x21000000000, 0x21008000000, salt, 0, 0, 0⟩

/-- Bands of the device's memory that become undefined: one MiB of each in every pseudo-channel (R23, R26). -/
def bandsUndef (salt : Nat) (bs : List Nat) : List MemOp :=
  bs.map (fun b => .undef ⟨b * 0x100000, 1280 * 0x30000000, salt, 0, 0x30000000, 0x100000⟩)

/-- Enabled ports that are neither retired nor miswired train again (R292, R533). -/
def retrainPorts (d : Dev) : Dev :=
  let d1 := (rangeFrom 0 7).foldl (fun e p => if boardEnabled e p && decide (portSt e p < 3) then regPutField e (portOff p) 0 3 1 else e) d
  (rangeFrom 7 32).foldl (fun e p =>
    if optEnabled e (p - 7) && decide (portSt e p < 3) then regPutField (regPutField e (portOff p) 0 3 1) (optOff p) 0 4 1 else e) d1

/-- The end of an exit from P2: the ports in standby are up again. -/
def portsResume (d : Dev) : Dev :=
  (rangeFrom 7 32).foldl (fun e p => if regField e (optOff p) 0 4 = 5 then regPutField e (optOff p) 0 4 3 else e) d

/-- The registers of an ended exit: the state, LAST_EXIT, and the monitor's line (R551, R562). -/
def exitEnd (d : Dev) (say : Bool) : Dev :=
  let d1 := regPutNat { d with pwr := { d.pwr with st := 0, exiting := false } } 0x3800030 ((d.boot.aonNs - d.pwr.exitAt) / 1000)
  if say then monSay d1 [.txt "!W", .dec d.pwr.lastWake] else d1

/-- An exit from P1: every core wakes (R541). -/
def exitP1 (d : Dev) : Dev := (rangeFrom 0 (coresTotal d)).foldl wakeCore (exitEnd d false)

/-- An exit from P2, with the training results of the stacks that were off; handovers that waited for it start (R550). -/
def exitP2 (d : Dev) (m : Mem) (r : StageResult) : Dev × List MemOp :=
  let a := exitStacks r d (stacksOff d)
  let b := exitCores (beatEnable a.1) a.1 (memApplyAll m a.2) (retainMask d) (rangeFrom 0 (coresTotal d))
  ((rangeFrom 0 8).foldl tryHandovers (chooseRoot (exitEnd (portsResume b.1) true)), a.2 ++ b.2)

/-- An exit from P3, with the training results of the stacks that were off and of the board ports. -/
def exitP3 (d : Dev) (m : Mem) (r : StageResult) : Dev × List MemOp :=
  let a := exitStacks r d (stacksOff d)
  let b := exitCores false a.1 (memApplyAll m a.2) 0 (rangeFrom 0 (coresTotal d))
  let s := freshSalt b.1
  let bands := (rangeFrom 0 (partBands d.boot.part)).filter (bandLocal d)
  let d1 := retrainPorts (wipeP3 s.2)
  let d2 := (r.ports.filter (fun t => t.port < 7 && portSt d1 t.port == 1)).foldl trainBoard d1
  (chooseRoot (exitEnd (dropTraining d2 (rangeFrom 0 7)) true), a.2 ++ b.2 ++ [accUndef s.1] ++ bandsUndef s.1 bands)

/-! ### Wakes (R542 to R544, R578) -/

/-- MON_RXD_WAKE: the pin is held low for 4 µs or longer (R542). -/
def execMonRxdWake (s : State) : Host.Outcome State Fault Refusal := finishDev s (wakeDevice s.dev 4)

/-- OPTICAL_WAKE_PATTERN: the pattern is detected on lane 0 of optical port `port` (R435, R542). -/
def execOpticalWakePattern (port : Nat) (s : State) : Host.Outcome State Fault Refusal :=
  finishDev s (if isOptical port ∧ portSt s.dev port ≠ 3 then wakeDevice s.dev 3 else s.dev)

/-- BOARD_WAKE_PATTERN: the pattern is detected on lane 0 of board port `port` (R542, R543). -/
def execBoardWakePattern (port : Nat) (s : State) : Host.Outcome State Fault Refusal :=
  finishDev s (if port < 7 ∧ portSt s.dev port ≠ 3 then wakeDevice s.dev 2 else s.dev)

/-- WAKE_N released. -/
def wakeNRelease (d : Dev) : Dev :=
  if d.pwr.wakeN then emit { d with pwr := { d.pwr with wakeN := false } } (.pin "WAKE_N" true) else d

/-- WAKE_N_RELEASE: 100 ms have passed (R578). -/
def execWakeNRelease (s : State) : Host.Outcome State Fault Refusal :=
  let d := s.dev
  finishDev s (if d.pwr.wakeN ∧ d.pwr.wakeAt + 100000000 ≤ d.boot.aonNs then wakeNRelease d else d)

/-- PCIE_L1_EXIT: the host brings the link out of L1 or L1.2, or it reaches L0 (R542, R578). -/
def execPcieL1Exit (s : State) : Host.Outcome State Fault Refusal :=
  let d1 := wakeNRelease { s.dev with host := { s.dev.host with linkUp := true } }
  finishDev s (wakeDevice d1 1)

/-- WAKE_SEND: a device in P0 sends the wake pattern on each named port whose partner last showed STANDBY or SLEEP
(R544). -/
def wakeSendWrite (d : Dev) (ports : Nat) : Dev :=
  if d.pwr.st ≠ 0 then d
  else allPorts.foldl (fun e p =>
    let far := (linkOf e p).farMode
    if natBit ports p && (far == 2 || far == 3) then emit e (.wakePattern p) else e) d

/-! ### The power cap and the throttle (R545 to R547, R550) -/

/-- PKG_CAP in effect (R551). -/
def pkgCap (d : Dev) : Nat := max 500 (min 2000 (regField d 0x3800040 0 16))

/-- A 1 ms average of package input power in watts, every 100 µs (R545, R547). -/
def powerSample (d : Dev) (w : Nat) : Dev :=
  let d0 := regPutField (regPutField d 0x3800044 0 16 w) 0x3800044 16 16 (max (regField d 0x3800044 16 16) (min w 65535))
  let d1 :=
    if pkgCap d < w then
      if d0.pwr.capping ∧ gtimeNs d < d0.pwr.capAt + 100000 then d0
      else
        let e := if d0.pwr.capping then d0 else regBump d0 0x3800048 1
        { e with pwr := { e.pwr with capClock := e.pwr.capClock - 25, capping := true, capAt := gtimeNs d } }
    else if w * 100 < pkgCap d * 97 ∧ d0.pwr.capClock < 1800 ∧ d0.pwr.capAt + 1000000 ≤ gtimeNs d then
      let c := min 1800 (d0.pwr.capClock + 25)
      { d0 with pwr := { d0.pwr with capClock := c, capAt := gtimeNs d, capping := decide (c < 1800) } }
    else d0
  if 2400 < w then packageTrip d1 3 0 w else d1

/-- PKG_POWER_SAMPLE (R545, R547). -/
def execPkgPowerSample (watts : Nat) (s : State) : Host.Outcome State Fault Refusal := finishDev s (powerSample s.dev watts)

/-- The clock R546 allows die `i`. -/
def thermClock (d : Dev) (i : Nat) : Nat := smapGet d.pwr.clocks i 1800
/-- Die `i` takes a step of its throttle. -/
def thermStep (d : Dev) (i clock : Nat) (on : Bool) : Dev :=
  { d with pwr := { d.pwr with
    clocks := smapSet d.pwr.clocks i clock
    throttled := smapSet d.pwr.throttled i on
    thAt := smapSet d.pwr.thAt i (gtimeNs d) } }

/-- The hottest sensor of die `die` in °C, every 10 µs (R546, R547). -/
def dieSample (d : Dev) (die temp : Nat) : Dev :=
  if 4 ≤ die then d
  else
    let o := 0x3800080 + 4 * die
    let d0 := regPutField d o 8 8 (max (regField d o 8 8) (min temp 255))
    let d1 := { d0 with
      pwr := { d0.pwr with temps := smapSet d0.pwr.temps die (min temp 255) }
      boot := { d0.boot with dayMaxC := max d0.boot.dayMaxC (min temp 255) } }
    let on := smapGet d.pwr.throttled die false
    let at_ := smapGet d.pwr.thAt die 0
    let now := gtimeNs d
    let d2 :=
      if 105 ≤ temp ∧ !on then
        postRecord (regBump (thermStep d1 die (max 400 (dieClock d die - 100)) true) 0x380004C 1) (recOf 0x0E42 0 0xFF [])
      else if 105 ≤ temp ∧ at_ + 100000 ≤ now then thermStep d1 die (max 400 (dieClock d die - 100)) true
      else if temp ≤ 102 ∧ thermClock d die < d.pwr.capClock ∧ at_ + 1000000 ≤ now then
        let c := min d.pwr.capClock (thermClock d die + 100)
        thermStep d1 die c (on && decide (c < d.pwr.capClock))
      else if temp ≤ 102 ∧ on ∧ d.pwr.capClock ≤ thermClock d die then thermStep d1 die (thermClock d die) false
      else d1
    if 115 ≤ temp then packageTrip d2 1 die temp else d2

end Sys2Proof.Machine
end

