-- ==== Sys2Proof/Machine/Reset.lean ====
section
/-! DEFINITION. Resets of the device and of the host port, power-off, the watchdog, and the temperature samples that end a
held reset (R491, R498, R505, R526, R546 to R549, R574 to R577). -/

namespace Sys2Proof.Machine

/-! ### A reset of the device (R445, R448, R491, R492, R551, R576) -/

/-- Registers a reset keeps: what flash holds, and TRIP_CAUSE. -/
def keptReset (off : Nat) : Bool :=
  [0x3C00010, 0x3C00030, 0x3C00034, 0x3C00050, 0x3C00054, 0x3C00058, 0x38000C0].contains off

/-- What flash holds of a bobbin. -/
def flashLaser (x : LaserState) : LaserState := { laserReset with pc := x.pc, pcSpare := x.pcSpare, biasLimit := x.biasLimit }

/-- Bring-up at the start numbered `starts`, with what flash holds. -/
def flashBoot (b : BootState) (starts : Nat) : BootState :=
  { bootReset with
    pennants := [(0, pennantFirst starts)]
    variant := b.variant
    variantGood := b.variantGood
    certSerial := b.certSerial
    ledger := b.ledger
    coreRec := b.coreRec
    faulty := b.faulty
    opSeconds := b.opSeconds
    age := b.age.map (fun e => (e.1, ⟨e.2.commission, 0, 0, none, 0, 0, none, 0⟩))
    ageLog := b.ageLog
    daysDone := b.daysDone }

/-- Security after a reset, with what flash holds and a fresh nonce. -/
def flashOwn (o : OwnState) (nonce : W64) : OwnState :=
  { ownReset with
    nonce := nonce
    slotA := o.slotA
    slotB := o.slotB
    updSerial := o.updSerial
    keys := o.keys
    cert := o.cert }

/-- The device starts again from stage 0 with a reset cause and SLOT_ID; memory holds nothing defined. -/
def resetDevice (d : Dev) (cause slot : Nat) : Dev × List MemOp :=
  let starts := min (regNat d 0x804 + 1) 0xFFFFFFFF
  let n := drawFree d
  let s := freshSalt n.2
  let d1 : Dev := { devReset with
    regs := smapDrop d.regs (fun o => !keptReset o)
    boot := flashBoot d.boot starts
    opt := ⟨[], d.opt.lasers.map (fun e => (e.1, flashLaser e.2)), []⟩
    own := flashOwn d.own n.1
    pwr := { pwrReset with lastWake := d.pwr.lastWake, cause := cause }
    out := d.out
    free := s.2.free }
  let d2 := regPutNat (regPutField d1 0x10 0 3 slot) 0x804 starts
  let d3 := if d.pwr.tripped then emit d2 (.pin "THERMTRIP_N" true) else d2
  (wakeNRelease { d3 with pwr := { d3.pwr with wakeN := d.pwr.wakeN } }, [.undef ⟨0, 2 ^ 42, s.1, 0, 0, 0⟩])

/-- Whether some sensor reads 100 °C or more (R548). -/
def anyHot (d : Dev) : Bool :=
  d.pwr.temps.any (fun e => decide (100 ≤ e.2)) || d.stk.any (fun e => decide (100 ≤ e.2.temp))

/-- A reset, or, while a trip holds and a sensor is hot, one that is held (R548, R549). -/
def resetOrHold (d : Dev) (cause slot : Nat) : Dev × List MemOp :=
  if d.pwr.tripped then
    (if anyHot d then ({ d with pwr := { d.pwr with resetHeld := some slot } }, []) else resetDevice d 4 slot)
  else resetDevice d cause slot

/-- A held reset takes its course once every sensor reads below 100 °C. -/
def releaseHeld (d : Dev) : Dev × List MemOp :=
  match d.pwr.resetHeld with
  | some slot => if anyHot d then (d, []) else resetDevice d 4 slot
  | none => (d, [])

/-- RESET_N low for 10 µs or longer and released, with the SLOT_ID sampled at the release (R576, R577). After a loss of the
always-on supply it is a power-on. -/
def execResetN (slot : Nat) (s : State) : Host.Outcome State Fault Refusal :=
  let d := s.dev
  finish s (resetOrHold d (if d.pwr.aonLost then 0 else 1) slot)

/-- AON_POWER_LOSS: VDD_AON_3V3 below 3.0 V turns every laser off and holds the device in reset, its always-on state lost
(R574). -/
def execAonPowerLoss (s : State) : Host.Outcome State Fault Refusal :=
  let r := resetDevice s.dev 0 0
  let d1 := regPutNat (regPutField (regPutNat r.1 0x38000C0 0) 0x800 4 3 0) 0x804 (regNat s.dev 0x804)
  finish s ({ d1 with
    boot := { d1.boot with pennants := [] }
    pwr := { d1.pwr with lastWake := 0, aonLost := true } }, r.2)

/-! ### The board controller's two requests (R491) -/

/-- EPO: every laser and every supply but the always-on standby off, until a reset. -/
def epoNow (d : Dev) : Dev :=
  let d1 := lasersOff d
  { d1 with
    own := { d1.own with epo := true }
    pwr := { d1.pwr with entering := false, accepted := false, exiting := false, latched := false } }

/-! ### The host port (R498, R505) -/

/-- Registers of the host port: the queues, the windows and the fault ring. -/
def hostPortReg (off : Nat) : Bool :=
  decide (0x8000 ≤ off ∧ off < 0x8400) || decide (0x9000 ≤ off ∧ off < 0x9100) || decide (0x3E00000 ≤ off ∧ off < 0x3E00018)

/-- A context no host queue tracks any more. -/
def untrack (x : Ctx) : Ctx := if (x.track.map (fun t => decide (t.1 < 16))).getD false then { x with track := none } else x

/-- The host port alone is reset. -/
def hostPortReset (d : Dev) : Dev :=
  let d1 : Dev := { d with
    regs := smapDrop d.regs hostPortReg
    cores := d.cores.map (fun e => (e.1, { e.2 with ctxs := e.2.ctxs.map (fun x => (x.1, untrack x.2)) }))
    host := { hostReset with
      running := d.host.running.filter (fun h => decide (16 ≤ h.q))
      phase := d.host.phase.filter (fun p => decide (16 ≤ p.1)) } }
  hostVacates d1

/-- PERST_N or a PCIe hot reset (R505, R542). -/
def execPerstN (s : State) : Host.Outcome State Fault Refusal := finishDev s (wakeDevice (hostPortReset s.dev) 1)

/-- HOST_LINK_DOWN (R498). -/
def execHostLinkDown (s : State) : Host.Outcome State Fault Refusal :=
  finishDev s (hostVacates { s.dev with host := { s.dev.host with linkUp := false } })

/-- FLR: as PERST_N when the host owns the device or no one does; otherwise counted (R505). -/
def execFlr (s : State) : Host.Outcome State Fault Refusal :=
  let d := s.dev
  finishDev s (if isOwner d 1 || d.own.st == 0 then hostPortReset d else regBump d 0x100080 1)

/-! ### The watchdog (R526) -/

/-- Whether the firmware runs. -/
def firmwareRuns (d : Dev) : Bool := d.mon.mode == 1 && decide (d.pwr.st ≤ 2) && !d.pwr.tripped && !d.own.epo

/-- WATCHDOG_KICK. -/
def execWatchdogKick (s : State) : Host.Outcome State Fault Refusal :=
  let d := s.dev
  finishDev s (if firmwareRuns d then { d with own := { d.own with kickAt := d.boot.aonNs } } else d)

/-- The management core starts again with firmware checked and loaded anew (R519, R526, R562). -/
def watchdogRestart (d : Dev) : Dev :=
  let slot := match pickSlot d with | some (i, _) => i | none => d.own.bootSlot
  let d1 := regPutField d 0x3C000C0 8 8 (min 255 (regField d 0x3C000C0 8 8 + 1))
  let d2 := { d1 with own := { d1.own with kickAt := d.boot.aonNs, lastExpiry := some d.boot.aonNs, bootSlot := slot } }
  monSay (postRecord d2 (recOf 0x0F30 0 0xFF [])) [.txt "!R"]

/-- WATCHDOG_RESTART: a second has passed without a kick; the second expiry within 60 s resets the device. -/
def execWatchdogRestart (s : State) : Host.Outcome State Fault Refusal :=
  let d := s.dev
  let twice : Bool := match d.own.lastExpiry with | some t => decide (d.boot.aonNs < t + 60000000000) | none => false
  finish s (if firmwareRuns d ∧ d.own.kickAt + 1000000000 ≤ d.boot.aonNs then
    if twice then resetDevice d 3 (ownSlot d) else (watchdogRestart d, [])
  else (d, []))

/-! ### Temperature samples -/

/-- STACK_TEMP_SAMPLE (R247, R548). -/
def execStackTempSample (stack temp : Nat) (s : State) : Host.Outcome State Fault Refusal :=
  finish s (releaseHeld (stackSample s.dev stack temp))

/-- DIE_TEMP_SAMPLE (R546 to R548). -/
def execDieTempSample (die temp : Nat) (s : State) : Host.Outcome State Fault Refusal :=
  finish s (releaseHeld (dieSample s.dev die temp))

end Sys2Proof.Machine
end

