-- ==== Sys2Proof/Machine/Security.lean ====
section
/-! DEFINITION. Firmware, key and variant updates, and quotes (R395, R451, R519 to R525, R555). -/

namespace Sys2Proof.Machine

/-! ### Images in device memory -/

/-- Bytes of an image in an aperture of this device, or, before the firmware runs, in the accumulation store; none where
the range is neither or holds poison (R520, R555). -/
def imageBytes (d : Dev) (m : Mem) (a k : Nat) : Option (List Byte) :=
  let hi := a + (k - 1)
  let placed : Bool := match spanRegion d.boot.part a hi with
    | .spread => !viewClash d a hi
    | .dieLocal _ => !viewClash d a hi
    | .accStore => d.mon.mode == 0
    | _ => false
  if placed && !rangeBad d m a k then some (readAt m a k) else none

/-- A number in an image's bytes; 0 where it cannot be read. -/
def imageN (b : Option (List Byte)) (o k : Nat) : Nat := bytesNat (b.getD []) o k

/-! ### Firmware (R519 to R521) -/

/-- FW_UPDATE_CTL.GO; ignored while an update is being checked. -/
def fwUpdGo (d : Dev) : Dev := if d.own.fwUpd = 1 then d else { d with own := { d.own with fwUpd := 1 } }

/-- The slot an update writes: the one that did not boot; with none booted, A unless A holds a good image (R520, R555). -/
def updSlot (d : Dev) : Nat :=
  if d.mon.mode = 1 then 1 - d.own.bootSlot else if slotBoots d d.own.slotA then 1 else 0

/-- Whether an image header and its extent pass the checks that need no key (R519). -/
def fwFits (d : Dev) (m : Mem) (a : Nat) : Bool :=
  let h := imageBytes d m a 3584
  let len := imageN h 12 4
  h.isSome && imageN h 0 4 == 1 && decide (len ≤ 0x1000000) && (len == 0 || (imageBytes d m (a + 3584) len).isSome) &&
    decide (regNat d 0x3C00010 ≤ imageN h 8 4)

/-- FW_UPDATE_DONE: the check ends, with the verdict on the signature and the body's digest (R520, R524). -/
def execFwUpdateDone (ok : Bool) (s : State) : Host.Outcome State Fault Refusal :=
  let d := s.dev
  let a := regNat64 d 0x3C00020 % 2 ^ 42
  let h := imageBytes d s.mem a 128
  finishDev s (if d.own.fwUpd = 1 then
    let good := ok && fwFits d s.mem a
    let d1 := if good then
        let slot : FwSlot := ⟨imageN h 4 4, imageN h 8 4, true⟩
        let o := { d.own with fwUpd := 2 }
        let o1 := if updSlot d = 0 then { o with slotA := slot } else { o with slotB := slot }
        measure { d with own := o1 } 6 (Config.shake256 (h.getD [])) []
      else postRecord { d with own := { d.own with fwUpd := 3 } } (recOf 0x0F31 2 0xFF [])
    monAnswer d1 3 good none []
  else d)

/-- FW_MIN_VERSION written: it only rises, and not above the higher SVN of the two slots (R521). -/
def fwMinWrite (d : Dev) (v : Nat) : Dev :=
  if v < regNat d 0x3C00010 ∨ max d.own.slotA.svn d.own.slotB.svn < v then d else regPutNat d 0x3C00010 v

/-! ### Keys (R522) -/

/-- KEY_UPDATE_CTL.GO. -/
def keyUpdGo (d : Dev) : Dev := if d.own.keyUpd = 1 then d else { d with own := { d.own with keyUpd := 1 } }

/-- KEY_k of a blob, where ITEMS bit `k` is set, stored in key slot `k + 1`. -/
def keyApply (b : List Byte) (d : Dev) (k : Nat) : Dev :=
  if natBit (bytesNat b 2 2) k then
    { d with own := { d.own with keys := putBytes d.own.keys (0x800 * (k + 1)) (padTo 1952 ((b.drop (64 + 1952 * k)).take 1952)) } }
  else d

/-- A key update applied (R522). -/
def keysApply (d : Dev) (b : List Byte) : Dev :=
  let items := bytesNat b 2 2
  let d1 := (rangeFrom 0 4).foldl (keyApply b) d
  let d2 := if natBit items 4 then
      regPutNat (regPut64 d1 0x3C00050 (bytesNat b 40 8)) 0x3C00058 (bytesNat b 48 1 % 16)
    else d1
  let d3 := if natBit items 5 ∧ regNat64 d2 0x3C00030 < bytesNat b 32 8 then regPut64 d2 0x3C00030 (bytesNat b 32 8) else d2
  { d3 with own := { d3.own with updSerial := bytesNat b 8 8 } }

/-- Whether a key update passes the checks that need no key. -/
def keyFits (d : Dev) (b : Option (List Byte)) : Bool :=
  let scope := ((b.getD []).drop 16).take 16
  b.isSome && imageN b 0 2 == 1 && decide (d.own.updSerial < imageN b 8 8) &&
    (scope.all (fun x => x == 0#8) || scope == (d.boot.applied.drop 64).take 16)

/-- KEY_UPDATE_DONE: verification ends, with the verdict on slot 0's signature (R522, R524). -/
def execKeyUpdateDone (ok : Bool) (s : State) : Host.Outcome State Fault Refusal :=
  let d := s.dev
  let b := imageBytes d s.mem (regNat64 d 0x3C00040 % 2 ^ 42) 11181
  finishDev s (if d.own.keyUpd = 1 then
    let good := ok && keyFits d b
    let d1 := if good then
        measure (keysApply { d with own := { d.own with keyUpd := 2 } } (b.getD [])) 7 (Config.shake256 ((b.getD []).take 7872)) []
      else postRecord { d with own := { d.own with keyUpd := 3 } } (recOf 0x0F32 2 0xFF [])
    monAnswer d1 5 good none []
  else d)

/-! ### The variant record (R449, R451) -/

/-- VARIANT_UPDATE_CTL.GO. -/
def varUpdGo (d : Dev) : Dev := if d.own.varUpd = 1 then d else { d with own := { d.own with varUpd := 1 } }

/-- VARIANT_UPDATE_DONE: verification ends, with the verdict on the signature (R451). -/
def execVariantUpdateDone (ok : Bool) (s : State) : Host.Outcome State Fault Refusal :=
  let d := s.dev
  let b := imageBytes d s.mem (regNat64 d 0x3C00070 % 2 ^ 42) 3437
  let r := (b.getD []).take 128
  finishDev s (if d.own.varUpd = 1 then
    let good := ok && b.isSome && variantFits d r
    let d1 := if good then
        { d with own := { d.own with varUpd := 2 }, boot := { d.boot with variant := r, variantGood := true } }
      else { d with own := { d.own with varUpd := 3 } }
    monAnswer d1 4 good none []
  else d)

/-! ### Quotes (R525) -/

/-- GO of attestation block `m`: the request joins those waiting. -/
def attestGo (d : Dev) (m : Nat) : Dev :=
  if d.own.attestQueue.contains m then d
  else { d with own := { d.own with attestQueue := d.own.attestQueue ++ [m], attestSt := smapSet d.own.attestSt m 1 } }

/-- Bytes of attestation block `m` written. -/
def attestWrite (d : Dev) (m o : Nat) (bs : List Byte) : Dev :=
  { d with own := { d.own with attest := putBytes d.own.attest (0x2000 * (m - 1) + o) bs } }

/-- Bytes of attestation block `m`. -/
def attestBytes (d : Dev) (m o k : Nat) : List Byte :=
  (rangeFrom (0x2000 * (m - 1) + o) k).map (fun i => smapGet d.own.attest i 0#8)

/-- RESULT bytes 0 to 191 of a quote for master `m`. -/
def quoteBody (d : Dev) (m : Nat) : List Byte :=
  padTo 192 (leBytes 2 1 ++ leBytes 2 (ownNode d) ++ leBytes 4 d.own.log.length ++ leBytes 8 (gtimeNs d) ++
    padTo 16 d.boot.certSerial ++ attestBytes d m 0 32 ++ padTo 64 d.own.logAcc)

/-- The monitor's lines of a quote: bytes 0 to 3,500 in 18 lines (R560). -/
def quoteLines (b : List Byte) : List (List MonWord) :=
  (rangeFrom 0 18).map (fun i => [.txt "=", .raw ((b.drop (195 * i)).take 195)])

/-- QUOTE_DONE: the quote first in order is in its block, with the identity signature the engine made (R525). -/
def execQuoteDone (sig : List Byte) (s : State) : Host.Outcome State Fault Refusal :=
  let d := s.dev
  finishDev s (match d.own.attestQueue with
    | [] => d
    | m :: t =>
      let b := quoteBody d m ++ padTo 3309 sig
      let d1 := attestWrite d m 0x100 b
      let d2 := { d1 with own := { d1.own with attestQueue := t, attestSt := smapSet d1.own.attestSt m 2 } }
      if m = 4 then monAnswer d2 2 true none (quoteLines b) else d2)

end Sys2Proof.Machine
end

