-- ==== Sys2Proof/Machine/Bus.lean ====
section
/-! DEFINITION. Register accesses of the masters: what a write does, who may make it, what a read clears, and the rows that
are such accesses (R6, R7, R10, R26, R30, R320, R499, R500, R542). -/

namespace Sys2Proof.Machine

/-! ### Words with no behaviour of their own -/

/-- A 32-bit word written: its RW bits take the value and its W1C bits clear where the value has a 1; every other bit ignores
it (R6, R7, R30). -/
def plainWord (d : Dev) (off v : Nat) : Dev :=
  match regRow off with
  | none => d
  | some r =>
    if r.rw = 0 ∧ r.w1c = 0 then d
    else
      let a := (regNat d off &&& (0xFFFFFFFF - r.rw)) ||| (v &&& r.rw)
      regPutNat d off (a - (a &&& (v &&& r.w1c)))

/-! ### Words with a behaviour -/

/-- NODE_ID written; stage 8, which waits for VALID, then starts and locks it (R17). -/
def nodeIdWrite (d : Dev) (v : Nat) : Dev :=
  let d1 := plainWord d 0x10 v
  if bootStage d1 = 8 ∧ bootStatus d1 = 2 ∧ natBit (regNat d1 0x10) 30 then startStage d1 8 else d1

/-- A word of a core block written (R58, R59, R61, R88, R540, R541). -/
def coreWordWrite (d : Dev) (n o v : Nat) : Dev :=
  if coresTotal d ≤ n then d
  else if o = 0x300 then clipLimitSet d n v
  else if o = 0x304 then clearNumStatus d n v
  else if 0x380 ≤ o ∧ o < 0x400 then clipSet d n ((o - 0x380) / 4) v
  else if 0x400 ≤ o ∧ o < 0x500 then writeEvent d n ((o - 0x400) / 4) v
  else if o = 0x880 then
    let d1 := plainWord d (coreOff n 0x880) v
    let d2 := if natBit v 0 then gateIdle d1 n else modCore d1 n (fun k => { k with gated := false })
    if natBit v 1 then wakeCore d2 n else d2
  else plainWord d (coreOff n o) v

/-- Whether two pinned slots would hold one peer (R320). -/
def pinsClash (d : Dev) : Bool :=
  let peers := ((rangeFrom 0 (min 1024 (regField d 0x1100008 0 11))).filterMap (fun c =>
    let v := regNat d (0x1101000 + 4 * c)
    if natBit v 16 then some (v % 65536) else none))
  !decide (peers.Nodup)

/-- Pinned slot `c` takes the stream its PIN_PEER names, or is emptied (R320). -/
def settlePin (d : Dev) (c : Nat) : Dev :=
  let v := regNat d (0x1101000 + 4 * c)
  let p := v % 65536
  if natBit v 16 then
    if smapFind d.ni.slots c = some p then d
    else loadStream { d with ni := { d.ni with slots := d.ni.slots.filter (fun e => e.2 != p) } } c p
  else { d with ni := { d.ni with slots := smapDrop d.ni.slots (fun x => x == c) } }

/-- PIN_CFG or PIN_PEER written, or the write rejected (R320). -/
def pinWrite (w : Work) (off v : Nat) : Work :=
  let d1 := plainWord w.dev off v
  if anyLive w.dev || pinsClash d1 then
    wRec (wDev w (fun d => regPutField d 0x1100010 20 1 1)) (recOf 0x0B56 2 0xFF [])
  else niSettle (wDev w (fun _ => (rangeFrom 0 (min 1024 (regField d1 0x1100008 0 11))).foldl settlePin d1))

/-- FLAGGED of the stream in slot `c` cleared (R334, R362). -/
def flaggedClear (w : Work) (c : Nat) : Work :=
  match smapFind w.dev.ni.slots c with
  | some p => niSettle (wDev w (fun d => modStream d p (fun x => { x with flagged := false })))
  | none => w

/-- BAND_VIEW word `i` written: bands that change view are undefined in the new one; poison stays with its lines (R26). -/
def bandViewWrite (w : Work) (i v : Nat) : Work :=
  let old := regNat w.dev (0x2000100 + 4 * i)
  let bands := partBands w.dev.boot.part
  let new := natBits v 0 (min 32 (bands - 32 * i))
  let changed := ((rangeFrom 0 32).filter (fun b => natBit old b != natBit new b)).map (fun b => 32 * i + b)
  let s := freshSalt (regPutNat w.dev (0x2000100 + 4 * i) new)
  let bad := w.mem.poison.filter (fun k => decide (k < 1280 * 0x30000000) && changed.contains (k % 0x30000000 / 0x100000))
  wMem { w with dev := s.2 } (bandsUndef s.1 changed ++ bad.map (fun k => MemOp.poison k))

/-- UNLOCKS of a lane written (R439). -/
def unlocksWrite (d : Dev) (q l v : Nat) : Dev := modLane d (q + 7) l (fun x => { x with unlocks := natBits v 24 8 })

/-- A word of the MSI-X table written; a vector unmasked while pending is sent (R508). -/
def msixWrite (d : Dev) (o v : Nat) : Dev :=
  let x := if o % 16 = 12 then v % 2 else v
  let d1 := { d with host := { d.host with msixTable := smapSet d.host.msixTable o (BitVec.ofNat 32 x) } }
  let i := o / 16
  if o % 16 = 12 ∧ x = 0 ∧ d1.host.msixPending.contains i then
    msixSend { d1 with host := { d1.host with msixPending := d1.host.msixPending.filter (fun p => p != i) } } i
  else d1

/-- One half of TIME_SET written: the other keeps what it holds (R30, R258). -/
def timeHalfWrite (d : Dev) (hi : Bool) (v : Nat) : Dev :=
  timeSetWrite d (if hi then regNat d 0x200010 + v * 2 ^ 32 else v + regNat d 0x200014 * 2 ^ 32)

/-- BEAT_CTL written; a core with no started context applies it at once (R265). -/
def beatCtlWrite (d : Dev) (v : Nat) : Dev :=
  let d1 := beatEnableWrite d v
  (rangeFrom 0 (coresTotal d1)).foldl (fun e n =>
    if (rangeFrom 0 8).any (fun c => ctxLive (ctxOf (coreOf e n) c)) then e
    else modCore e n (fun k => { k with beat := { k.beat with enabled := beatEnable e } })) d1

/-- A word of the network die region written. -/
def netWordWrite (w : Work) (off v : Nat) : Work :=
  if off = 0x1100008 ∨ (0x1101000 ≤ off ∧ off < 0x1102000) then pinWrite w off v
  else if off = 0x1100000 then niSettle (wDev w (fun d => plainWord d off v))
  else if 0x1108000 ≤ off ∧ off < 0x1110000 then
    if off % 8 = 0 ∧ natBit v 18 then flaggedClear w ((off - 0x1108000) / 8) else w
  else if off = 0x1200060 then wDev w (fun d => progValidate d (v % 256))
  else if off = 0x1200064 then wDev w (fun d => shardValidate d (v % 4096))
  else if 0x1200018 ≤ off ∧ off < 0x1200028 then groupRecheck (wDev w (fun d => plainWord d off v))
  else if off = 0x1200028 then commitCtlWrite w v
  else if off = 0x1200038 ∨ off = 0x120003C then (if anyLive w.dev then w else wDev w (fun d => plainWord d off v))
  else wDev w (fun d => plainWord d off v)

/-- A word that is no core-block word and not of the network die, written by owner `m`. -/
def devWordWrite (d : Dev) (m off v : Nat) : Dev :=
  if off = 0x10 then nodeIdWrite d v
  else if 0x4000 ≤ off ∧ off < 0x4400 then msixWrite d (off - 0x4000) v
  else if 0x8000 ≤ off ∧ off < 0x8400 then
    let q := (off - 0x8000) / 64
    let o := (off - 0x8000) % 64
    if o = 0x10 then qcfgWrite d q v else if o = 0x18 then sqTailWrite d q v else if o = 0x20 then cqHeadWrite d q v
    else plainWord d off v
  else if off = 0x100018 then burgeeCtlWrite d m v
  else if off = 0x200010 then timeHalfWrite d false v
  else if off = 0x200014 then timeHalfWrite d true v
  else if off = 0x200020 then rootEnableWrite d v
  else if off = 0x200100 then beatCtlWrite d v
  else if 0x200108 ≤ off ∧ off < 0x20011C then beatCfgWrite d off v
  else if off = 0x2001000 then retireAckWrite d v
  else if 0x3020000 ≤ off ∧ off < 0x3028000 then
    let o := (off - 0x3020000) % 0x400
    if 0x40 ≤ o ∧ o < 0xC0 then
      (if o % 16 = 12 then unlocksWrite d ((off - 0x3020000) / 0x400) ((o - 0x40) / 16) v else d)
    else plainWord d off v
  else if off = 0x3800000 then pwrCtlWrite d v
  else if off = 0x3800028 then wakeSendWrite d v
  else if off = 0x380002C then wakeSendWrite d (v * 2 ^ 32)
  else if off = 0x3C00010 then fwMinWrite d v
  else if off = 0x3C00028 then (if natBit v 0 then fwUpdGo d else d)
  else if off = 0x3C00048 then (if natBit v 0 then keyUpdGo d else d)
  else if off = 0x3C00078 then (if natBit v 0 then varUpdGo d else d)
  else if off = 0x3E0000C then frHeadWrite d v
  else plainWord d off v

/-- One 32-bit word written by owner `m`. -/
def wordWrite (w : Work) (m off v : Nat) : Work :=
  if inCoreBlock off then wDev w (fun d => coreWordWrite d ((off - coreBase) / 0x1000) ((off - coreBase) % 0x1000) v)
  else if 0x1000000 ≤ off ∧ off < 0x2000000 then netWordWrite w off v
  else if 0x2000100 ≤ off ∧ off < 0x2000160 then bandViewWrite w ((off - 0x2000100) / 4) v
  else wDev w (fun d => devWordWrite d m off v)

/-- 4 or 8 bytes written by owner `m`; the two halves of a register that acts as a whole act once. -/
def ownerWrite (w : Work) (m off width v : Nat) : Work :=
  let lo := v % 2 ^ 32
  let hi := v / 2 ^ 32 % 2 ^ 32
  if width ≠ 8 then wordWrite w m off lo
  else if off = 0x200010 then wDev w (fun d => timeSetWrite d (v % 2 ^ 64))
  else if off = 0x200108 ∧ anyLive w.dev then wDev w (fun d => beatCfgWrite d off lo)
  else if off = 0x1200018 ∨ off = 0x1200020 then
    groupRecheck (wDev w (fun d => plainWord (plainWord d off lo) (off + 4) hi))
  else if off = 0x3800028 then wDev w (fun d => wakeSendWrite d (v % 2 ^ 64))
  else wordWrite (wordWrite w m off lo) m (off + 4) hi

/-! ### Who may write (R10, R17, R499, R500) -/

/-- The write of master `m` that R500 exempts from ownership: its own claim buffer and GO, its own attestation block, and the
MSI-X table and PBA for the host. `none` for any other write. -/
def exemptWrite (d : Dev) (m off width v : Nat) : Option Dev :=
  let buf := 0x104000 + 0x4000 * (m - 1)
  let att := 0x3C04000 + 0x2000 * (m - 1)
  if m = 0 ∨ 4 < m then none
  else if buf ≤ off ∧ off < buf + 0x4000 then some (claimWrite d m (off - buf) (leBytes width v))
  else if off = 0x100040 + 8 * (m - 1) then some (if natBit v 0 then claimGo d m else d)
  else if att ≤ off ∧ off < att + 0x2000 then
    some (if off < att + 0x20 then attestWrite d m (off - att) (leBytes width v)
      else if off = att + 0x20 ∧ natBit v 0 then attestGo d m else d)
  else if m = 1 ∧ 0x4000 ≤ off ∧ off < 0x4400 then
    some (let d1 := msixWrite d (off - 0x4000) (v % 2 ^ 32)
          if width = 8 then msixWrite d1 (off - 0x4000 + 4) (v / 2 ^ 32 % 2 ^ 32) else d1)
  else if m = 1 ∧ 0x4800 ≤ off ∧ off < 0x4808 then some d
  else none

/-- A register write of 4 or 8 bytes by master `m`, and its status: 0 OK, 3 dropped (R490, R499). NODE_ID after its lock is
dropped whoever writes it (R17). -/
def busWrite (w : Work) (m off width v : Nat) : Work × Nat :=
  match exemptWrite w.dev m off width v with
  | some d => ({ w with dev := d }, 0)
  | none =>
    if !isOwner w.dev m || (off == 0x10 && natBit (regNat w.dev 0x10) 31) then
      (wDev w (fun d => dropWrite d m off), 3)
    else (ownerWrite w m off width v, 0)

/-! ### Reads (R6, R272, R499) -/

/-- The RC fields of one word clear. -/
def readClear (d : Dev) (off : Nat) : Dev :=
  if 0x2000400 ≤ off ∧ off < 0x2000680 ∧ (off - 0x2000400) % 0x20 = 0 then
    modStack d ((off - 0x2000400) / 0x20) (fun x => { x with maxTemp := 0 })
  else match regRow off with
    | some r => if r.rc = 0 then d else regPutNat d off (regNat d off &&& (0xFFFFFFFF - r.rc))
    | none => d

/-- A register read of 4 or 8 bytes by master `m`: the owner's clears RC fields, and a read of GTIME latches GTIME_FRAC. -/
def busRead (d : Dev) (m : Mem) (master off width : Nat) : Nat × Dev :=
  let d1 := if isOwner d master then
      (let e := readClear d off
       if width = 8 then readClear e (off + 4) else e)
    else d
  let d2 := if off / 8 = 0x40000 then { d1 with tm := { d1.tm with frac := d1.tm.gt % 16 } } else d1
  (peekWidth d m off width, d2)

/-- Accesses are of 4 or 8 bytes, naturally aligned, within BAR0 (R30). -/
def accessGood (off width : Nat) : Bool :=
  (width == 4 || width == 8) && off % width == 0 && decide (off + width ≤ 0x4000000)

/-- Whether the register space answers: the device is in P0 or P1 with its supplies on. -/
def regsAwake (d : Dev) : Bool := decide (d.pwr.st ≤ 1) && !d.pwr.tripped && !d.own.epo && !d.pwr.aonLost

/-- A register write by master `m` over its path. The host's waits for an exit (R542); one of another width or alignment
completes with Unsupported Request (R30). -/
def masterPut (w : Work) (m off width v : Nat) : Work :=
  if m = 1 then
    match hostTakes w.dev with
    | 0 => if accessGood off width then (busWrite w m off width v).1 else wDev w (fun d => emit d (.bar2 false false []))
    | 1 => wDev w (fun d => hostDefer d ⟨false, off, width, some (leBytes width v), []⟩)
    | _ => wDev w (fun d => emit d (.bar2 false false []))
  else if 2 ≤ m ∧ m ≤ 4 ∧ regsAwake w.dev ∧ accessGood off width then (busWrite w m off width v).1
  else w

/-- The same as a command. -/
def masterWrite (m off width v : Nat) (s : State) : Host.Outcome State Fault Refusal :=
  finish s (wOut (masterPut (workOf s) m off width v))

/-- A register read by master `m` over its path, answered with its value. -/
def masterGet (d : Dev) (mem : Mem) (m off width : Nat) : Dev :=
  let go := let r := busRead d mem m off width
            emit r.2 (.regRead r.1)
  if m = 1 then
    match hostTakes d with
    | 0 => if accessGood off width then go else emit d (.bar2 false false [])
    | 1 => hostDefer d ⟨false, off, width, none, []⟩
    | _ => emit d (.bar2 false false [])
  else if 2 ≤ m ∧ m ≤ 4 ∧ regsAwake d ∧ accessGood off width then go
  else d

/-! ### The rows -/

/-- SQ_TAIL_DOORBELL (R511). -/
def execSqTailDoorbell (master queue tail : Nat) (s : State) : Host.Outcome State Fault Refusal :=
  masterWrite master (qOff (queue % 16) + 0x18) 4 tail s
/-- QCFG_ENABLE_WRITE (R511). -/
def execQcfgEnableWrite (master queue value : Nat) (s : State) : Host.Outcome State Fault Refusal :=
  masterWrite master (qOff (queue % 16) + 0x10) 4 value s
/-- CQ_HEAD_WRITE (R516). -/
def execCqHeadWrite (master queue head : Nat) (s : State) : Host.Outcome State Fault Refusal :=
  masterWrite master (qOff (queue % 16) + 0x20) 4 head s
/-- FR_HEAD_WRITE (R510). -/
def execFrHeadWrite (master head : Nat) (s : State) : Host.Outcome State Fault Refusal := masterWrite master 0x3E0000C 4 head s
/-- REG_WRITE (R6, R7, R10, R30). -/
def execRegWrite (master offset width value : Nat) (s : State) : Host.Outcome State Fault Refusal :=
  masterWrite master offset width value s
/-- RC_FIELD_READ (R6, R499). -/
def execRcFieldRead (master offset width : Nat) (s : State) : Host.Outcome State Fault Refusal :=
  finishDev s (masterGet s.dev s.mem master offset width)
/-- GTIME_READ: the whole register, or its low word (R272). -/
def execGtimeRead (master width : Nat) (s : State) : Host.Outcome State Fault Refusal :=
  finishDev s (masterGet s.dev s.mem master 0x200000 width)
/-- NODE_ID_WRITE (R17). -/
def execNodeIdWrite (master value : Nat) (s : State) : Host.Outcome State Fault Refusal := masterWrite master 0x10 4 value s
/-- BAND_VIEW_WRITE (R26). -/
def execBandViewWrite (master word value : Nat) (s : State) : Host.Outcome State Fault Refusal :=
  masterWrite master (0x2000100 + 4 * (word % 24)) 4 value s
/-- CLIP_LIMIT_WRITE (R58). -/
def execClipLimitWrite (master core value : Nat) (s : State) : Host.Outcome State Fault Refusal :=
  masterWrite master (coreOff (core % 256) 0x300) 4 value s
/-- CLIPCNT_WRITE (R61). -/
def execClipcntWrite (master core bank value : Nat) (s : State) : Host.Outcome State Fault Refusal :=
  masterWrite master (coreOff (core % 256) (0x380 + 4 * (bank % 32))) 4 value s
/-- NUM_STATUS_CLEAR (R59). -/
def execNumStatusClear (master core value : Nat) (s : State) : Host.Outcome State Fault Refusal :=
  masterWrite master (coreOff (core % 256) 0x304) 4 value s
/-- CTX_FLAGGED_CLEAR (R334). -/
def execCtxFlaggedClear (master slot : Nat) (s : State) : Host.Outcome State Fault Refusal :=
  masterWrite master (0x1108000 + 8 * (slot % 4096)) 8 (2 ^ 18) s
/-- RETIRE_ACK (R244). -/
def execRetireAck (master seq : Nat) (s : State) : Host.Outcome State Fault Refusal := masterWrite master 0x2001000 4 seq s
/-- TIME_SET_WRITE (R258). -/
def execTimeSetWrite (master ns : Nat) (s : State) : Host.Outcome State Fault Refusal := masterWrite master 0x200010 8 ns s
/-- ROOT_ENABLE_WRITE (R253). -/
def execRootEnableWrite (master value : Nat) (s : State) : Host.Outcome State Fault Refusal :=
  masterWrite master 0x200020 4 value s
/-- BEAT_CFG_WRITE: `field` 0 BEAT_T0, 1 BEAT_LEN, 2 BEAT_MIN, else LAG_LIMIT (R259). -/
def execBeatCfgWrite (master field value : Nat) (s : State) : Host.Outcome State Fault Refusal :=
  masterWrite master (match field with | 0 => 0x200108 | 1 => 0x200110 | 2 => 0x200114 | _ => 0x200118)
    (if field = 0 then 8 else 4) value s
/-- BEAT_ENABLE_WRITE (R265). -/
def execBeatEnableWrite (master value : Nat) (s : State) : Host.Outcome State Fault Refusal :=
  masterWrite master 0x200100 4 value s
/-- PIN_CFG_WRITE: PIN_PEER of the slot, or PIN_CFG where none is named (R320). -/
def execPinCfgWrite (master : Nat) (slot : Option Nat) (value : Nat) (s : State) : Host.Outcome State Fault Refusal :=
  masterWrite master (match slot with | some c => 0x1101000 + 4 * (c % 1024) | none => 0x1100008) 4 value s
/-- PROG_VALIDATE (R378). -/
def execProgValidate (master slot : Nat) (s : State) : Host.Outcome State Fault Refusal := masterWrite master 0x1200060 4 slot s
/-- SHARD_VALIDATE (R382). -/
def execShardValidate (master entry : Nat) (s : State) : Host.Outcome State Fault Refusal := masterWrite master 0x1200064 4 entry s
/-- COMMIT_ABORT: COMMIT_CTL.ABORT, HOLD as it stands (R391). -/
def execCommitAbort (master : Nat) (s : State) : Host.Outcome State Fault Refusal :=
  masterWrite master 0x1200028 4 (regField s.dev 0x1200028 0 1 + 2) s
/-- FORCE_COMMIT (R394). -/
def execForceCommit (master : Nat) (s : State) : Host.Outcome State Fault Refusal :=
  masterWrite master 0x1200028 4 (regField s.dev 0x1200028 0 1 + 4) s
/-- FORCE_ABORT (R394). -/
def execForceAbort (master : Nat) (s : State) : Host.Outcome State Fault Refusal :=
  masterWrite master 0x1200028 4 (regField s.dev 0x1200028 0 1 + 8) s
/-- COMMIT_GROUP_WRITE: COMMIT_GROUP_ADDR or COMMIT_GROUP (R588). -/
def execCommitGroupWrite (master : Nat) (addr : Bool) (value : Nat) (s : State) : Host.Outcome State Fault Refusal :=
  masterWrite master (if addr then 0x1200018 else 0x1200020) 8 value s
/-- BURGEE_RENEW (R496). -/
def execBurgeeRenew (master : Nat) (s : State) : Host.Outcome State Fault Refusal := masterWrite master 0x100018 4 1 s
/-- BURGEE_RELEASE (R497). -/
def execBurgeeRelease (master : Nat) (s : State) : Host.Outcome State Fault Refusal := masterWrite master 0x100018 4 2 s
/-- BURGEE_HANDOVER (R497). -/
def execBurgeeHandover (master succ node : Nat) (s : State) : Host.Outcome State Fault Refusal :=
  masterWrite master 0x100018 4 (4 + succ % 8 * 8 + node % 65536 * 65536) s
/-- CLAIM_GO (R493). -/
def execClaimGo (master : Nat) (s : State) : Host.Outcome State Fault Refusal :=
  masterWrite master (0x100040 + 8 * (master - 1)) 4 1 s
/-- FW_UPDATE_GO (R520). -/
def execFwUpdateGo (master : Nat) (s : State) : Host.Outcome State Fault Refusal := masterWrite master 0x3C00028 4 1 s
/-- FW_MIN_VERSION_WRITE (R521). -/
def execFwMinVersionWrite (master svn : Nat) (s : State) : Host.Outcome State Fault Refusal := masterWrite master 0x3C00010 4 svn s
/-- KEY_UPDATE_GO (R522). -/
def execKeyUpdateGo (master : Nat) (s : State) : Host.Outcome State Fault Refusal := masterWrite master 0x3C00048 4 1 s
/-- VARIANT_UPDATE_GO (R451). -/
def execVariantUpdateGo (master : Nat) (s : State) : Host.Outcome State Fault Refusal := masterWrite master 0x3C00078 4 1 s
/-- ATTEST_GO (R525). -/
def execAttestGo (master : Nat) (s : State) : Host.Outcome State Fault Refusal :=
  masterWrite master (0x3C04020 + 0x2000 * (master - 1)) 4 1 s
/-- PWR_ENTER_P1 (R536). -/
def execPwrEnterP1 (master : Nat) (s : State) : Host.Outcome State Fault Refusal := masterWrite master 0x3800000 4 5 s
/-- PWR_ENTER_P2 (R536). -/
def execPwrEnterP2 (master : Nat) (s : State) : Host.Outcome State Fault Refusal := masterWrite master 0x3800000 4 6 s
/-- PWR_ENTER_P3 (R536). -/
def execPwrEnterP3 (master : Nat) (s : State) : Host.Outcome State Fault Refusal := masterWrite master 0x3800000 4 7 s
/-- CORE_PWR_WAKE: IDLE_GATE as it stands (R541). -/
def execCorePwrWake (master core : Nat) (s : State) : Host.Outcome State Fault Refusal :=
  masterWrite master (coreOff (core % 256) 0x880) 4 (regField s.dev (coreOff (core % 256) 0x880) 0 1 + 2) s
/-- WAKE_SEND (R544). -/
def execWakeSend (master ports : Nat) (s : State) : Host.Outcome State Fault Refusal := masterWrite master 0x3800028 8 ports s

end Sys2Proof.Machine
end

