-- ==== Sys2Proof/Machine/Ctl.lean ====
section
/-! DEFINITION. CTL instructions: flow and contexts (R92 to R98), and the words no class or operation defines (R85). -/

namespace Sys2Proof.Machine

/-- A branch target: the index `OFFSET` instructions away (R93). -/
def branchTarget (pc : Nat) (o : BitVec 112) : Int := (pc : Int) + signedOf 32 (fld o 0 32)

/-- Whether a target is outside the instruction store (R93). -/
def targetBad (t : Int) : Bool := decide (t < 0) || decide (16383 < t)

/-- A taken branch at index `pc` pops the levels of its call depth whose bodies it lies in and its target `t` does not
(R96). -/
def leaveBodies (depth pc t : Nat) (ls : List LoopLevel) : List LoopLevel :=
  ls.filter (fun l => !(l.depth == depth && decide (l.first ≤ pc ∧ pc ≤ l.last) && !decide (l.first ≤ t ∧ t ≤ l.last)))

/-- The context after a taken branch (R96). -/
def branchTo (x : Ctx) (t : Nat) : Ctx := { x with pc := t, loops := leaveBodies x.calls.length x.pc t x.loops }

/-- The effect of NOP (R92). -/
def execNop (core : Nat) (f : BitVec 4) (o : BitVec 112) (s : State) : Host.Outcome State Fault Refusal :=
  finish s (issue s.dev core (mkWord 0 0 f o) (fun d _ _ =>
    guarded [(0x0303, f != 0#4 || o != 0#112)] (.next d [])))

/-- The effect of LOOP (R96): a level is pushed, or the body skipped when the count is 0. Either way it transfers no
control, so a LOOP at an enclosing body's last index ends an iteration there. The skip counts as passing the body's last index (assumption log 13, DEDUCED). -/
def execLoop (core : Nat) (f : BitVec 4) (o : BitVec 112) (s : State) : Host.Outcome State Fault Refusal :=
  finish s (issue s.dev core (mkWord 0 1 f o) (fun d c x =>
    let imm := natBit f.toNat 0
    let body := fld o 96 16
    let count := if imm then fld o 0 32 else (sreg x (fld o 91 5)).toNat
    let last := x.pc + body
    guarded
      [ (0x0303, f.toNat / 2 != 0 || !onlyFields o (if imm then [(96, 16), (0, 32)] else [(96, 16), (91, 5)])),
        (0x0306, body == 0 || decide (16383 < last) || decide (4 ≤ x.loops.length)) ]
      (if count = 0 then .next (modCtx d core c (fun x => { x with pc := last })) []
       else .next (modCtx d core c (fun x =>
         { x with loops := ⟨x.pc + 1, last, x.calls.length, 0, count⟩ :: x.loops })) [])))

/-- Whether BR's condition holds (R94). -/
def brTaken (cond : Nat) (a b : W64) : Bool :=
  match cond with
  | 0 => true
  | 1 => a == 0#64
  | 2 => a != 0#64
  | 3 => a.slt 0#64
  | 4 => !a.slt 0#64
  | 5 => a.slt b
  | 6 => !a.slt b
  | _ => a.ult b

/-- The effect of BR (R93, R94, R96). -/
def execBr (core : Nat) (f : BitVec 4) (o : BitVec 112) (s : State) : Host.Outcome State Fault Refusal :=
  finish s (issue s.dev core (mkWord 0 2 f o) (fun d c x =>
    let cond := f.toNat
    let taken := brTaken cond (sreg x (fld o 91 5)) (sreg x (fld o 86 5))
    let t := branchTarget x.pc o
    let used := (0, 32) :: (if cond = 0 then [] else if cond < 5 then [(91, 5)] else [(91, 5), (86, 5)])
    guarded [(0x0303, decide (8 ≤ cond) || !onlyFields o used), (0x0304, taken && targetBad t)]
      (if taken then .placed (modCtx d core c (fun x => branchTo x t.toNat)) [] else .next d [])))

/-- Whether an earlier VENC of context `c` is incomplete (R60). -/
def vencBusy (k : Core) (c : Nat) : Bool :=
  k.ops.any (fun o => o.ctx == c && opClass o.word == 3 && opCode o.word == 8)

/-- The effect of BRW (R60, R95): it waits for the context's VENCs, then tests WIDEN. -/
def execBrw (core : Nat) (f : BitVec 4) (o : BitVec 112) (s : State) : Host.Outcome State Fault Refusal :=
  finish s (issue s.dev core (mkWord 0 3 f o) (fun d c x =>
    let widen := natBit (regNat d (coreOff core 0x304)) 0
    let taken := widen != natBit f.toNat 0
    let t := branchTarget x.pc o
    guarded [(0x0303, f.toNat / 2 != 0 || !onlyFields o [(0, 32)])]
      (whenReady (!vencBusy (coreOf d core) c)
        (guarded [(0x0304, taken && targetBad t)]
          (if taken then .placed (modCtx d core c (fun x => branchTo x t.toNat)) [] else .next d [])))))

/-- The effect of CALL (R97). -/
def execCall (core : Nat) (f : BitVec 4) (o : BitVec 112) (s : State) : Host.Outcome State Fault Refusal :=
  finish s (issue s.dev core (mkWord 0 4 f o) (fun d c x =>
    let t := branchTarget x.pc o
    guarded [(0x0303, f != 0#4 || !onlyFields o [(0, 32)]), (0x0305, decide (16 ≤ x.calls.length)), (0x0304, targetBad t)]
      (.placed (modCtx d core c (fun x => { x with pc := t.toNat, calls := (x.pc + 1) :: x.calls })) [])))

/-- The context after a return to index `t`: levels of deeper calls end (R97), and a return to the index after a
body's last at the level's own depth ends an iteration (R96). -/
def returnTo (x : Ctx) (t : Nat) : Ctx :=
  let y := { x with calls := x.calls.drop 1 }
  let ls := y.loops.dropWhile (fun l => decide (y.calls.length < l.depth))
  if t = 0 then { y with loops := ls, pc := 0 } else passFrom y ls (t - 1)

/-- The effect of RET (R93, R96, R97). -/
def execRet (core : Nat) (f : BitVec 4) (o : BitVec 112) (s : State) : Host.Outcome State Fault Refusal :=
  finish s (issue s.dev core (mkWord 0 5 f o) (fun d c x =>
    let t := x.calls.headD 0
    guarded [(0x0303, f != 0#4 || o != 0#112), (0x0305, x.calls.isEmpty), (0x0304, decide (16383 < t))]
      (let y := returnTo x t
       if y.pc ≤ 16383 then .placed (modCtx d core c (fun _ => y)) [] else .fault 0x0304)))

/-- The effect of YIELD (R71): the context goes on, and the next runnable one becomes current. -/
def execYield (core : Nat) (f : BitVec 4) (o : BitVec 112) (s : State) : Host.Outcome State Fault Refusal :=
  finish s (issue s.dev core (mkWord 0 6 f o) (fun d c _ =>
    guarded [(0x0303, f != 0#4 || o != 0#112)]
      (.away (goOn d core c) [])))

/-- The effect of HALT (R98): once its long operations are complete the context halts with CODE. -/
def execHalt (core : Nat) (f : BitVec 4) (o : BitVec 112) (s : State) : Host.Outcome State Fault Refusal :=
  finish s (issue s.dev core (mkWord 0 7 f o) (fun d c _ =>
    guarded [(0x0303, f != 0#4 || !onlyFields o [(0, 16)])]
      (whenReady (!ctxBusy (coreOf d core) c)
        (.away (afterWork (endCtx d core c 7 8 (fld o 0 16) 0) core) []))))

/-- An instruction held for 16 consecutive cycles makes the sequencer switch (R71); the count of cycles starts again
(assumption log 129, DEDUCED). Where no other context is runnable the current one stays current. -/
def execIssueHoldSwitch (core : Nat) (s : State) : Host.Outcome State Fault Refusal :=
  let k := coreOf s.dev core
  let x := ctxOf k k.cur
  finishDev s
    (if x.st = 2 && decide (16 ≤ x.hold) && coreInService s.dev core && (nextRunnable k k.cur 7).isSome then
      modCore (modCtx s.dev core k.cur (fun x => { x with hold := 0 })) core switchCtx
    else s.dev)

/-- Operations that a class defines (R84, R92, R99, R104, R111, R114, R120, R124, R128, R131). -/
def opDefined (cls op : Nat) : Bool :=
  match cls with
  | 0 => decide (op ≤ 7)
  | 1 => decide (1 ≤ op ∧ op ≤ 4)
  | 2 => decide (1 ≤ op ∧ op ≤ 4)
  | 3 => decide (1 ≤ op ∧ op ≤ 9)
  | 4 => decide (1 ≤ op ∧ op ≤ 3)
  | 5 => decide (1 ≤ op ∧ op ≤ 9)
  | 6 => decide (1 ≤ op ∧ op ≤ 6)
  | 7 => decide (1 ≤ op ∧ op ≤ 14) || op == 0x10 || op == 0x11 || op == 0x20 || op == 0x21 || op == 0x22
  | 8 => op == 1
  | _ => false

/-- An instruction whose CLASS is 0x9 to 0xF reaches issue and faults (R85). -/
def execIllegalClass (core : Nat) (w : BitVec 128) (s : State) : Host.Outcome State Fault Refusal :=
  finish s (if 9 ≤ opClass w then issue s.dev core w (fun _ _ _ => .fault 0x0301) else (s.dev, []))

/-- An instruction whose OP its class does not define reaches issue and faults (R85). -/
def execIllegalOp (core : Nat) (w : BitVec 128) (s : State) : Host.Outcome State Fault Refusal :=
  finish s (if opClass w < 9 && !opDefined (opClass w) (opCode w) then issue s.dev core w (fun _ _ _ => .fault 0x0302)
    else (s.dev, []))

end Sys2Proof.Machine
end

