-- ==== Sys2Proof/Machine/Scl.lean ====
section
/-! DEFINITION. SCL instructions: scalar arithmetic, scratchpad scalars and special registers (R86, R89, R90, R128 to
R130). -/

namespace Sys2Proof.Machine

/-- A 32-bit field sign-extended to 64 bits. -/
def sext32 (v : Nat) : W64 := BitVec.ofInt 64 (signedOf 32 v)

/-- SB, or IMM32 sign-extended when IMM is set (R128). -/
def sclB (f : BitVec 4) (o : BitVec 112) (x : Ctx) : W64 :=
  if natBit f.toNat 0 then sext32 (fld o 0 32) else sreg x (fld o 97 5)

/-- The bits that the second operand of an SCL instruction uses. -/
def sclBFields (f : BitVec 4) : List (Nat × Nat) := if natBit f.toNat 0 then [(0, 32)] else [(97, 5)]

/-- An arithmetic instruction: SD := SA op B (R86, R128). -/
def sclAlu (core op : Nat) (f : BitVec 4) (o : BitVec 112) (g : W64 → W64 → W64) (s : State) : Dev × List MemOp :=
  issue s.dev core (mkWord 7 op f o) (fun d c _ =>
    guarded [(0x0303, f.toNat / 2 != 0 || !onlyFields o ([(107, 5), (102, 5)] ++ sclBFields f))]
      (.next (modCtx d core c (fun x => setSreg x (fld o 107 5) (g (sreg x (fld o 102 5)) (sclB f o x)))) []))

/-- SCL.ADD -/
def execSclAdd (core : Nat) (f : BitVec 4) (o : BitVec 112) (s : State) : Host.Outcome State Fault Refusal :=
  finish s (sclAlu core 0x01 f o (fun a b => a + b) s)
/-- SCL.SUB -/
def execSclSub (core : Nat) (f : BitVec 4) (o : BitVec 112) (s : State) : Host.Outcome State Fault Refusal :=
  finish s (sclAlu core 0x02 f o (fun a b => a - b) s)
/-- SCL.MUL -/
def execSclMul (core : Nat) (f : BitVec 4) (o : BitVec 112) (s : State) : Host.Outcome State Fault Refusal :=
  finish s (sclAlu core 0x03 f o (fun a b => a * b) s)
/-- SCL.AND -/
def execSclAnd (core : Nat) (f : BitVec 4) (o : BitVec 112) (s : State) : Host.Outcome State Fault Refusal :=
  finish s (sclAlu core 0x04 f o (fun a b => a &&& b) s)
/-- SCL.OR -/
def execSclOr (core : Nat) (f : BitVec 4) (o : BitVec 112) (s : State) : Host.Outcome State Fault Refusal :=
  finish s (sclAlu core 0x05 f o (fun a b => a ||| b) s)
/-- SCL.XOR -/
def execSclXor (core : Nat) (f : BitVec 4) (o : BitVec 112) (s : State) : Host.Outcome State Fault Refusal :=
  finish s (sclAlu core 0x06 f o (fun a b => a ^^^ b) s)
/-- SCL.SHL: by the low 6 bits of the second operand. -/
def execSclShl (core : Nat) (f : BitVec 4) (o : BitVec 112) (s : State) : Host.Outcome State Fault Refusal :=
  finish s (sclAlu core 0x07 f o (fun a b => a <<< (b.toNat % 64)) s)
/-- SCL.SHR -/
def execSclShr (core : Nat) (f : BitVec 4) (o : BitVec 112) (s : State) : Host.Outcome State Fault Refusal :=
  finish s (sclAlu core 0x08 f o (fun a b => a >>> (b.toNat % 64)) s)
/-- SCL.SAR -/
def execSclSar (core : Nat) (f : BitVec 4) (o : BitVec 112) (s : State) : Host.Outcome State Fault Refusal :=
  finish s (sclAlu core 0x09 f o (fun a b => a.sshiftRight (b.toNat % 64)) s)
/-- SCL.MIN, signed. -/
def execSclMin (core : Nat) (f : BitVec 4) (o : BitVec 112) (s : State) : Host.Outcome State Fault Refusal :=
  finish s (sclAlu core 0x0A f o (fun a b => if a.slt b then a else b) s)
/-- SCL.MAX, signed. -/
def execSclMax (core : Nat) (f : BitVec 4) (o : BitVec 112) (s : State) : Host.Outcome State Fault Refusal :=
  finish s (sclAlu core 0x0B f o (fun a b => if a.slt b then b else a) s)
/-- SCL.SLT -/
def execSclSlt (core : Nat) (f : BitVec 4) (o : BitVec 112) (s : State) : Host.Outcome State Fault Refusal :=
  finish s (sclAlu core 0x0C f o (fun a b => if a.slt b then 1#64 else 0#64) s)
/-- SCL.SLTU -/
def execSclSltu (core : Nat) (f : BitVec 4) (o : BitVec 112) (s : State) : Host.Outcome State Fault Refusal :=
  finish s (sclAlu core 0x0D f o (fun a b => if a.ult b then 1#64 else 0#64) s)

/-- SCL.LI: SD := IMM64; the flags, SA and SB are reserved. -/
def execSclLi (core : Nat) (f : BitVec 4) (o : BitVec 112) (s : State) : Host.Outcome State Fault Refusal :=
  finish s (issue s.dev core (mkWord 7 0x0E f o) (fun d c _ =>
    guarded [(0x0303, f != 0#4 || !onlyFields o [(107, 5), (32, 64)])]
      (.next (modCtx d core c (fun x => setSreg x (fld o 107 5) (BitVec.ofNat 64 (fld o 32 64)))) [])))

/-- The offset of a scratchpad access: SA plus the sign-extended 32-bit field, modulo 2^64, unsigned (R125, R129). -/
def seqOffset (sa : W64) (imm : Nat) : Nat := (sa + sext32 imm).toNat

/-- The conditions on such an offset (R125, R129). -/
def seqConds (off size : Nat) : List Cond := [(0x0309, decide (0x600000 ≤ off)), (0x030D, off % size != 0)]

/-- The granules of a sequencer access of `size` bytes at an aligned offset. -/
def seqGranules (off size : Nat) : List Nat := granulesOf off (off + size - 1)

/-- `k` free words (assumption log 15, DESIGN CHOICE). -/
def drawWords (d : Dev) (k : Nat) : Nat × Dev :=
  match k with
  | 0 => (0, d)
  | k + 1 =>
    let w := drawFree d
    let r := drawWords w.2 k
    (w.1.toNat + 2 ^ 64 * r.1, r.2)

/-- A sequencer read of `words` words of core `n`'s scratchpad at `off`: the errors it meets, then the value, or a free
value and the fault where a word is poisoned (R217; assumption log 15, DESIGN CHOICE). `put` stores the value. -/
def seqRead (s : State) (d : Dev) (n c pc off words : Nat) (errs : List MemErr) (put : Dev → Nat → Dev) : IssueRes :=
  let r := applyErrs d s.mem errs
  let m := memApplyAll s.mem r.2
  let base := spadBase n + off
  match (rangeFrom 0 words).find? (fun i => keyPoisoned r.1 m (base + 8 * i)) with
  | some i =>
    let fv := drawWords r.1 words
    let pf := poisonFault fv.2 (base + 8 * i)
    .done (afterWork (faultCtx (put fv.2 fv.1) n c pc pf.ev pf.cls pf.detail) n) r.2
  | none => .next (put r.1 (leNat (memBytes m base (8 * words)))) r.2

/-- SCL.LD: SD := 8 bytes of the scratchpad (R128, R129). -/
def execSclLd (core : Nat) (f : BitVec 4) (o : BitVec 112) (errs : List MemErr) (s : State) :
    Host.Outcome State Fault Refusal :=
  finish s (issue s.dev core (mkWord 7 0x10 f o) (fun d c x =>
    let off := seqOffset (sreg x (fld o 102 5)) (fld o 0 32)
    guarded ((0x0303, f != 1#4 || !onlyFields o [(107, 5), (102, 5), (0, 32)]) :: seqConds off 8)
      (whenReady (granulesReady (coreOf d core) (seqGranules off 8) [])
        (seqRead s d core c x.pc off 1 errs (fun d v =>
          modCtx d core c (fun x => setSreg x (fld o 107 5) (BitVec.ofNat 64 v)))))))

/-- SCL.ST: 8 bytes of the scratchpad := SB (R128, R129). -/
def execSclSt (core : Nat) (f : BitVec 4) (o : BitVec 112) (s : State) : Host.Outcome State Fault Refusal :=
  finish s (issue s.dev core (mkWord 7 0x11 f o) (fun d c x =>
    let off := seqOffset (sreg x (fld o 102 5)) (fld o 0 32)
    let base := spadBase core + off
    guarded ((0x0303, f != 1#4 || !onlyFields o [(102, 5), (97, 5), (0, 32)]) :: seqConds off 8)
      (whenReady (granulesReady (coreOf d core) [] (seqGranules off 8))
        (.next (modCtx d core c id) (.unpoison base (gtimeNs d) :: wrBytes base (leBytes 8 (sreg x (fld o 97 5)).toNat))))))

/-! ### Special registers (R89) -/

/-- The register word of the core block behind a special register, for those that hold a 32-bit value of their own. -/
def specOff (k : Nat) : Option Nat :=
  if k = 0x010 then some 0x304 else if k = 0x011 then some 0x300
  else if 0x020 ≤ k ∧ k < 0x040 then some (0x380 + 4 * (k - 0x020))
  else if k = 0x040 then some 0x308 else if k = 0x041 then some 0x30C
  else if 0x100 ≤ k ∧ k < 0x140 then some (0x400 + 4 * (k - 0x100)) else none

/-- What a special register reads as, zero-extended; none where its number is undefined (R89). -/
def specRead (d : Dev) (n c : Nat) (x : Ctx) (k : Nat) : Option Nat :=
  match specOff k with
  | some r => some (regNat d (coreOff n r))
  | none =>
    if k = 0x000 then some c
    else if k = 0x001 then some n
    else if k = 0x002 then some (ownNode d)
    else if k = 0x003 then some ((coreOf d n).cycles / 1000 % 2 ^ 64)
    else if k = 0x004 then some (gtimeNs d)
    else if k = 0x005 then some (coreOf d n).beat.n
    else if k = 0x006 then some (min (coreOf d n).beat.lag 0xFFFFFFFF)
    else if 0x050 ≤ k ∧ k < 0x054 then some ((x.loops.map (fun l => l.iter)).getD (k - 0x050) 0)
    else if k = 0x060 then some (coreOf d n).ops.length
    else if k = 0x140 then some (regNat64 d (coreOff n 0x500))
    else none

/-- Whether a special register is W1C (R89). -/
def specW1c (k : Nat) : Bool := k == 0x010 || k == 0x041 || k == 0x140

/-- Whether a special register is RW (R89). -/
def specRw (k : Nat) : Bool := !specW1c k && (specOff k).isSome

/-- A W1C special register cleared where `v` is 1 (R6, R59, R130). -/
def specClear (d : Dev) (n k v : Nat) : Dev :=
  if k = 0x010 then clearNumStatus d n v
  else if k = 0x041 then clearW1c d (coreOff n 0x30C) (v % 2 ^ 32)
  else clearW1c (clearW1c d (coreOff n 0x500) (v % 2 ^ 32)) (coreOff n 0x504) (v / 2 ^ 32)

/-- A RW register of a core block written (R58, R61, R88, R90). -/
def specWrite (d : Dev) (n k v : Nat) : Dev :=
  if k = 0x011 then clipLimitSet d n (v % 2 ^ 32)
  else if k < 0x040 then clipSet d n (k - 0x020) (v % 2 ^ 32)
  else if k = 0x040 then regPutNat d (coreOff n 0x308) (v % 2)
  else writeEvent d n (k - 0x100) (v % 2 ^ 32)

/-- SCL.SRD: SD := special register SPEC (R89, R128). -/
def execSclSrd (core : Nat) (f : BitVec 4) (o : BitVec 112) (s : State) : Host.Outcome State Fault Refusal :=
  finish s (issue s.dev core (mkWord 7 0x20 f o) (fun d c x =>
    let v := specRead d core c x (fld o 52 12)
    guarded [(0x0303, f != 0#4 || !onlyFields o [(107, 5), (52, 12)]), (0x0307, v.isNone)]
      (.next (modCtx d core c (fun x => setSreg x (fld o 107 5) (BitVec.ofNat 64 (v.getD 0)))) [])))

/-- SCL.SRW: special register SPEC := SB or IMM32; a W1C register is cleared where the value is 1 (R128, R130). A number that
names no register takes no write (R89; assumption log 152, DEDUCED). -/
def execSclSrw (core : Nat) (f : BitVec 4) (o : BitVec 112) (s : State) : Host.Outcome State Fault Refusal :=
  finish s (issue s.dev core (mkWord 7 0x21 f o) (fun d _ x =>
    let k := fld o 52 12
    let v := (sclB f o x).toNat
    guarded [(0x0303, f.toNat / 2 != 0 || !onlyFields o ((52, 12) :: sclBFields f)), (0x0307, !specW1c k && !specRw k)]
      (.next (if specW1c k then specClear d core k v else specWrite d core k v) [])))

/-- SCL.SRC: the bits of SPEC that are 1 in the value are cleared; SPEC must be W1C (R128, R130). -/
def execSclSrc (core : Nat) (f : BitVec 4) (o : BitVec 112) (s : State) : Host.Outcome State Fault Refusal :=
  finish s (issue s.dev core (mkWord 7 0x22 f o) (fun d _ x =>
    let k := fld o 52 12
    guarded [(0x0303, f.toNat / 2 != 0 || !onlyFields o ((52, 12) :: sclBFields f)), (0x0307, !specW1c k)]
      (.next (specClear d core k (sclB f o x).toNat) [])))

end Sys2Proof.Machine
end

