-- ==== Sys2Proof/Machine/Dsc.lean ====
section
/-! DEFINITION. DSC instructions: descriptor registers (R124 to R127). -/

namespace Sys2Proof.Machine

/-- Word `w` of a descriptor register replaced. -/
def putWord (r : BitVec 512) (w : Nat) (v : W64) : BitVec 512 := bvPut r (64 * w) 64 v.toNat

/-- Word `w` of a descriptor register. -/
def getWord (r : BitVec 512) (w : Nat) : W64 := BitVec.ofNat 64 (dword r w 0 64)

/-- DLD: DN := 64 bytes of the scratchpad (R125). -/
def execDld (core : Nat) (f : BitVec 4) (o : BitVec 112) (errs : List MemErr) (s : State) :
    Host.Outcome State Fault Refusal :=
  finish s (issue s.dev core (mkWord 6 0x01 f o) (fun d c x =>
    let off := seqOffset (sreg x (fld o 91 5)) (fld o 0 32)
    guarded ((0x0303, f != 0#4 || !onlyFields o [(104, 8), (91, 5), (0, 32)]) :: seqConds off 64)
      (whenReady (granulesReady (coreOf d core) (seqGranules off 64) [])
        (seqRead s d core c x.pc off 8 errs (fun d v =>
          modCore d core (fun k => setDesc k (fld o 104 8) (BitVec.ofNat 512 v)))))))

/-- DSAV: 64 bytes of the scratchpad := DN (R125). The write clears the poison of its words (R218). -/
def execDsav (core : Nat) (f : BitVec 4) (o : BitVec 112) (errs : List MemErr) (s : State) :
    Host.Outcome State Fault Refusal :=
  finish s (issue s.dev core (mkWord 6 0x02 f o) (fun d _ x =>
    let off := seqOffset (sreg x (fld o 91 5)) (fld o 0 32)
    let base := spadBase core + off
    guarded ((0x0303, f != 0#4 || !onlyFields o [(104, 8), (91, 5), (0, 32)]) :: seqConds off 64)
      (whenReady (granulesReady (coreOf d core) [] (seqGranules off 64))
        (let r := applyErrs d s.mem errs
         .next r.1 (r.2 ++ (rangeFrom 0 8).map (fun i => MemOp.unpoison (base + 8 * i) (gtimeNs d)) ++
           wrBytes base (leBytes 64 (descOf (coreOf d core) (fld o 104 8)).toNat))))))

/-- DSET: a word, or one half of it, written (R126). -/
def execDset (core : Nat) (f : BitVec 4) (o : BitVec 112) (s : State) : Host.Outcome State Fault Refusal :=
  finish s (issue s.dev core (mkWord 6 0x03 f o) (fun d _ x =>
    let imm := natBit f.toNat 0
    let hi := natBit f.toNat 1
    let w := fld o 101 3
    guarded [(0x0303, f.toNat / 4 != 0 || (hi && !imm) ||
        !onlyFields o ([(104, 8), (101, 3)] ++ (if imm then [(0, 32)] else [(91, 5)])))]
      (.next (modCore d core (fun k =>
        let r := descOf k (fld o 104 8)
        setDesc k (fld o 104 8)
          (if imm then bvPut r (64 * w + (if hi then 32 else 0)) 32 (fld o 0 32)
           else putWord r w (sreg x (fld o 91 5))))) [])))

/-- DINS: the low bits of SA into bits LSB to LSB + WM1 of DN (R126). -/
def execDins (core : Nat) (f : BitVec 4) (o : BitVec 112) (s : State) : Host.Outcome State Fault Refusal :=
  finish s (issue s.dev core (mkWord 6 0x04 f o) (fun d _ x =>
    let lsb := fld o 95 9
    let wm1 := fld o 89 6
    guarded [(0x0303, f != 0#4 || !onlyFields o [(104, 8), (95, 9), (89, 6), (84, 5)]), (0x030E, decide (511 < lsb + wm1))]
      (.next (modCore d core (fun k =>
        setDesc k (fld o 104 8) (bvPut (descOf k (fld o 104 8)) lsb (wm1 + 1) (sreg x (fld o 84 5)).toNat))) [])))

/-- DADD: SA, or IMM32 sign-extended, added to a word modulo 2^64 (R126). -/
def execDadd (core : Nat) (f : BitVec 4) (o : BitVec 112) (s : State) : Host.Outcome State Fault Refusal :=
  finish s (issue s.dev core (mkWord 6 0x05 f o) (fun d _ x =>
    let imm := natBit f.toNat 0
    let w := fld o 101 3
    let v := if imm then sext32 (fld o 0 32) else sreg x (fld o 91 5)
    guarded [(0x0303, f.toNat / 2 != 0 ||
        !onlyFields o ([(104, 8), (101, 3)] ++ (if imm then [(0, 32)] else [(91, 5)])))]
      (.next (modCore d core (fun k =>
        let r := descOf k (fld o 104 8)
        setDesc k (fld o 104 8) (putWord r w (getWord r w + v)))) [])))

/-- DCPY: DN := DM (R126). -/
def execDcpy (core : Nat) (f : BitVec 4) (o : BitVec 112) (s : State) : Host.Outcome State Fault Refusal :=
  finish s (issue s.dev core (mkWord 6 0x06 f o) (fun d _ _ =>
    guarded [(0x0303, f != 0#4 || !onlyFields o [(104, 8), (96, 8)])]
      (.next (modCore d core (fun k => setDesc k (fld o 104 8) (descOf k (fld o 96 8)))) [])))

end Sys2Proof.Machine
end

