-- ==== Sys2Proof/Machine/I3c.lean ====
section
/-! DEFINITION. The board controller's I3C sideband (R489 to R491, R542). -/

namespace Sys2Proof.Machine

/-- The status byte, and what follows it, that the next private read returns (R490). -/
def i3cReply (d : Dev) (status : Nat) (data : List Byte) : Dev := emit d (.i3cReply (leBytes 1 status ++ data))

/-- The arming ends (R490). -/
def i3cDisarm (d : Dev) : Dev := { d with own := { d.own with armed := none } }

/-- Whether EPO and RESET are armed now: less than 100 ms have passed since ARM (R490). -/
def i3cArmed (d : Dev) : Bool :=
  match d.own.armed with
  | some t => decide (d.boot.aonNs < t)
  | none => false

/-- Whether every command is answered: stage 2 has passed and the device is in P0 with its supplies on (R490, R542). -/
def i3cReady (d : Dev) : Bool := decide (3 ≤ bootStage d) && regsAwake d && d.pwr.st == 0

/-- A private write of any command but ARM, EPO and RESET: it wakes a sleeping device and clears the arming, and is answered
by `go` once the device is ready. Without the always-on supply nothing answers (R490, R542, R574). -/
def i3cOther (w : Work) (go : Work → Work) : Work :=
  if w.dev.pwr.aonLost then w
  else
    let w1 := wDev w (fun d => wakeDevice (i3cDisarm d) 5)
    if i3cReady w.dev then go w1 else wDev w1 (fun d => i3cReply d 1 [])

/-- Offsets the always-on domain answers: PENNANT_0, PENNANT_1 and BRINGUP_STATUS (R490). -/
def i3cAlwaysOn (off width : Nat) : Bool :=
  (decide (0x1000 ≤ off) && decide (off + width ≤ 0x1080)) || off == 0x800

/-- READ32 and READ64. -/
def i3cRead (off width : Nat) (s : State) : Host.Outcome State Fault Refusal :=
  let w := workOf s
  let answer := fun (w : Work) =>
    let r := busRead w.dev w.mem 2 off width
    wDev w (fun _ => i3cReply r.2 0 (leBytes width r.1))
  finish s (wOut (
    if !w.dev.pwr.aonLost && i3cAlwaysOn off width && accessGood off width then
      answer (wDev w (fun d => wakeDevice (i3cDisarm d) 5))
    else i3cOther w (fun w => if accessGood off width then answer w else wDev w (fun d => i3cReply d 2 []))))

/-- WRITE32 and WRITE64: status 3 for a write dropped under R10. -/
def i3cWrite (off width value : Nat) (s : State) : Host.Outcome State Fault Refusal :=
  finish s (wOut (i3cOther (workOf s) (fun w =>
    if accessGood off width then
      let r := busWrite w 2 off width value
      wDev r.1 (fun d => i3cReply d r.2 [])
    else wDev w (fun d => i3cReply d 2 []))))

/-- I3C_READ32 (R490). -/
def execI3cRead32 (offset : Nat) (s : State) : Host.Outcome State Fault Refusal := i3cRead offset 4 s
/-- I3C_READ64 (R490). -/
def execI3cRead64 (offset : Nat) (s : State) : Host.Outcome State Fault Refusal := i3cRead offset 8 s
/-- I3C_WRITE32 (R490). -/
def execI3cWrite32 (offset value : Nat) (s : State) : Host.Outcome State Fault Refusal := i3cWrite offset 4 value s
/-- I3C_WRITE64 (R490). -/
def execI3cWrite64 (offset value : Nat) (s : State) : Host.Outcome State Fault Refusal := i3cWrite offset 8 value s

/-- I3C_ARM: with 0xE5, EPO and RESET are armed for 100 ms; another byte is a bad command (R490). -/
def execI3cArm (code : Nat) (s : State) : Host.Outcome State Fault Refusal :=
  let d := s.dev
  finishDev s (
    if d.pwr.aonLost then d
    else if code = 0xE5 then
      i3cReply (wakeDevice { d with own := { d.own with armed := some (d.boot.aonNs + 100000000) } } 5) 0 []
    else i3cReply (wakeDevice (i3cDisarm d) 5) 2 [])

/-- I3C_ARM_EXPIRY: the 100 ms have passed (R490). -/
def execI3cArmExpiry (s : State) : Host.Outcome State Fault Refusal :=
  let d := s.dev
  finishDev s (if d.own.armed.isSome ∧ !i3cArmed d then i3cDisarm d else d)

/-- I3C_EPO: with 0x5E and armed, whoever holds the burgee, in every stage and power state (R491, R539). -/
def execI3cEpo (code : Nat) (s : State) : Host.Outcome State Fault Refusal :=
  let d := s.dev
  finishDev s (
    if d.pwr.aonLost then d
    else if code = 0x5E ∧ i3cArmed d then i3cReply (epoNow (i3cDisarm d)) 0 []
    else i3cReply (wakeDevice (i3cDisarm d) 5) (if code = 0x5E then 1 else 2) [])

/-- I3C_RESET: with 0x5E and armed, it acts as a RESET_N assertion with reset cause 2, SLOT_ID sampled at its end (R491). -/
def execI3cReset (code slot : Nat) (s : State) : Host.Outcome State Fault Refusal :=
  let d := s.dev
  finish s (
    if d.pwr.aonLost then (d, [])
    else if code = 0x5E ∧ i3cArmed d then resetOrHold (i3cReply (i3cDisarm d) 0 []) 2 slot
    else (i3cReply (wakeDevice (i3cDisarm d) 5) (if code = 0x5E then 1 else 2) [], []))

/-- I3C_CLAIM_CHUNK: up to 240 bytes into the board controller's claim buffer (R490, R500). -/
def execI3cClaimChunk (offset : Nat) (bytes : List Byte) (s : State) : Host.Outcome State Fault Refusal :=
  finish s (wOut (i3cOther (workOf s) (fun w => wDev w (fun d =>
    if 240 < bytes.length ∨ 0x4000 < offset + bytes.length then i3cReply d 2 []
    else i3cReply (claimWrite d 2 offset bytes) 0 []))))

/-- I3C_ADDR_ASSIGN: SETDASA or ENTDAA gives the target a dynamic address (R490). -/
def execI3cAddrAssign (addr : Nat) (s : State) : Host.Outcome State Fault Refusal :=
  let d := s.dev
  finishDev s (if d.pwr.aonLost then d else { d with own := { d.own with i3cAddr := some (addr % 128) } })

/-- I3C_BAD_COMMAND: a private write whose command byte R490 does not define. A sleeping device answers 0x01 (R542). -/
def execI3cBadCommand (command : Nat) (s : State) : Host.Outcome State Fault Refusal :=
  let d := s.dev
  let known := [0x01, 0x02, 0x03, 0x04, 0x10, 0x11, 0x12, 0x20].contains (command % 256)
  finishDev s (
    if d.pwr.aonLost ∨ known then d
    else i3cReply (wakeDevice (i3cDisarm d) 5) (if d.pwr.st = 0 then 2 else 1) [])

end Sys2Proof.Machine
end

