-- ==== Sys2Proof/Machine/Mgmt.lean ====
section
/-! DEFINITION. Management packets and fabric commands: slices, tables and bunting maps (R295, R309 to R311, R315 to R317,
R359, R395, R498, R517, R518). -/

namespace Sys2Proof.Machine

/-! ### The mailbox (R317, R518) -/

/-- Whether a node is set in FM_NODES (R518, R530). -/
def fmNode (d : Dev) (node : Nat) : Bool :=
  (rangeFrom 0 4).any (fun i => natBit (regNat d 0x3C00058) i && natBits (regNat64 d 0x3C00050) (16 * i) 16 == node)

/-- A MGMT packet taken from the mailbox; one that the router has not put there arrives now, and is discarded at a full
mailbox. -/
def mgmtTake (d : Dev) (p : Packet) : Dev × Bool :=
  if d.fab.mailbox.contains p then ({ d with fab := { d.fab with mailbox := d.fab.mailbox.erase p } }, true)
  else
    match endCheck (countAge d p) p with
    | (d1, true) => if d1.fab.mailbox.length < 256 then (d1, true) else (intoMailbox d1 p, false)
    | (d1, false) => (d1, false)

/-- A MGMT packet of sub-type `sub` handled; `fm` where only the nodes of FM_NODES may send it. One whose SUB is reserved is
discarded by any row (R339, R517). -/
def onMgmt (w : Work) (p : Packet) (sub : Nat) (fm : Bool) (go : Work → Work) : Work :=
  if p.typ ≠ 8 ∨ !routerOn w.dev ∨ (p.sub ≠ sub ∧ p.sub ≤ 10) then w
  else
    match mgmtTake w.dev p with
    | (d1, false) => { w with dev := d1 }
    | (d1, true) =>
      if 10 < p.sub then { w with dev := typeBad d1 p }
      else if fm && !fmNode d1 p.src then { w with dev := regBump d1 0x1000A0 1 }
      else go { w with dev := d1 }

/-! ### Registers, claims and commands (R517) -/

/-- REG_REPLY. -/
def regReply (d : Dev) (dst off status value : Nat) : Dev :=
  sendMgmt d dst 2 (leBytes 4 off ++ leBytes 1 status ++ leBytes 3 0 ++ leBytes 8 value)

/-- MGMT_REG_READ (R517). -/
def execMgmtRegRead (p : Packet) (s : State) : Host.Outcome State Fault Refusal :=
  let off := payNat p 0 4
  let width := payNat p 4 1
  finish s (wOut (onMgmt (workOf s) p 0 true (fun w =>
    if accessGood off width then
      let r := busRead w.dev w.mem 3 off width
      wDev w (fun _ => regReply r.2 p.src off 0 r.1)
    else wDev w (fun d => regReply d p.src off 2 0))))

/-- MGMT_REG_WRITE, subject to the burgee (R499, R517). -/
def execMgmtRegWrite (p : Packet) (s : State) : Host.Outcome State Fault Refusal :=
  let off := payNat p 0 4
  let width := payNat p 4 1
  finish s (wOut (onMgmt (workOf s) p 1 true (fun w =>
    if accessGood off width then
      let r := busWrite w 3 off width (payNat p 8 8)
      wDev r.1 (fun d => regReply d p.src off r.2 0)
    else wDev w (fun d => regReply d p.src off 2 0))))

/-- MGMT_CLAIM_CHUNK: up to 252 bytes of the fabric manager's claim (R493, R517). -/
def execMgmtClaimChunk (p : Packet) (s : State) : Host.Outcome State Fault Refusal :=
  finish s (wOut (onMgmt (workOf s) p 3 true (fun w => wDev w (fun d =>
    let d1 := claimWrite d 3 (252 * payNat p 0 2) ((p.payload.drop 4).take (min 252 (p.len - 4)))
    { d1 with own := { d1.own with claimSrc := smapSet d1.own.claimSrc (payNat p 0 2) p.src } }))))

/-- MGMT_COMMAND: one command, while the fabric manager owns the device (R517). -/
def execMgmtCommand (p : Packet) (s : State) : Host.Outcome State Fault Refusal :=
  finish s (wOut (onMgmt (workOf s) p 5 true (fun w => wDev w (fun d =>
    if isOwner d 3 && p.len == 64 then cmdRun d w.mem (16 + p.src) (padTo 64 p.payload) else d))))

/-! ### Bunting (R315, R316) -/

/-- A count of the map under way. -/
def mapCount (d : Dev) (k : Nat) : Nat := smapGet d.fab.map k 0

/-- The map's entry of router port `p`, with the codewords FEC corrected in the interval. -/
def mapPort (d : Dev) (corr : List Nat) (p : Nat) : List Byte :=
  let c := fun o => mapCount d (32 * p + o)
  leBytes 4 (c 0) ++ leBytes 4 (c 4) ++ leBytes 4 (c 8) ++ leBytes 4 (c 12) ++ leBytes 4 (satAdd32 (listGet corr p 0) 0) ++
    leBytes 2 (c 20) ++ leBytes 2 (c 22) ++ leBytes 2 (c 24) ++ leBytes 1 (portLanes d p) ++
    leBytes 1 (if portSt d p = 2 then portRate d p else 0) ++ leBytes 1 (portSt d p) ++ leBytes 3 0

/-- INTERVAL and LEN_US of the interval that ends now. -/
def mapHead (d : Dev) : List Byte :=
  let us := regNat d 0x1000004
  leBytes 8 (gtimeNs d / (max 1 us * 1000) - 1) ++ leBytes 4 us

/-- The map of the interval that ends (R315). -/
def mapBytes (d : Dev) (corr : List Nat) : List Byte :=
  padTo 2048 (mapHead d ++ leBytes 2 (ownNode d) ++ leBytes 2 (regField d 0x1000020 0 16) ++ leBytes 48 0 ++
    allPorts.flatMap (mapPort d corr) ++ (rangeFrom 0 26).flatMap (fun i => leBytes 4 (mapCount d (2048 + i))))

/-- BUNTING_INTERVAL: the first router cycle after a boundary freezes the map of the interval just ended and starts the next,
with the corrected codewords of each port (R314, R315). -/
def execBuntingInterval (corr : List Nat) (s : State) : Host.Outcome State Fault Refusal :=
  let d := s.dev
  finishDev s (
    let len := max 1 (regNat d 0x1000004) * 1000
    if !routerOn d ∨ gtimeNs d < len ∨ gtimeNs d / len = d.fab.mapStart / len then d
    else { dayBump d 7 (corr.foldl (fun a b => a + b) 0) with
      fab := { d.fab with lastMap := mapBytes d corr, map := [], mapStart := gtimeNs d }
      rcd := { d.rcd with bunting := [] } })

/-- MGMT_BUNTING_READ: the last complete map in 8 packets (R316). A packet of 256 bytes is such an answer, and asks nothing. -/
def execMgmtBuntingRead (p : Packet) (s : State) : Host.Outcome State Fault Refusal :=
  finish s (wOut (onMgmt (workOf s) p 8 true (fun w => wDev w (fun d =>
    if p.len = 256 then d
    else (rangeFrom 0 8).foldl (fun e i => sendMgmt e p.src 8 (((padTo 2048 d.fab.lastMap).drop (256 * i)).take 256)) d))))

/-! ### Shard reads (R395, R517) -/

/-- Bytes of stream `i` of entry `t` in region CUR: 0 and the bytes, 6 where the range is not in a stream, 9 where it holds
poison. -/
def shardRead (d : Dev) (m : Mem) (t i off len : Nat) : Nat × List Byte :=
  match shardOf d t with
  | none => (6, [])
  | some x =>
    if shKind x = 2 ∨ 8 ≤ i then (6, [])
    else match streamShape (progOf d (shProg x)) x i with
      | none => (6, [])
      | some (fmt, row, rows) =>
        let size := if fmt = 3 then (row + 1) / 2 * rows else row * elemSize fmt * rows
        let a := shBase x i x.cur + off
        if len = 0 ∨ size < off + len ∨ accessReason d a len ≠ 0 then (6, [])
        else if rangeBad d m a len then (9, [])
        else (0, readAt m a len)

/-- MGMT_SHARD_READ: answered by SHARD_DATA, with status 2 where nothing can be read (R517). -/
def execMgmtShardRead (p : Packet) (s : State) : Host.Outcome State Fault Refusal :=
  finish s (wOut (onMgmt (workOf s) p 9 true (fun w => wDev w (fun d =>
    let len := payNat p 12 2
    let r := if 240 < len then (6, []) else shardRead d w.mem (payNat p 0 2) (payNat p 2 1) (payNat p 4 8) len
    sendMgmt d p.src 10 (leBytes 1 (if r.1 = 0 then 0 else 2) ++ leBytes 3 0 ++ r.2)))))

/-! ### Fabric commands (R309, R311) -/

/-- A command's bytes so far. -/
def fabBytes (c : FabCmd) : List Byte := c.got.flatMap (fun e => e.2)
/-- Every chunk has arrived. -/
def fabWhole (c : FabCmd) : Bool := c.got.length == c.chunks
/-- KIND: 1 slice, 2 table. -/
def fabKind (b : List Byte) : Nat := bytesNat b 0 2
/-- APPLY_TIME -/
def fabTime (b : List Byte) : Nat := bytesNat b 16 8
/-- SERIAL -/
def fabSerial (b : List Byte) : Nat := bytesNat b 8 8
/-- BODY -/
def fabBody (b : List Byte) : List Byte := b.drop 64

/-- The serial of the last command of a kind applied. -/
def lastSerial (d : Dev) (kind : Nat) : Nat := regNat64 d (if kind = 1 then 0x1000028 else 0x1000010)

/-- CMD_STATUS.PENDING follows the commands that wait (R318). -/
def settlePending (d : Dev) : Dev := regPutField d 0x1000030 4 1 (d.fab.cmds.any (fun c => c.verified)).toNat

/-- A command is rejected, with its record (R311). The reason stands in LAST_REJECT and in the byte after those R469 gives
(assumption log 34, DEDUCED). -/
def fabReject (d : Dev) (src reason : Nat) : Dev :=
  postRecord (regPutField d 0x1000030 0 4 reason)
    (recPort 0x0A22 2 0xFF 63 (netDetail src (ownNode d) 0 63 ++ leBytes 1 reason))

/-- Whether a command in arrival has waited more than 10 ms for its next packet (R311). -/
def fabLate (d : Dev) (c : FabCmd) : Bool := !c.verified && !fabWhole c && decide (c.last + 10000000 < d.boot.aonNs)

/-- One chunk joins the command of its source and length that is arriving; a repeated one replaces itself. One that comes later
than 10 ms after the last rejects what came before it, and starts anew (R311). -/
def fabChunk (d : Dev) (src chunk chunks : Nat) (bs : List Byte) : Dev :=
  let mine := fun c : FabCmd => c.src == src && !fabWhole c && !c.verified && c.chunks == chunks
  let old := d.fab.cmds.find? mine
  let late := (old.map (fabLate d)).getD false
  let base : FabCmd := if late then ⟨src, chunks, [], 0, false⟩ else old.getD ⟨src, chunks, [], 0, false⟩
  let new := { base with got := smapSet base.got chunk bs, last := d.boot.aonNs }
  let d1 := if late then fabReject d src 6 else d
  { d1 with fab := { d1.fab with cmds := d1.fab.cmds.filter (fun c => !mine c) ++ [new] } }

/-- MGMT_FABRIC_CMD: a chunk of a command, from any node (R309, R518). A chunk that numbers itself outside its command is out
of range. -/
def execMgmtFabricCmd (p : Packet) (s : State) : Host.Outcome State Fault Refusal :=
  finish s (wOut (onMgmt (workOf s) p 4 false (fun w => wDev w (fun d =>
    let chunk := payNat p 0 2
    let chunks := payNat p 2 2
    if chunks ≤ chunk ∨ 47 < chunks ∨ p.len < 5 then fabReject d p.src 4
    else fabChunk d p.src chunk chunks ((p.payload.drop 4).take (min 252 (p.len - 4)))))))

/-- FABRIC_CMD_TIMEOUT: 10 ms have passed since the latest packet of a command (R311). -/
def execFabricCmdTimeout (s : State) : Host.Outcome State Fault Refusal :=
  let d := s.dev
  finishDev s (match d.fab.cmds.find? (fabLate d) with
    | some c => fabReject { d with fab := { d.fab with cmds := d.fab.cmds.erase c } } c.src 6
    | none => d)

/-- Whether every byte of a range is 0. -/
def zeroBytes (b : List Byte) (lo k : Nat) : Bool := ((b.drop lo).take k).all (fun x => x == 0#8)

/-- Whether a command's lengths and fields are in range (R309). -/
def fabRange (b : List Byte) : Bool :=
  let len := bytesNat b 4 4
  let x := fabBody b
  if fabKind b = 1 then len == 8320 && b.length == 64 + 8320 + 3309
  else if fabKind b = 2 then
    len == 4624 && b.length == 64 + 4624 + 3309 && decide (1 ≤ bytesNat x 0 2 ∧ bytesNat x 0 2 ≤ 1000) &&
      decide (bytesNat x 0 2 + 1 ≤ bytesNat x 2 2 ∧ bytesNat x 2 2 ≤ 10000) &&
      decide (10 ≤ bytesNat x 4 4 ∧ bytesNat x 4 4 ≤ 10000)
  else false

/-- Whether every reserved byte and bit of a command is 0 (R309). -/
def fabClean (b : List Byte) : Bool :=
  let x := fabBody b
  zeroBytes b 24 40 &&
    (if fabKind b = 1 then
       zeroBytes x 2 2 && zeroBytes x 8 8 && zeroBytes x 94 34 && natBits (bytesNat x 0 2) 10 5 == 0 &&
         allPorts.all (fun p => natBits (bytesNat x (16 + 2 * p) 2) 10 5 == 0)
     else
       zeroBytes x 8 8 && (rangeFrom 0 64).all (fun i => natBits (bytesNat x (4112 + 8 * i) 8) 39 25 == 0))

/-- The first reason to reject a command, in the order of CMD_STATUS.LAST_REJECT; 0 for none. The verdict on the signature
is given. A reserved KIND has no last serial (assumption log 138, DEDUCED). -/
def fabReason (d : Dev) (b : List Byte) (good : Bool) : Nat :=
  if !good then 1
  else if bytesNat b 2 2 ≠ ownNode d then 2
  else if (fabKind b = 1 ∨ fabKind b = 2) ∧ fabSerial b ≤ lastSerial d (fabKind b) then 3
  else if !fabRange b then 4
  else if !fabClean b then 5
  else 0

/-- The member bitmap of a slice command. -/
def fabMembers (b : List Byte) : Nat := leNat ((fabBody b).drop 128 |>.take 8192)

/-- The members a slice command excludes, this device apart, as a bitmap (R359). -/
def exclMask (d : Dev) (b : List Byte) : Nat :=
  natPut (d.fab.members &&& (d.fab.members ^^^ fabMembers b)) (ownNode d) 1 0

/-- The verified slice commands that wait for their APPLY_TIME drain the members they exclude, each until MAX_AGE before it
(R359). -/
def drainSet (d : Dev) (also : List (List Byte)) : Dev :=
  let bs := also ++ (d.fab.cmds.filter (fun c => c.verified && fabKind (fabBytes c) == 1)).map fabBytes
  { d with ni := { d.ni with
    draining := bs.foldl (fun acc b => acc ||| exclMask d b) 0
    drainBy := match bs with
      | [] => 0
      | b :: t => t.foldl (fun acc b => min acc (fabTime b - maxAgeNs d)) (fabTime b - maxAgeNs d) } }

/-- A verified slice command takes effect (R309 to R311, R498). -/
def sliceApply (d : Dev) (b : List Byte) : Dev :=
  let x := fabBody b
  let d1 := regPut64 (regPutNat (regPutNat d 0x1000020 (bytesNat x 0 2)) 0x1000024 (bytesNat x 4 4)) 0x1000028 (fabSerial b)
  let d2 := allPorts.foldl (fun e p => regPutNat e (0x1001000 + 4 * p) (bytesNat x (16 + 2 * p) 2)) d1
  let d3 := drainSet { d2 with fab := { d2.fab with members := fabMembers b } } []
  let d4 := allPorts.foldl settleFence d3
  if isOwner d4 3 && !natBit (fabMembers b) d4.own.ownerNode then burgeeVacate d4 else d4

/-- A verified table command takes effect: the inactive bank is loaded and the banks are exchanged (R295). -/
def tableApply (d : Dev) (b : List Byte) : Dev :=
  let x := fabBody b
  let bank := 1 - regField d 0x1000008 0 1
  let rs := (rangeFrom 0 1024).map (fun r => (1024 * bank + r, BitVec.ofNat 32 (bytesNat x (16 + 4 * r) 4)))
  let ls := (rangeFrom 0 64).map (fun i => (64 * bank + i, BitVec.ofNat 64 (bytesNat x (4112 + 8 * i) 8)))
  let oldR := d.fab.racks.filter (fun e => e.1 / 1024 != bank)
  let oldL := d.fab.locals.filter (fun e => e.1 / 64 != bank)
  let d1 := { d with fab := { d.fab with
    racks := if bank = 0 then rs ++ oldR else oldR ++ rs
    locals := if bank = 0 then ls ++ oldL else oldL ++ ls } }
  let d2 := regPutNat (regPutNat d1 0x1000000 (bytesNat x 0 4)) 0x1000004 (bytesNat x 4 4)
  regPut64 (regPutField d2 0x1000008 0 1 bank) 0x1000010 (fabSerial b)

/-! ### The drain before a slice change (R359) -/

/-- The peers of this device's streams and collectives that a slice command excludes. -/
def drainPeers (d : Dev) (b : List Byte) : List Nat :=
  let peers := d.ni.streams.map (fun e => e.1) ++ d.ni.colls.flatMap (fun c => (otherRanks c).map (rankNode c))
  (peers.filter (fun n => natBit (exclMask d b) n)).foldl keyInsert []

/-- A multicast whose drained children are pruned and adopted; a node left with no member above it to adopt it ends with
FENCED (R353, R359). -/
def drainCast (gone : Nat → Bool) (d : Dev) (n : Nat) : Dev :=
  match collFind d n with
  | none => d
  | some c =>
    let d1 := (treeOrder c).foldl (fun e r => if gone r then pruneKid e n r else e) d
    if !isRoot c && !c.got.contains c.rank && gone c.parent && (treeAbove c c.rank c.size).all gone then failRank d1 n c.parent 2 else d1

/-- A collective's parts with drained ranks end with FENCED; a multicast adopts (R359). -/
def drainColl (ps : List Nat) (d : Dev) (c : Coll) : Dev :=
  let gone := fun r => ps.contains (rankNode c r)
  if c.kind = 5 then drainCast gone d c.num
  else
    let open_ := fun r =>
      if isTree c.kind then !c.released
      else if c.kind = 4 then (r == c.root && !c.sent.contains r) || (r == c.parent && c.got.isEmpty)
      else (ranksMissing c).contains r
    failRanks d c.num 2 ((otherRanks c).filter (fun r => gone r && open_ r))

/-- Every binding of a drained peer closes, and the tokens held under its own go back (R358, R359). -/
def drainStream (d : Dev) (peer : Nat) : Dev :=
  (rangeFrom 0 16).foldl (fun e b =>
    let e1 := if (rxOf e peer b).coll.isSome then closeRx e peer b else e
    let t := txOf e1 peer b
    if t.use ≠ 0 ∨ t.open_ then txStop e1 peer b else e1) d

/-- Peers that a slice command excludes are drained (R359). -/
def drainDev (d : Dev) (b : List Byte) : Dev :=
  let ps := drainPeers d b
  let d1 := drainSet d [b]
  let d2 := (d1.ni.colls.filter (fun c => c.phase == 1)).foldl (drainColl ps) d1
  ps.foldl drainStream d2

/-- The drain begins. -/
def drainBegin (w : Work) (b : List Byte) : Work := niSettle (wDev w (fun d => drainDev d b))

/-- A verified command takes effect, unless a later one of its kind has been applied meanwhile. What a slice change still
leaves with an excluded peer ends as its drain would have ended it (R346, R359). -/
def fabApply (w : Work) (c : FabCmd) : Work :=
  let b := fabBytes c
  let w1 := wDev w (fun d => settlePending { d with fab := { d.fab with cmds := d.fab.cmds.erase c } })
  if fabSerial b ≤ lastSerial w1.dev (fabKind b) then wDev w1 (fun d => fabReject d c.src 3)
  else if fabKind b = 1 then niSettle (wDev w1 (fun d => sliceApply (drainDev d b) b))
  else wDev w1 (fun d => tableApply d b)

/-- FABRIC_CMD_VERIFIED: the security engine has checked the oldest complete command, with its verdict on the signature
(R311). -/
def execFabricCmdVerified (good : Bool) (s : State) : Host.Outcome State Fault Refusal :=
  let w := workOf s
  finish s (wOut (match w.dev.fab.cmds.find? (fun c => !c.verified && fabWhole c) with
    | none => w
    | some c =>
      let b := fabBytes c
      let r := fabReason w.dev b good
      if r ≠ 0 then wDev w (fun d => fabReject { d with fab := { d.fab with cmds := d.fab.cmds.erase c } } c.src r)
      else
        let v := { c with verified := true }
        let w1 := wDev w (fun d => settlePending { d with fab := { d.fab with cmds := d.fab.cmds.map (fun x => if x = c then v else x) } })
        if fabTime b ≤ gtimeNs w1.dev then fabApply w1 v
        else if fabKind b = 1 then drainBegin w1 b
        else w1))

/-- The oldest verified command of a kind whose APPLY_TIME has come. -/
def fabDue (d : Dev) (kind : Nat) : Option FabCmd :=
  d.fab.cmds.find? (fun c => c.verified && fabKind (fabBytes c) == kind && decide (fabTime (fabBytes c) ≤ gtimeNs d))

/-- SLICE_COMMAND: a verified slice command reaches its APPLY_TIME (R311, R359). -/
def execSliceCommand (s : State) : Host.Outcome State Fault Refusal :=
  finish s (wOut (match fabDue s.dev 1 with | some c => fabApply (workOf s) c | none => workOf s))

/-- TABLE_COMMAND: a verified table command reaches its APPLY_TIME (R295, R311). -/
def execTableCommand (s : State) : Host.Outcome State Fault Refusal :=
  finish s (wOut (match fabDue s.dev 2 with | some c => fabApply (workOf s) c | none => workOf s))

end Sys2Proof.Machine
end

