-- ==== Sys2Proof/Machine/Monitor.lean ====
section
/-! DEFINITION. The Dolush serial monitor's commands (R553 to R564). -/

namespace Sys2Proof.Machine

/-! ### Lines and tokens (R556, R557) -/

/-- The characters of a received line after backspaces, its terminator left out. -/
def editLine (line : List Byte) : List Nat :=
  ((line.map BitVec.toNat).filter (fun c => c != 10 && c != 13)).foldl (fun acc c =>
    if c = 8 ∨ c = 127 then acc.dropLast else acc ++ [c]) []

/-- Tokens, separated by spaces. -/
def lineTokens (cs : List Nat) : List (List Nat) :=
  let r := cs.foldr (fun c (acc : List Nat × List (List Nat)) =>
    if c = 32 then ([], if acc.1.isEmpty then acc.2 else acc.1 :: acc.2) else (c :: acc.1, acc.2)) ([], [])
  if r.1.isEmpty then r.2 else r.1 :: r.2

/-- A character in upper case. -/
def upChar (c : Nat) : Nat := if 97 ≤ c ∧ c ≤ 122 then c - 32 else c

/-- Whether a token is a word, in any case. -/
def isWord (t : List Nat) (s : String) : Bool := t.map upChar == s.toList.map Char.toNat

/-- A digit's value in base `b`, if it is one. -/
def digitOf (b c : Nat) : Option Nat :=
  let u := upChar c
  if 48 ≤ u ∧ u ≤ 57 then (if u - 48 < b then some (u - 48) else none)
  else if 65 ≤ u ∧ u ≤ 70 ∧ b = 16 then some (u - 55) else none

/-- A digit string in base `b`; `none` where it is empty or holds another character. -/
def digitsOf (b : Nat) (cs : List Nat) : Option Nat :=
  if cs.isEmpty then none
  else cs.foldl (fun acc c => match acc, digitOf b c with | some v, some x => some (v * b + x) | _, _ => none) (some 0)

/-- A number: decimal, or hexadecimal after 0x; underscores are ignored. -/
def numOf (t : List Nat) : Option Nat :=
  match t.filter (fun c => c != 95) with
  | 48 :: 120 :: cs => digitsOf 16 cs
  | 48 :: 88 :: cs => digitsOf 16 cs
  | cs => digitsOf 10 cs

/-- Bytes as pairs of hexadecimal digits. -/
def hexBytesOf (t : List Nat) : Option (List Byte) :=
  match t with
  | [] => some []
  | a :: b :: r =>
    match digitOf 16 a, digitOf 16 b, hexBytesOf r with
    | some x, some y, some bs => some (BitVec.ofNat 8 (16 * x + y) :: bs)
    | _, _, _ => none
  | _ => none

/-- A check code at a line's end: the characters before it and its value. -/
def checkOf (cs : List Nat) : Option (List Nat × Nat) :=
  let n := cs.length - 3
  match cs.drop n with
  | [42, a, b] =>
    (match digitOf 16 a, digitOf 16 b with
     | some x, some y => some (cs.take n, 16 * x + y)
     | _, _ => none)
  | _ => none

/-- A command line: whether it carries a check code and that code is right, and its tokens. -/
structure MonCmd where
  check : Bool
  right : Bool
  toks : List (List Nat)
  deriving DecidableEq, Repr

/-- A line's form. -/
def monParse (cs : List Nat) : MonCmd :=
  match checkOf cs with
  | some (body, v) => ⟨true, body.foldl (fun a b => a + b) 0 % 256 == v, lineTokens body⟩
  | none => ⟨false, true, lineTokens cs⟩

/-! ### When a command runs (R555, R557 to R559) -/

/-- A command word: whether it writes state, and so needs the burgee and a check code, whether the ROM monitor has it, and
whether there it waits for stage 1 (R555, R560). -/
structure MonWordRow where
  word : String
  burgee : Bool
  rom : Bool
  later : Bool

/-- The command table (R560). -/
def monWords : List MonWordRow := [
  ⟨"HELP", false, true, false⟩, ⟨"ID", false, true, false⟩, ⟨"PEN", false, true, false⟩, ⟨"RD", false, true, false⟩,
  ⟨"WR", true, false, false⟩, ⟨"DUMP", false, false, false⟩, ⟨"SHARD", false, false, false⟩, ⟨"BUNT", false, false, false⟩,
  ⟨"LEDGER", false, false, false⟩, ⟨"BEAT", false, false, false⟩, ⟨"TEMP", false, false, false⟩, ⟨"FAULTS", false, false, false⟩,
  ⟨"CLAIM", false, true, true⟩, ⟨"BURGEE", true, true, false⟩, ⟨"QUOTE", false, true, true⟩, ⟨"STAGE", true, true, true⟩,
  ⟨"FWUPD", true, true, true⟩, ⟨"VARIANT", true, true, true⟩, ⟨"KEYUPD", true, false, false⟩, ⟨"BAUD", false, true, false⟩]

/-- The row of a command word. -/
def monRow (t : List Nat) : Option MonWordRow := monWords.find? (fun r => isWord t r.word)

/-- Whether a monitor answers: not in stage 0, nor asleep, nor without supplies (R555). -/
def monRuns (d : Dev) : Bool :=
  decide (1 ≤ bootStage d) && regsAwake d

/-- What the parts common to every command make of a line: an error, or the tokens after the word, for the command to run. -/
inductive MonGate where
  | err (code : Nat)
  | run (args : List (List Nat))
  deriving DecidableEq, Repr

/-- The checks every command meets, in this order: length, characters, check code, word, a check code where one is needed,
and the ROM monitor (R555 to R557, R559). -/
def monGate (d : Dev) (cs : List Nat) (c : MonCmd) : MonGate :=
  if 512 < cs.length then .err 8
  else if !cs.all (fun x => decide (32 ≤ x ∧ x ≤ 126)) then .err 1
  else if !c.right then .err 2
  else match c.toks with
    | [] => .err 1
    | t :: args =>
      match monRow t with
      | none => .err 3
      | some r =>
        if !c.check && (r.burgee || natBit (regNat d 0xA00C) 0) then .err 7
        else if d.mon.mode = 0 ∧ (!r.rom ∨ (r.later ∧ bootStage d < 2)) then .err 4
        else .run args

/-- Whether a line belongs to the row of `word` in form `sub`: its first token, and its second where the row has one. A line
too long for any command belongs to every row. -/
def monMine (cs : List Nat) (c : MonCmd) (word sub : String) : Bool :=
  decide (512 < cs.length) ||
    (match c.toks with
     | t :: u => isWord t word && (sub == "" || (match u with | x :: _ => isWord x sub | [] => false))
     | [] => false)

/-- What a command does with the tokens after its word: it answers the line, with check codes or without. -/
abbrev MonAct : Type := Work → Bool → List (List Nat) → Work

/-- A line answered: an error, or its command, `go` (R557 to R559). -/
def monExec (w : Work) (cs : List Nat) (go : MonAct) : Work :=
  let c := monParse cs
  match monGate w.dev cs c with
  | .err code => wDev w (fun d => monEr d (c.check && decide (cs.length ≤ 512)) code none)
  | .run args => go w c.check args

/-- A line received while a command runs: kept, up to 512 characters in all (R558, R559). -/
def monKeep (line : List Byte) (d : Dev) : Dev :=
  let held := (d.mon.buf.map (fun l => (l.getD []).length)).foldl (fun a b => a + b) 0
  let l := if held + line.length ≤ 512 then some line else none
  { d with mon := { d.mon with buf := d.mon.buf ++ [l] } }

/-- A line the monitor executes now, keeps for the end of the command that runs, or a sleeping device hears: characters wake it
and are discarded (R542, R555, R558). `go` is given the tokens after the word, and answers the line. -/
def monLineRun (w : Work) (line : List Byte) (mine : List Nat → MonCmd → Bool) (go : MonAct) : Work :=
  let cs := editLine line
  if cs.isEmpty ∨ !mine cs (monParse cs) ∨ w.dev.pwr.aonLost then w
  else
    let w1 := if w.dev.mon.baud ≤ 1 then wDev w (fun d => wakeDevice d 4) else w
    if !monRuns w.dev then w1
    else if w.dev.mon.due.isSome ∨ w.dev.mon.buf ≠ [] then wDev w1 (monKeep line)
    else monExec w1 cs go

/-- The end of the wait for a valid line at a new rate (R554). -/
def monValid (d : Dev) : Dev := { d with mon := { d.mon with revert := none } }

/-- A command with operands `read` understands: SYNTAX where it does not, then `act`. -/
def monArgs {α : Type} (read : List (List Nat) → Option α) (act : Work → Bool → α → Work) : MonAct :=
  fun w chk args =>
    match read args with
    | none => wDev w (fun d => monEr d chk 1 none)
    | some a => act (wDev w monValid) chk a

/-- The row of a command word, in form `sub` where the word has several. -/
def monCmd (line : List Byte) (word sub : String) (go : MonAct) (s : State) : Host.Outcome State Fault Refusal :=
  finish s (wOut (monLineRun (workOf s) line (fun cs c => monMine cs c word sub) go))

/-- No operands. -/
def noArgs (args : List (List Nat)) : Option Unit := if args.isEmpty then some () else none

/-- Every token a number. -/
def allNums (args : List (List Nat)) : Option (List Nat) :=
  match args with
  | [] => some []
  | t :: r => match numOf t, allNums r with | some v, some l => some (v :: l) | _, _ => none

/-- Between `lo` and `hi` numbers. -/
def numArgs (lo hi : Nat) (args : List (List Nat)) : Option (List Nat) :=
  if args.length < lo ∨ hi < args.length then none else allNums args

/-- A command that only reads: its lines, or its error. -/
def monReads (w : Work) (chk : Bool) (r : Nat × List (List MonWord)) : Work :=
  wDev w (fun d => if r.1 = 0 then monOk d chk r.2 else monEr d chk r.1 none)

/-- A command that writes a register, answered by OK or OWNER (R561). -/
def monWrites (w : Work) (chk : Bool) (off width v : Nat) : Work :=
  let r := busWrite w 4 off width v
  wDev r.1 (fun d => if r.2 = 0 then monOk d chk [] else monEr d chk 5 none)

/-- A write that a monitor without the burgee makes elsewhere: dropped, counted and answered (R499, R559). -/
def monNotOwner (w : Work) (chk : Bool) (off : Nat) : Work := wDev w (fun d => monEr (dropWrite d 4 off) chk 5 none)

/-! ### Reading commands (R560) -/

/-- What HELP does. -/
def monHelpGo : MonAct := monArgs noArgs (fun w chk _ => monReads w chk (0, monWords.map (fun r => [.txt "=", .txt r.word])))
/-- MON_HELP. -/
def execMonHelp (line : List Byte) (s : State) : Host.Outcome State Fault Refusal := monCmd line "HELP" "" monHelpGo s

/-- The line of ID. -/
def idLine (d : Dev) : List MonWord :=
  [.txt "=", .dec d.boot.part, .raw (padTo 16 ((d.boot.applied.drop 64).take 16)), .hex 4 (regField d 4 0 16),
   .dec (if d.mon.mode = 0 then 0 else (fwSlot d).version), .hex 8 (regNat d 0x10), .dec (regNat d 0x804)]

/-- What ID does. -/
def monIdGo : MonAct := monArgs noArgs (fun w chk _ => monReads w chk (0, [idLine w.dev]))
/-- MON_ID. -/
def execMonId (line : List Byte) (s : State) : Host.Outcome State Fault Refusal := monCmd line "ID" "" monIdGo s

/-- The name of a pennant's STATUS (R446). -/
def statusName (v : Nat) : String :=
  match v with
  | 0 => "NOT_REACHED"
  | 1 => "RUNNING"
  | 2 => "WAITING"
  | 3 => "PASS"
  | 4 => "DEGRADED"
  | _ => "FAIL"

/-- The line of a stage. -/
def penLine (d : Dev) (i : Nat) : List MonWord :=
  let b := smapGet d.boot.pennants i []
  [.txt "=P", .dec i, .txt (statusName (bytesNat b 1 1)), .dec (bytesNat b 2 1), .hex 4 (bytesNat b 20 2), .hex 4 (bytesNat b 22 2)]

/-- What PEN does. -/
def monPenGo : MonAct := monArgs (numArgs 0 1) (fun w chk a => monReads w chk (
    match a with
    | [] => (0, (rangeFrom 0 10).map (penLine w.dev))
    | i :: _ => if 9 < i then (6, []) else (0, [[.txt "=P", .dec i, .raw (padTo 64 (smapGet w.dev.boot.pennants i []))]])))
/-- MON_PEN. -/
def execMonPen (line : List Byte) (s : State) : Host.Outcome State Fault Refusal := monCmd line "PEN" "" monPenGo s

/-- What RD does. -/
def monRdGo : MonAct := monArgs (numArgs 1 2) (fun w chk a => monReads w chk (
    let off := listGet a 0 0
    let width := listGet a 1 4
    if !accessGood off width then (6, [])
    else if w.dev.mon.mode = 0 && !([0, 1, 8].contains (bar0Region off)) then (4, [])
    else (0, [[.txt "=", .hex 7 off, .hex (2 * width) (peekWidth w.dev w.mem off width)]])))
/-- MON_RD. The monitor's reads change nothing (R561); the ROM monitor reads three regions only. -/
def execMonRd (line : List Byte) (s : State) : Host.Outcome State Fault Refusal := monCmd line "RD" "" monRdGo s

/-- Bytes at a device-local address, for the monitor: 0 and the bytes, 6 out of range, 9 poison. -/
def dumpRead (d : Dev) (m : Mem) (a len : Nat) : Nat × List Byte :=
  let hi := a + (len - 1)
  let plain := if rangeBad d m a len then (9, []) else (0, readAt m a len)
  if len = 0 ∨ 256 < len then (6, [])
  else match spanRegion d.boot.part a hi with
    | .unmapped => (6, [])
    | .mirror _ => (0, (rangeFrom a len).map (mirrorView d m).byte)
    | .accStore => plain
    | .spad n => if corePresent d n then plain else (6, [])
    | _ => if viewClash d a hi then (6, []) else plain

/-- A line of bytes, or the error. -/
def bytesLine (r : Nat × List Byte) : Nat × List (List MonWord) := (r.1, [[.txt "=", .raw r.2]])

/-- What DUMP does. -/
def monDumpGo : MonAct := monArgs (numArgs 2 2) (fun w chk a =>
    monReads w chk (bytesLine (dumpRead w.dev w.mem (listGet a 0 0) (listGet a 1 0))))
/-- MON_DUMP. -/
def execMonDump (line : List Byte) (s : State) : Host.Outcome State Fault Refusal := monCmd line "DUMP" "" monDumpGo s

/-- What SHARD does. -/
def monShardGo : MonAct := monArgs (numArgs 4 4) (fun w chk a =>
    let len := listGet a 3 0
    monReads w chk (bytesLine (if 256 < len then (6, [])
      else shardRead w.dev w.mem (listGet a 0 0) (listGet a 1 0) (listGet a 2 0) len)))
/-- MON_SHARD (R395). -/
def execMonShard (line : List Byte) (s : State) : Host.Outcome State Fault Refusal := monCmd line "SHARD" "" monShardGo s

/-- BUNT's lines, from the last complete map (R316, R561). -/
def buntLines (b : List Byte) : List (List MonWord) :=
  allPorts.map (fun p =>
    let o := 64 + 32 * p
    let n := fun i k => MonWord.dec (bytesNat b (o + i) k)
    [.txt "=", .dec p, n 28 1, n 26 1, n 27 1, n 0 4, n 4 4, n 20 2, n 24 2]) ++
  [.txt "=AGE" :: (rangeFrom 0 16).map (fun i => MonWord.dec (bytesNat b (1312 + 4 * i) 4)),
   .txt "=STALL" :: (rangeFrom 0 4).map (fun i => MonWord.dec (bytesNat b (1376 + 4 * i) 4))]

/-- What BUNT does. -/
def monBuntGo : MonAct := monArgs (fun args => match args with | [] => some false | [t] => if isWord t "HEX" then some true else none | _ => none)
    (fun w chk hex =>
      let b := padTo 2048 w.dev.fab.lastMap
      monReads w chk (0, if hex then (rangeFrom 0 16).map (fun i => [.txt "=", .raw ((b.drop (128 * i)).take 128)])
        else buntLines b))
/-- MON_BUNT: `true` for HEX. -/
def execMonBunt (line : List Byte) (s : State) : Host.Outcome State Fault Refusal := monCmd line "BUNT" "" monBuntGo s

/-- The line of a ledger entry. -/
def ledgerLine (i : Nat) (e : LedgerEntry) : List MonWord :=
  [.txt "=", .dec i, .dec e.kind, .hex 2 e.flags, .hex 4 e.event, .hex 16 e.unit, .dec e.start]

/-- What LEDGER does. -/
def monLedgerGo : MonAct := monArgs (numArgs 0 2) (fun w chk a => monReads w chk (
    let l := w.dev.boot.ledger
    let first := listGet a 0 0
    let count := listGet a 1 16
    if 64 < count then (6, [])
    else
      let head := [.txt "=LEDGER", .dec l.length, .dec (decide (8192 ≤ l.length)).toNat, .dec (l.any (fun e => !e.good)).toNat]
      (0, head :: ((l.zipIdx.drop first).take count).map (fun e => ledgerLine e.2 e.1))))
/-- MON_LEDGER. -/
def execMonLedger (line : List Byte) (s : State) : Host.Outcome State Fault Refusal := monCmd line "LEDGER" "" monLedgerGo s

/-- BEAT's lines (R560). -/
def beatLines (d : Dev) : List (List MonWord) :=
  let t := d.tm
  let lag := lagMax d
  [[.txt "=TIME", .dec t.st, .dec t.depth, .dec t.parent, .hex 4 t.rootNode, .dec (gtimeNs d)],
   [.txt "=BEAT", .dec (beatEnable d).toNat, .dec (gridBeat d (gtimeNs d)), .dec lag.1, .dec lag.2,
    .dec (regNat d 0x200138), .dec (regNat d 0x20013C)]]

/-- What BEAT does. -/
def monBeatGo : MonAct := monArgs noArgs (fun w chk _ => monReads w chk (0, beatLines w.dev))
/-- MON_BEAT. -/
def execMonBeat (line : List Byte) (s : State) : Host.Outcome State Fault Refusal := monCmd line "BEAT" "" monBeatGo s

/-- TEMP's lines (R560). -/
def tempLines (d : Dev) : List (List MonWord) :=
  (rangeFrom 0 4).map (fun i => [.txt "=DIE", .dec i, .dec (smapGet d.pwr.temps i 0), .dec (regField d (0x3800080 + 4 * i) 8 8),
    .dec (dieClock d i), .dec (smapGet d.pwr.throttled i false).toNat]) ++
  (rangeFrom 0 20).map (fun k => let x := stackOf d k
    [.txt "=STACK", .dec k, .dec x.temp, .dec x.step, .txt (if x.classB then "B" else "A")]) ++
  (rangeFrom 0 8).map (fun e => let o := 0x3010000 + 0x1000 * e
    [.txt "=ENG", .dec e, .dec (regField d o 0 8), .dec (regField d o 8 8)]) ++
  [[.txt "=PKG", .dec (regField d 0x3800044 0 16), .dec (pkgCap d)]]

/-- What TEMP does. -/
def monTempGo : MonAct := monArgs noArgs (fun w chk _ => monReads w chk (0, tempLines w.dev))
/-- MON_TEMP. -/
def execMonTemp (line : List Byte) (s : State) : Host.Outcome State Fault Refusal := monCmd line "TEMP" "" monTempGo s

/-- The `n` latest records of FAULT_LOG, latest first. -/
def faultLines (d : Dev) (n : Nat) : List (List MonWord) :=
  (rangeFrom 0 (min n (lastSeq d))).map (fun i => [.txt "=", .raw (smapGet d.rcd.log ((lastSeq d - i) % 256) [])])

/-- What FAULTS does. -/
def monFaultsGo : MonAct := monArgs (numArgs 0 1) (fun w chk a => monReads w chk (
    let n := listGet a 0 8
    if n = 0 ∨ 64 < n then (6, []) else (0, faultLines w.dev n)))
/-- MON_FAULTS. -/
def execMonFaults (line : List Byte) (s : State) : Host.Outcome State Fault Refusal := monCmd line "FAULTS" "" monFaultsGo s

/-! ### Claims, the burgee and quotes (R493 to R497, R525) -/

/-- The monitor waits for a verification, whose response ends the command. -/
def monWait (w : Work) (kind : Nat) (chk : Bool) : Work := wDev w (fun d => { d with mon := { d.mon with due := some (kind, chk) } })

/-- A number and bytes. -/
def numBytes (args : List (List Nat)) : Option (Nat × List Byte) :=
  match args with
  | [a, b] => (match numOf a, hexBytesOf b with | some v, some bs => some (v, bs) | _, _ => none)
  | _ => none

/-- What CLAIM does with an offset and bytes. -/
def monClaimChunkGo : MonAct := monArgs numBytes (fun w chk a => wDev w (fun d =>
  if 200 < a.2.length ∨ 0x4000 < a.1 + a.2.length then monEr d chk 6 none else monOk (claimWrite d 4 a.1 a.2) chk []))
/-- MON_CLAIM_CHUNK: up to 200 bytes into claim buffer 4 (R500). A line of CLAIM GO is MON_CLAIM_GO's. -/
def execMonClaimChunk (line : List Byte) (s : State) : Host.Outcome State Fault Refusal :=
  finish s (wOut (monLineRun (workOf s) line
    (fun cs c => monMine cs c "CLAIM" "" && (decide (512 < cs.length) || !monMine cs c "CLAIM" "GO")) monClaimChunkGo))

/-- One token, the sub-word. -/
def oneWord (args : List (List Nat)) : Option Unit := match args with | [_] => some () | _ => none

/-- What CLAIM GO does. -/
def monClaimGoGo : MonAct := monArgs oneWord (fun w chk _ =>
    if w.dev.own.verifying.contains 4 then wDev w (fun d => monEr d chk 10 none)
    else monWait (wDev w (fun d => claimGo d 4)) 1 chk)
/-- MON_CLAIM_GO: the response comes when verification ends; BUSY while an earlier claim is verified. -/
def execMonClaimGo (line : List Byte) (s : State) : Host.Outcome State Fault Refusal := monCmd line "CLAIM" "GO" monClaimGoGo s

/-- What BURGEE RENEW does. -/
def monBurgeeRenewGo : MonAct := monArgs oneWord (fun w chk _ => monWrites w chk 0x100018 4 1)
/-- MON_BURGEE_RENEW. -/
def execMonBurgeeRenew (line : List Byte) (s : State) : Host.Outcome State Fault Refusal := monCmd line "BURGEE" "RENEW" monBurgeeRenewGo s

/-- What BURGEE RELEASE does. -/
def monBurgeeReleaseGo : MonAct :=
  monArgs (fun args => match args with | [t] => if isWord t "RELEASE" then some () else none | _ => none)
    (fun w chk _ => monWrites w chk 0x100018 4 2)
/-- MON_BURGEE_RELEASE. A BURGEE line with any word but RENEW is answered here. -/
def execMonBurgeeRelease (line : List Byte) (s : State) : Host.Outcome State Fault Refusal :=
  finish s (wOut (monLineRun (workOf s) line
    (fun cs c => monMine cs c "BURGEE" "" && (decide (512 < cs.length) || !monMine cs c "BURGEE" "RENEW")) monBurgeeReleaseGo))

/-- What QUOTE does. -/
def monQuoteGo : MonAct := monArgs (fun args => match args with | [t] => hexBytesOf t | _ => none) (fun w chk bs =>
    if bs.length ≠ 32 then wDev w (fun d => monEr d chk 6 none)
    else if w.dev.own.attestQueue.contains 4 then wDev w (fun d => monEr d chk 10 none)
    else monWait (wDev w (fun d => attestGo (attestWrite d 4 0 bs) 4)) 2 chk)
/-- MON_QUOTE: a nonce of 32 bytes; the response comes with the quote. -/
def execMonQuote (line : List Byte) (s : State) : Host.Outcome State Fault Refusal := monCmd line "QUOTE" "" monQuoteGo s

/-! ### Writing commands (R560, R561) -/

/-- What WR does. -/
def monWrGo : MonAct := monArgs (numArgs 2 3) (fun w chk a =>
    let off := listGet a 0 0
    let v := listGet a 1 0
    let width := listGet a 2 4
    if !accessGood off width ∨ 2 ^ (8 * width) ≤ v then wDev w (fun d => monEr d chk 6 none)
    else monWrites w chk off width v)
/-- MON_WR. -/
def execMonWr (line : List Byte) (s : State) : Host.Outcome State Fault Refusal := monCmd line "WR" "" monWrGo s

/-- Where STAGE may write: 0, or the error. -/
def stageCode (d : Dev) (a len : Nat) : Nat :=
  let hi := a + (len - 1)
  if len = 0 ∨ 200 < len then 6
  else match spanRegion d.boot.part a hi with
    | .accStore => 0
    | .unmapped => 6
    | .mirror _ => 6
    | .spad n => if d.mon.mode = 0 then 4 else if corePresent d n then 0 else 6
    | _ => if d.mon.mode = 0 then 4 else if viewClash d a hi then 6 else 0

/-- What STAGE does. -/
def monStageGo : MonAct := monArgs numBytes (fun w chk a =>
    let e := stageCode w.dev a.1 a.2.length
    if e ≠ 0 then wDev w (fun d => monEr d chk e none)
    else if !isOwner w.dev 4 then monNotOwner w chk 0
    else wDev (wMem w (writeAt w.dev w.mem a.1 a.2).1) (fun d => monOk d chk []))
/-- MON_STAGE. -/
def execMonStage (line : List Byte) (s : State) : Host.Outcome State Fault Refusal := monCmd line "STAGE" "" monStageGo s

/-- FWUPD, VARIANT and KEYUPD: the address is written, and GO set; the response comes when verification ends. -/
def monUpdate (w : Work) (chk : Bool) (a : List Nat) (addr go kind : Nat) (busy : Bool) : Work :=
  let v := listGet a 0 0
  if 2 ^ 42 ≤ v then wDev w (fun d => monEr d chk 6 none)
  else if !isOwner w.dev 4 then monNotOwner w chk addr
  else if busy then wDev w (fun d => monEr d chk 10 none)
  else
    let w1 := (busWrite w 4 addr 8 v).1
    monWait (busWrite w1 4 go 4 1).1 kind chk

/-- What FWUPD does. -/
def monFwupdGo : MonAct := monArgs (numArgs 1 1) (fun w chk a => monUpdate w chk a 0x3C00020 0x3C00028 3 (w.dev.own.fwUpd == 1))
/-- MON_FWUPD (R520, R555). -/
def execMonFwupd (line : List Byte) (s : State) : Host.Outcome State Fault Refusal := monCmd line "FWUPD" "" monFwupdGo s

/-- What VARIANT does. -/
def monVariantGo : MonAct := monArgs (numArgs 1 1) (fun w chk a => monUpdate w chk a 0x3C00070 0x3C00078 4 (w.dev.own.varUpd == 1))
/-- MON_VARIANT (R451). -/
def execMonVariant (line : List Byte) (s : State) : Host.Outcome State Fault Refusal := monCmd line "VARIANT" "" monVariantGo s

/-- What KEYUPD does. -/
def monKeyupdGo : MonAct := monArgs (numArgs 1 1) (fun w chk a => monUpdate w chk a 0x3C00040 0x3C00048 5 (w.dev.own.keyUpd == 1))
/-- MON_KEYUPD (R522). -/
def execMonKeyupd (line : List Byte) (s : State) : Host.Outcome State Fault Refusal := monCmd line "KEYUPD" "" monKeyupdGo s

/-! ### The rate (R554) -/

/-- What BAUD does. -/
def monBaudGo : MonAct := monArgs (numArgs 1 1) (fun w chk a =>
    let n := listGet a 0 0
    if 7 < n then wDev w (fun d => monEr d chk 6 none)
    else wDev w (fun d =>
      let d1 := monOk d chk []
      { d1 with mon := { d1.mon with baudNext := some (n, d1.boot.aonNs + 1000000) } }))
/-- MON_BAUD: the OK is sent at the old rate, and the switch follows 1 ms later. -/
def execMonBaud (line : List Byte) (s : State) : Host.Outcome State Fault Refusal := monCmd line "BAUD" "" monBaudGo s

/-- MON_BAUD_REVERT: 5 s have passed since the switch without a valid line. -/
def execMonBaudRevert (s : State) : Host.Outcome State Fault Refusal :=
  let d := s.dev
  finishDev s (match d.mon.revert with
    | some t => if t + 5000000000 ≤ d.boot.aonNs then { d with mon := { d.mon with baud := 0, revert := none } } else d
    | none => d)

/-! ### Lines kept while a command ran (R558) -/

/-- What a command word does with the tokens after it. -/
def monAct (t : List Nat) (w : Work) (chk : Bool) (args : List (List Nat)) : Work :=
  let first := fun sub => match args with | x :: _ => isWord x sub | [] => false
  if isWord t "HELP" then monHelpGo w chk args
  else if isWord t "ID" then monIdGo w chk args
  else if isWord t "PEN" then monPenGo w chk args
  else if isWord t "RD" then monRdGo w chk args
  else if isWord t "WR" then monWrGo w chk args
  else if isWord t "DUMP" then monDumpGo w chk args
  else if isWord t "SHARD" then monShardGo w chk args
  else if isWord t "BUNT" then monBuntGo w chk args
  else if isWord t "LEDGER" then monLedgerGo w chk args
  else if isWord t "BEAT" then monBeatGo w chk args
  else if isWord t "TEMP" then monTempGo w chk args
  else if isWord t "FAULTS" then monFaultsGo w chk args
  else if isWord t "CLAIM" then (if first "GO" then monClaimGoGo w chk args else monClaimChunkGo w chk args)
  else if isWord t "BURGEE" then (if first "RENEW" then monBurgeeRenewGo w chk args else monBurgeeReleaseGo w chk args)
  else if isWord t "QUOTE" then monQuoteGo w chk args
  else if isWord t "STAGE" then monStageGo w chk args
  else if isWord t "FWUPD" then monFwupdGo w chk args
  else if isWord t "VARIANT" then monVariantGo w chk args
  else if isWord t "KEYUPD" then monKeyupdGo w chk args
  else if isWord t "BAUD" then monBaudGo w chk args
  else w

/-- The oldest line kept is executed once no response is due; one that overran the buffer is answered with LONG (assumption
log 154, DESIGN CHOICE). -/
def monNext (w : Work) : Work :=
  if w.dev.mon.due.isSome ∨ !monRuns w.dev then w
  else match w.dev.mon.buf with
    | [] => w
    | l :: t =>
      let w1 := wDev w (fun d => { d with mon := { d.mon with buf := t } })
      match l with
      | none => wDev w1 (fun d => monEr d false 8 none)
      | some line =>
        let cs := editLine line
        if cs.isEmpty then w1
        else monExec w1 cs (match (monParse cs).toks with | t :: _ => monAct t | [] => fun w _ _ => w)

/-- MON_UNKNOWN: a line whose word names no command (R559). -/
def execMonUnknown (line : List Byte) (s : State) : Host.Outcome State Fault Refusal :=
  finish s (wOut (monLineRun (workOf s) line
    (fun cs c => decide (512 < cs.length) || (match c.toks with | t :: _ => (monRow t).isNone | [] => true))
    (fun w _ _ => w)))

end Sys2Proof.Machine
end

