-- ==== Sys2Proof/Machine/Syn.lean ====
section
/-! DEFINITION. SYN and PWR instructions: beats, fences, events and waiting for a power mode (R99 to R103, R131). -/

namespace Sys2Proof.Machine

/-- Whether a DMOV's copy form or a DACC writes to a board peer (R115, R117, R178). -/
def opToPeer (d : Dev) (o : LongOp) : Bool :=
  opClass o.word == 4 && (opCode o.word == 2 || (opCode o.word == 1 && bvBits o.word 112 2 == 0)) &&
    (tdesc (ownSlot d) o.dd).peer

/-- Whether a long operation is a MOV or VEC one whose writes go to this device (R101, MEM). -/
def opIsMem (d : Dev) (o : LongOp) : Bool :=
  opClass o.word == 3 || (opClass o.word == 4 && !opToPeer d o)

/-- Whether signals of a context are still unacknowledged by board peers (R101, R337). -/
def remBusy (d : Dev) (n c : Nat) (wide : Bool) : Bool :=
  d.ni.board.any (fun r => r.kind == 2 && r.core == n && (wide || r.ctx == c))

/-- Whether an SFENC with these flags still waits for an earlier long operation (R101). -/
def fenceBusy (d : Dev) (n c : Nat) (mem rem cols wide : Bool) : Bool :=
  let all := !mem && !rem && !cols
  (coreOf d n).ops.any (fun o => (wide || o.ctx == c) &&
    (((mem || all) && opIsMem d o) || ((rem || all) && opToPeer d o) || ((cols || all) && opClass o.word == 5))) ||
  ((rem || all) && remBusy d n c wide)

/-- The effect of SBEAT (R100): the context waits in SBEAT; when the beat can end now, it does. -/
def execSbeat (core : Nat) (f : BitVec 4) (o : BitVec 112) (s : State) : Host.Outcome State Fault Refusal :=
  finish s (issue s.dev core (mkWord 1 1 f o) (fun d c _ =>
    guarded [(0x0303, f.toNat / 2 != 0 || !onlyFields o [(107, 5)])]
      (.away (settleBeatEnd (modCtx d core c (fun x =>
        { x with st := 4, wait := .sbeat (fld o 107 5) (natBit f.toNat 0) })) core) [])))

/-- The effect of SFENC (R101). -/
def execSfenc (core : Nat) (f : BitVec 4) (o : BitVec 112) (s : State) : Host.Outcome State Fault Refusal :=
  finish s (issue s.dev core (mkWord 1 2 f o) (fun d c _ =>
    let b := fun i => natBit f.toNat i
    guarded [(0x0303, o != 0#112)]
      (whenReady (!fenceBusy d core c (b 0) (b 1) (b 2) (b 3)) (.next d []))))

/-- The effect of SWAIT (R102): it ends at once when Ek is at least V, subtracting V when DEC is set. -/
def execSwait (core : Nat) (f : BitVec 4) (o : BitVec 112) (s : State) : Host.Outcome State Fault Refusal :=
  finish s (issue s.dev core (mkWord 1 3 f o) (fun d c x =>
    let imm := natBit f.toNat 0
    let dec := natBit f.toNat 1
    let k := fld o 106 6
    let v := if imm then fld o 0 32 else (sreg x (fld o 91 5)).toNat % 2 ^ 32
    guarded [(0x0303, f.toNat / 4 != 0 || !onlyFields o (if imm then [(106, 6), (0, 32)] else [(106, 6), (91, 5)]))]
      (if v ≤ evGet d core k then
        .next (if dec then regPutNat d (coreOff core (0x400 + 4 * k)) (evGet d core k - v) else d) []
       else .away (modCtx d core c (fun x => { x with st := 3, wait := .swait k v dec })) [])))

/-- A SIGNAL request to a board peer (R336): TCORE, EVN and INC. -/
def signalPayload (tcore evn inc : Nat) : List Byte :=
  leBytes 2 tcore ++ leBytes 1 evn ++ leBytes 1 0 ++ leBytes 2 inc ++ leBytes 2 0

/-- The effect of SSIG (R103): an addition to a counter of a core here, or a SIGNAL to a board peer. A peer outside
the slice completes it with BOARD_FENCED (R28). -/
def execSsig (core : Nat) (f : BitVec 4) (o : BitVec 112) (s : State) : Host.Outcome State Fault Refusal :=
  finish s (issue s.dev core (mkWord 1 4 f o) (fun d c x =>
    let rel := natBit f.toNat 0
    let board := natBit f.toNat 1 && fld o 93 3 != ownSlot d
    let tc := fld o 96 8
    let evn := fld o 106 6
    let inc := fld o 0 16
    guarded
      [ (0x0303, f.toNat / 4 != 0 ||
          !onlyFields o ([(106, 6), (96, 8), (0, 16)] ++ (if natBit f.toNat 1 then [(93, 3)] else []))),
        (0x0320, !board && !corePresent d tc) ]
      (whenReady (!rel || !fenceBusy d core c true true false false)
        (if !board then .next (addEvent d tc evn inc) []
         else match boardSend d { blankReq (fld o 93 3) 2 core c x.pc (mkWord 1 4 f o) with
             len := 8, payload := signalPayload tc evn inc } with
          | (d1, true) => .next d1 []
          | (d1, false) => .done (afterWork (faultCtx d1 core c x.pc 0x0B59 2 (wordDetail (mkWord 1 4 f o))) core) []))))

/-- The effect of WAITM (R131): once its long operations are complete the context waits; an idle core gates (R540). -/
def execWaitm (core : Nat) (f : BitVec 4) (o : BitVec 112) (s : State) : Host.Outcome State Fault Refusal :=
  finish s (issue s.dev core (mkWord 8 1 f o) (fun d c _ =>
    guarded [(0x0303, f != 0#4 || !onlyFields o [(0, 32)])]
      (whenReady (!ctxBusy (coreOf d core) c)
        (.away (settleBeatEnd (gateIdle (modCtx d core c (fun x => { x with st := 5, wait := .waitm (fld o 0 32) })) core) core) []))))

/-- A WAITM's TIMEOUT expires (R131): the context leaves WAITM and continues; its core ungates (R541). -/
def execWaitmTimeout (core : Nat) (ctx : Nat) (s : State) : Host.Outcome State Fault Refusal :=
  finishDev s
    (match (ctxOf (coreOf s.dev core) ctx).wait with
     | .waitm us =>
       if us = 0 then s.dev
       else goOn (modCore s.dev core (fun k => { k with gated := false })) core ctx
     | _ => s.dev)

end Sys2Proof.Machine
end

