-- ==== Sys2Proof/Machine/Wake.lean ====
section
/-! DEFINITION. The end of an exit from P1, P2 or P3, and the host accesses that waited for it (R533, R534, R541, R542). -/

namespace Sys2Proof.Machine

/-- A host access that waited for the exit is made now (R542). -/
def hostLater (w : Work) (a : HostAcc) : Work :=
  match a.bar2, a.data with
  | false, some bs => masterPut w 1 a.off a.len (leNat bs)
  | false, none => wDev w (fun d => masterGet d w.mem 1 a.off a.len)
  | true, some bs => wBoth w (fun d m => bar2WriteGo d m a.off bs)
  | true, none => wBoth w (fun d m => bar2ReadGo (d, []) m a.off a.len a.errs)

/-- The accesses that waited, oldest first. -/
def hostLaters (w : Work) : Work :=
  w.dev.host.later.foldl hostLater (wDev w (fun d => { d with host := { d.host with later := [] } }))

/-- The exit ends. Leaving P3, firmware is checked and loaded again; where no slot boots, the device starts again from stage
0 (R534). The ageing record of a day that ended meanwhile is written (R478). -/
def exitNow (d : Dev) (m : Mem) (r : StageResult) : Dev × List MemOp :=
  if d.pwr.st = 1 then (exitP1 d, [])
  else if d.pwr.st = 2 then exitP2 d m r
  else match pickSlot d with
    | some (slot, _) => exitP3 { d with own := { d.own with bootSlot := slot, kickAt := d.boot.aonNs } } m r |>.map dayWake id
    | none => resetDevice d 0 (ownSlot d)

/-- POWER_EXIT_DONE, with the training results of the stacks that were off and, from P3, of the board ports. -/
def execPowerExitDone (r : StageResult) (s : State) : Host.Outcome State Fault Refusal :=
  let d := s.dev
  finish s (if d.pwr.exiting ∧ 1 ≤ d.pwr.st ∧ !d.pwr.tripped ∧ !d.own.epo then
    wOut (hostLaters (wBoth (workOf s) (fun d m => exitNow d m r)))
  else (d, []))

end Sys2Proof.Machine
end

