-- ==== Sys2Proof/Machine/Dispatch.lean ====
section
/-! DEFINITION. The meaning of each command: one arm per constructor. -/

namespace Sys2Proof.Machine

/-- The effect of a command on everything but the queue. -/
def exec (i : Instr) (s : State) : Host.Outcome State Fault Refusal :=
  match i with
  | .nop core f o => Sys2Proof.Machine.execNop core f o s
  | .loop core f o => Sys2Proof.Machine.execLoop core f o s
  | .br core f o => Sys2Proof.Machine.execBr core f o s
  | .brw core f o => Sys2Proof.Machine.execBrw core f o s
  | .call core f o => Sys2Proof.Machine.execCall core f o s
  | .ret core f o => Sys2Proof.Machine.execRet core f o s
  | .yield core f o => Sys2Proof.Machine.execYield core f o s
  | .halt core f o => Sys2Proof.Machine.execHalt core f o s
  | .issueHoldSwitch core => Sys2Proof.Machine.execIssueHoldSwitch core s
  | .sbeat core f o => Sys2Proof.Machine.execSbeat core f o s
  | .sfenc core f o => Sys2Proof.Machine.execSfenc core f o s
  | .swait core f o => Sys2Proof.Machine.execSwait core f o s
  | .ssig core f o => Sys2Proof.Machine.execSsig core f o s
  | .mopa core f o errs => Sys2Proof.Machine.execMopa core f o errs s
  | .mswp core f o => Sys2Proof.Machine.execMswp core f o s
  | .mdrn core f o => Sys2Proof.Machine.execMdrn core f o s
  | .mlds core f o errs => Sys2Proof.Machine.execMlds core f o errs s
  | .mopaComplete core => Sys2Proof.Machine.execMopaComplete core s
  | .mdrnComplete core => Sys2Proof.Machine.execMdrnComplete core s
  | .mldsComplete core => Sys2Proof.Machine.execMldsComplete core s
  | .matrixResidueMismatch core unit cell others => Sys2Proof.Machine.execMatrixResidueMismatch core unit cell others s
  | .vop core f o errs => Sys2Proof.Machine.execVop core f o errs s
  | .vred core f o errs => Sys2Proof.Machine.execVred core f o errs s
  | .vlut core f o errs => Sys2Proof.Machine.execVlut core f o errs s
  | .vperm core f o errs => Sys2Proof.Machine.execVperm core f o errs s
  | .vgath core f o errs => Sys2Proof.Machine.execVgath core f o errs s
  | .vscat core f o errs => Sys2Proof.Machine.execVscat core f o errs s
  | .vrng core f o errs => Sys2Proof.Machine.execVrng core f o errs s
  | .venc core f o errs => Sys2Proof.Machine.execVenc core f o errs s
  | .vdec core f o errs => Sys2Proof.Machine.execVdec core f o errs s
  | .vecComplete core => Sys2Proof.Machine.execVecComplete core s
  | .vectorResidueRetry core cycle lanes => Sys2Proof.Machine.execVectorResidueRetry core cycle lanes s
  | .dmovCopy core f o errs => Sys2Proof.Machine.execDmovCopy core f o errs s
  | .dmovTableLoad core f o errs => Sys2Proof.Machine.execDmovTableLoad core f o errs s
  | .dacc core f o errs => Sys2Proof.Machine.execDacc core f o errs s
  | .dpool core f o errs => Sys2Proof.Machine.execDpool core f o errs s
  | .dmaComplete core op => Sys2Proof.Machine.execDmaComplete core op s
  | .spadWordFail core word => Sys2Proof.Machine.execSpadWordFail core word s
  | .cgath core f o => Sys2Proof.Machine.execCgath core f o s
  | .crsc core f o => Sys2Proof.Machine.execCrsc core f o s
  | .ca2a core f o => Sys2Proof.Machine.execCa2a core f o s
  | .cperm core f o => Sys2Proof.Machine.execCperm core f o s
  | .cmcst core f o => Sys2Proof.Machine.execCmcst core f o s
  | .cred core f o => Sys2Proof.Machine.execCred core f o s
  | .cbar core f o => Sys2Proof.Machine.execCbar core f o s
  | .csend core f o => Sys2Proof.Machine.execCsend core f o s
  | .crecv core f o => Sys2Proof.Machine.execCrecv core f o s
  | .collectiveDequeue => Sys2Proof.Machine.execCollectiveDequeue s
  | .collectiveComplete num => Sys2Proof.Machine.execCollectiveComplete num s
  | .collectiveTimeout num => Sys2Proof.Machine.execCollectiveTimeout num s
  | .epochAdvance => Sys2Proof.Machine.execEpochAdvance s
  | .dld core f o errs => Sys2Proof.Machine.execDld core f o errs s
  | .dsav core f o errs => Sys2Proof.Machine.execDsav core f o errs s
  | .dset core f o => Sys2Proof.Machine.execDset core f o s
  | .dins core f o => Sys2Proof.Machine.execDins core f o s
  | .dadd core f o => Sys2Proof.Machine.execDadd core f o s
  | .dcpy core f o => Sys2Proof.Machine.execDcpy core f o s
  | .sclAdd core f o => Sys2Proof.Machine.execSclAdd core f o s
  | .sclSub core f o => Sys2Proof.Machine.execSclSub core f o s
  | .sclMul core f o => Sys2Proof.Machine.execSclMul core f o s
  | .sclAnd core f o => Sys2Proof.Machine.execSclAnd core f o s
  | .sclOr core f o => Sys2Proof.Machine.execSclOr core f o s
  | .sclXor core f o => Sys2Proof.Machine.execSclXor core f o s
  | .sclShl core f o => Sys2Proof.Machine.execSclShl core f o s
  | .sclShr core f o => Sys2Proof.Machine.execSclShr core f o s
  | .sclSar core f o => Sys2Proof.Machine.execSclSar core f o s
  | .sclMin core f o => Sys2Proof.Machine.execSclMin core f o s
  | .sclMax core f o => Sys2Proof.Machine.execSclMax core f o s
  | .sclSlt core f o => Sys2Proof.Machine.execSclSlt core f o s
  | .sclSltu core f o => Sys2Proof.Machine.execSclSltu core f o s
  | .sclLi core f o => Sys2Proof.Machine.execSclLi core f o s
  | .sclLd core f o errs => Sys2Proof.Machine.execSclLd core f o errs s
  | .sclSt core f o => Sys2Proof.Machine.execSclSt core f o s
  | .sclSrd core f o => Sys2Proof.Machine.execSclSrd core f o s
  | .sclSrw core f o => Sys2Proof.Machine.execSclSrw core f o s
  | .sclSrc core f o => Sys2Proof.Machine.execSclSrc core f o s
  | .waitm core f o => Sys2Proof.Machine.execWaitm core f o s
  | .waitmTimeout core ctx => Sys2Proof.Machine.execWaitmTimeout core ctx s
  | .istoreReload core index => Sys2Proof.Machine.execIstoreReload core index s
  | .cmdNop q cmd => Sys2Proof.Machine.execCmdNop q cmd s
  | .progLoad q cmd => Sys2Proof.Machine.execProgLoad q cmd s
  | .coreStart q cmd => Sys2Proof.Machine.execCoreStart q cmd s
  | .coreStop q cmd => Sys2Proof.Machine.execCoreStop q cmd s
  | .eventAdd q cmd => Sys2Proof.Machine.execEventAdd q cmd s
  | .cmdFence q cmd => Sys2Proof.Machine.execCmdFence q cmd s
  | .sqTailDoorbell master queue tail => Sys2Proof.Machine.execSqTailDoorbell master queue tail s
  | .qcfgEnableWrite master queue value => Sys2Proof.Machine.execQcfgEnableWrite master queue value s
  | .cqHeadWrite master queue head => Sys2Proof.Machine.execCqHeadWrite master queue head s
  | .frHeadWrite master head => Sys2Proof.Machine.execFrHeadWrite master head s
  | .regWrite master offset width value => Sys2Proof.Machine.execRegWrite master offset width value s
  | .rcFieldRead master offset width => Sys2Proof.Machine.execRcFieldRead master offset width s
  | .gtimeRead master width => Sys2Proof.Machine.execGtimeRead master width s
  | .nodeIdWrite master value => Sys2Proof.Machine.execNodeIdWrite master value s
  | .bandViewWrite master word value => Sys2Proof.Machine.execBandViewWrite master word value s
  | .clipLimitWrite master core value => Sys2Proof.Machine.execClipLimitWrite master core value s
  | .clipcntWrite master core bank value => Sys2Proof.Machine.execClipcntWrite master core bank value s
  | .numStatusClear master core value => Sys2Proof.Machine.execNumStatusClear master core value s
  | .ctxFlaggedClear master slot => Sys2Proof.Machine.execCtxFlaggedClear master slot s
  | .retireAck master seq => Sys2Proof.Machine.execRetireAck master seq s
  | .ledgerAppend => Sys2Proof.Machine.execLedgerAppend s
  | .timeSetWrite master ns => Sys2Proof.Machine.execTimeSetWrite master ns s
  | .rootEnableWrite master value => Sys2Proof.Machine.execRootEnableWrite master value s
  | .beatCfgWrite master field value => Sys2Proof.Machine.execBeatCfgWrite master field value s
  | .beatEnableWrite master value => Sys2Proof.Machine.execBeatEnableWrite master value s
  | .pinCfgWrite master slot value => Sys2Proof.Machine.execPinCfgWrite master slot value s
  | .progValidate master slot => Sys2Proof.Machine.execProgValidate master slot s
  | .shardValidate master entry => Sys2Proof.Machine.execShardValidate master entry s
  | .commitAbort master => Sys2Proof.Machine.execCommitAbort master s
  | .forceCommit master => Sys2Proof.Machine.execForceCommit master s
  | .forceAbort master => Sys2Proof.Machine.execForceAbort master s
  | .commitGroupWrite master addr value => Sys2Proof.Machine.execCommitGroupWrite master addr value s
  | .burgeeRenew master => Sys2Proof.Machine.execBurgeeRenew master s
  | .burgeeRelease master => Sys2Proof.Machine.execBurgeeRelease master s
  | .burgeeHandover master succ node => Sys2Proof.Machine.execBurgeeHandover master succ node s
  | .claimGo master => Sys2Proof.Machine.execClaimGo master s
  | .claimVerified authOk claimOk => Sys2Proof.Machine.execClaimVerified authOk claimOk s
  | .burgeeExpired => Sys2Proof.Machine.execBurgeeExpired s
  | .handoverExpiry => Sys2Proof.Machine.execHandoverExpiry s
  | .fwUpdateGo master => Sys2Proof.Machine.execFwUpdateGo master s
  | .fwUpdateDone ok => Sys2Proof.Machine.execFwUpdateDone ok s
  | .fwMinVersionWrite master svn => Sys2Proof.Machine.execFwMinVersionWrite master svn s
  | .keyUpdateGo master => Sys2Proof.Machine.execKeyUpdateGo master s
  | .keyUpdateDone ok => Sys2Proof.Machine.execKeyUpdateDone ok s
  | .variantUpdateGo master => Sys2Proof.Machine.execVariantUpdateGo master s
  | .variantUpdateDone ok => Sys2Proof.Machine.execVariantUpdateDone ok s
  | .attestGo master => Sys2Proof.Machine.execAttestGo master s
  | .quoteDone sig => Sys2Proof.Machine.execQuoteDone sig s
  | .watchdogKick => Sys2Proof.Machine.execWatchdogKick s
  | .watchdogRestart => Sys2Proof.Machine.execWatchdogRestart s
  | .pwrEnterP1 master => Sys2Proof.Machine.execPwrEnterP1 master s
  | .pwrEnterP2 master => Sys2Proof.Machine.execPwrEnterP2 master s
  | .pwrEnterP3 master => Sys2Proof.Machine.execPwrEnterP3 master s
  | .entryReask => Sys2Proof.Machine.execEntryReask s
  | .entryDelayExpired => Sys2Proof.Machine.execEntryDelayExpired s
  | .entryComplete => Sys2Proof.Machine.execEntryComplete s
  | .powerExitDone r => Sys2Proof.Machine.execPowerExitDone r s
  | .corePwrWake master core => Sys2Proof.Machine.execCorePwrWake master core s
  | .wakeSend master ports => Sys2Proof.Machine.execWakeSend master ports s
  | .monRxdWake => Sys2Proof.Machine.execMonRxdWake s
  | .wakeNRelease => Sys2Proof.Machine.execWakeNRelease s
  | .pkgPowerSample watts => Sys2Proof.Machine.execPkgPowerSample watts s
  | .dieTempSample die temp => Sys2Proof.Machine.execDieTempSample die temp s
  | .resetN slot => Sys2Proof.Machine.execResetN slot s
  | .perstN => Sys2Proof.Machine.execPerstN s
  | .hostLinkDown => Sys2Proof.Machine.execHostLinkDown s
  | .flr => Sys2Proof.Machine.execFlr s
  | .aonPowerLoss => Sys2Proof.Machine.execAonPowerLoss s
  | .bar2Read offset len errs => Sys2Proof.Machine.execBar2Read offset len errs s
  | .bar2Write offset bytes => Sys2Proof.Machine.execBar2Write offset bytes s
  | .i3cRead32 offset => Sys2Proof.Machine.execI3cRead32 offset s
  | .i3cRead64 offset => Sys2Proof.Machine.execI3cRead64 offset s
  | .i3cWrite32 offset value => Sys2Proof.Machine.execI3cWrite32 offset value s
  | .i3cWrite64 offset value => Sys2Proof.Machine.execI3cWrite64 offset value s
  | .i3cArm code => Sys2Proof.Machine.execI3cArm code s
  | .i3cArmExpiry => Sys2Proof.Machine.execI3cArmExpiry s
  | .i3cEpo code => Sys2Proof.Machine.execI3cEpo code s
  | .i3cReset code slot => Sys2Proof.Machine.execI3cReset code slot s
  | .i3cClaimChunk offset bytes => Sys2Proof.Machine.execI3cClaimChunk offset bytes s
  | .i3cAddrAssign addr => Sys2Proof.Machine.execI3cAddrAssign addr s
  | .mgmtRegRead p => Sys2Proof.Machine.execMgmtRegRead p s
  | .mgmtRegWrite p => Sys2Proof.Machine.execMgmtRegWrite p s
  | .mgmtClaimChunk p => Sys2Proof.Machine.execMgmtClaimChunk p s
  | .mgmtFabricCmd p => Sys2Proof.Machine.execMgmtFabricCmd p s
  | .mgmtCommand p => Sys2Proof.Machine.execMgmtCommand p s
  | .mgmtBuntingRead p => Sys2Proof.Machine.execMgmtBuntingRead p s
  | .mgmtShardRead p => Sys2Proof.Machine.execMgmtShardRead p s
  | .fabricCmdVerified good => Sys2Proof.Machine.execFabricCmdVerified good s
  | .fabricCmdTimeout => Sys2Proof.Machine.execFabricCmdTimeout s
  | .sliceCommand => Sys2Proof.Machine.execSliceCommand s
  | .tableCommand => Sys2Proof.Machine.execTableCommand s
  | .routerCycle arrivals board optical => Sys2Proof.Machine.execRouterCycle arrivals board optical s
  | .ageDrop port p => Sys2Proof.Machine.execAgeDrop port p s
  | .buntingInterval corr => Sys2Proof.Machine.execBuntingInterval corr s
  | .codewordUncorrectable port lost lane => Sys2Proof.Machine.execCodewordUncorrectable port lost lane s
  | .replayRequest port num ranges => Sys2Proof.Machine.execReplayRequest port num ranges s
  | .controlSlotReceive port slot => Sys2Proof.Machine.execControlSlotReceive port slot s
  | .halyardSend => Sys2Proof.Machine.execHalyardSend s
  | .halyardReceive port msg => Sys2Proof.Machine.execHalyardReceive port msg s
  | .timeHoldover => Sys2Proof.Machine.execTimeHoldover s
  | .delayMeasurement port => Sys2Proof.Machine.execDelayMeasurement port s
  | .portNarrowed port lane => Sys2Proof.Machine.execPortNarrowed port lane s
  | .laneMarkerReceive port lane marker => Sys2Proof.Machine.execLaneMarkerReceive port lane marker s
  | .laneLost port lane => Sys2Proof.Machine.execLaneLost port lane s
  | .pauseTimeout port => Sys2Proof.Machine.execPauseTimeout port s
  | .laneRemove port lane reason num => Sys2Proof.Machine.execLaneRemove port lane reason num s
  | .laneAdd port lane reason num passed => Sys2Proof.Machine.execLaneAdd port lane reason num passed s
  | .laneAck port lane num => Sys2Proof.Machine.execLaneAck port lane num s
  | .laneNak port lane num => Sys2Proof.Machine.execLaneNak port lane num s
  | .laneCalStep port lane point num => Sys2Proof.Machine.execLaneCalStep port lane point num s
  | .ringLoopUpdate port lane rx err sample heater => Sys2Proof.Machine.execRingLoopUpdate port lane rx err sample heater s
  | .ringUnlock port lane => Sys2Proof.Machine.execRingUnlock port lane s
  | .ringRelock port lane ok heat engine => Sys2Proof.Machine.execRingRelock port lane ok heat engine s
  | .calibrationTurn port => Sys2Proof.Machine.execCalibrationTurn port s
  | .calibrationDone port eye tx rx => Sys2Proof.Machine.execCalibrationDone port eye tx rx s
  | .boardAdaptTurn port eye => Sys2Proof.Machine.execBoardAdaptTurn port eye s
  | .laserPowerSample engine chan power bias freq => Sys2Proof.Machine.execLaserPowerSample engine chan power bias freq s
  | .laserFade engine chan => Sys2Proof.Machine.execLaserFade engine chan s
  | .laserEol engine chan => Sys2Proof.Machine.execLaserEol engine chan s
  | .laserFail engine chan => Sys2Proof.Machine.execLaserFail engine chan s
  | .laserHandover engine chan ok => Sys2Proof.Machine.execLaserHandover engine chan ok s
  | .launchCap port launch => Sys2Proof.Machine.execLaunchCap port launch s
  | .openFibre port input => Sys2Proof.Machine.execOpenFibre port input s
  | .partnerPulsesSeen r => Sys2Proof.Machine.execPartnerPulsesSeen r s
  | .opticalWakePattern port => Sys2Proof.Machine.execOpticalWakePattern port s
  | .boardWakePattern port => Sys2Proof.Machine.execBoardWakePattern port s
  | .trainWindowExpiry port => Sys2Proof.Machine.execTrainWindowExpiry port s
  | .dieLinkRetry link lane spare lanes => Sys2Proof.Machine.execDieLinkRetry link lane spare lanes s
  | .vrDroop core long mv setpoint => Sys2Proof.Machine.execVrDroop core long mv setpoint s
  | .pathDelaySample phys margin => Sys2Proof.Machine.execPathDelaySample phys margin s
  | .ringOscillatorSample phys shift => Sys2Proof.Machine.execRingOscillatorSample phys shift s
  | .ageingRecord margins drifts trends => Sys2Proof.Machine.execAgeingRecord margins drifts trends s
  | .stackTempSample stack temp => Sys2Proof.Machine.execStackTempSample stack temp s
  | .stackThrottleDwell stack => Sys2Proof.Machine.execStackThrottleDwell stack s
  | .throttleWindow stack reserved general => Sys2Proof.Machine.execThrottleWindow stack reserved general s
  | .stackScrub stack syms => Sys2Proof.Machine.execStackScrub stack syms s
  | .spadScrub core errs => Sys2Proof.Machine.execSpadScrub core errs s
  | .pcRetired pc => Sys2Proof.Machine.execPcRetired pc s
  | .data p => Sys2Proof.Machine.execData p s
  | .landing p => Sys2Proof.Machine.execLanding p s
  | .share p => Sys2Proof.Machine.execShare p s
  | .gatherReq p => Sys2Proof.Machine.execGatherReq p s
  | .permOffer p => Sys2Proof.Machine.execPermOffer p s
  | .adopt p => Sys2Proof.Machine.execAdopt p s
  | .partialUp p => Sys2Proof.Machine.execPartialUp p s
  | .resultDown p => Sys2Proof.Machine.execResultDown p s
  | .barArrive p => Sys2Proof.Machine.execBarArrive p s
  | .barRelease p => Sys2Proof.Machine.execBarRelease p s
  | .subtreeDone p => Sys2Proof.Machine.execSubtreeDone p s
  | .grant p => Sys2Proof.Machine.execGrant p s
  | .grantReturn p => Sys2Proof.Machine.execGrantReturn p s
  | .noticePrune p => Sys2Proof.Machine.execNoticePrune p s
  | .noticeVersionGone p => Sys2Proof.Machine.execNoticeVersionGone p s
  | .noticeEpochStale p => Sys2Proof.Machine.execNoticeEpochStale p s
  | .noticePermConflict p => Sys2Proof.Machine.execNoticePermConflict p s
  | .noticeFlagged p => Sys2Proof.Machine.execNoticeFlagged p s
  | .noticeClosed p => Sys2Proof.Machine.execNoticeClosed p s
  | .lsRead p errs => Sys2Proof.Machine.execLsRead p errs s
  | .lsWrite p => Sys2Proof.Machine.execLsWrite p s
  | .signal p => Sys2Proof.Machine.execSignal p s
  | .lsReplyData p => Sys2Proof.Machine.execLsReplyData p s
  | .writeAck p => Sys2Proof.Machine.execWriteAck p s
  | .signalAck p => Sys2Proof.Machine.execSignalAck p s
  | .dataPoison p => Sys2Proof.Machine.execDataPoison p s
  | .lsReplyFault p => Sys2Proof.Machine.execLsReplyFault p s
  | .e2eRetransmit board peer bind seq => Sys2Proof.Machine.execE2eRetransmit board peer bind seq s
  | .grantResend peer bind => Sys2Proof.Machine.execGrantResend peer bind s
  | .ackGrantSend peer => Sys2Proof.Machine.execAckGrantSend peer s
  | .swapWindow => Sys2Proof.Machine.execSwapWindow s
  | .beatBoundary core => Sys2Proof.Machine.execBeatBoundary core s
  | .slip core => Sys2Proof.Machine.execSlip core s
  | .stepLate core => Sys2Proof.Machine.execStepLate core s
  | .updatePassStart engine bad errs => Sys2Proof.Machine.execUpdatePassStart engine bad errs s
  | .updatePassDone engine => Sys2Proof.Machine.execUpdatePassDone engine s
  | .foldAndExchange entry => Sys2Proof.Machine.execFoldAndExchange entry s
  | .updResidueRetry engine lane => Sys2Proof.Machine.execUpdResidueRetry engine lane s
  | .sparseUpdate entry => Sys2Proof.Machine.execSparseUpdate entry s
  | .commitVote => Sys2Proof.Machine.execCommitVote s
  | .commitResult => Sys2Proof.Machine.execCommitResult s
  | .commitFlip => Sys2Proof.Machine.execCommitFlip s
  | .commitUndecided expired => Sys2Proof.Machine.execCommitUndecided expired s
  | .stageEnd r => Sys2Proof.Machine.execStageEnd r s
  | .stageTimeout => Sys2Proof.Machine.execStageTimeout s
  | .monHelp line => Sys2Proof.Machine.execMonHelp line s
  | .monId line => Sys2Proof.Machine.execMonId line s
  | .monPen line => Sys2Proof.Machine.execMonPen line s
  | .monRd line => Sys2Proof.Machine.execMonRd line s
  | .monWr line => Sys2Proof.Machine.execMonWr line s
  | .monDump line => Sys2Proof.Machine.execMonDump line s
  | .monShard line => Sys2Proof.Machine.execMonShard line s
  | .monBunt line => Sys2Proof.Machine.execMonBunt line s
  | .monLedger line => Sys2Proof.Machine.execMonLedger line s
  | .monBeat line => Sys2Proof.Machine.execMonBeat line s
  | .monTemp line => Sys2Proof.Machine.execMonTemp line s
  | .monFaults line => Sys2Proof.Machine.execMonFaults line s
  | .monClaimChunk line => Sys2Proof.Machine.execMonClaimChunk line s
  | .monClaimGo line => Sys2Proof.Machine.execMonClaimGo line s
  | .monBurgeeRenew line => Sys2Proof.Machine.execMonBurgeeRenew line s
  | .monBurgeeRelease line => Sys2Proof.Machine.execMonBurgeeRelease line s
  | .monQuote line => Sys2Proof.Machine.execMonQuote line s
  | .monStage line => Sys2Proof.Machine.execMonStage line s
  | .monFwupd line => Sys2Proof.Machine.execMonFwupd line s
  | .monVariant line => Sys2Proof.Machine.execMonVariant line s
  | .monKeyupd line => Sys2Proof.Machine.execMonKeyupd line s
  | .monBaud line => Sys2Proof.Machine.execMonBaud line s
  | .monBaudRevert => Sys2Proof.Machine.execMonBaudRevert s
  | .illegalClass core w => Sys2Proof.Machine.execIllegalClass core w s
  | .illegalOp core w => Sys2Proof.Machine.execIllegalOp core w s
  | .badCommand q cmd => Sys2Proof.Machine.execBadCommand q cmd s
  | .monUnknown line => Sys2Proof.Machine.execMonUnknown line s
  | .i3cBadCommand command => Sys2Proof.Machine.execI3cBadCommand command s
  | .factoryCommand ok revokes key => Sys2Proof.Machine.execFactoryCommand ok revokes key s
  | .pcieL1Exit => Sys2Proof.Machine.execPcieL1Exit s
  | .railTrip rail mv => Sys2Proof.Machine.execRailTrip rail mv s

end Sys2Proof.Machine
end

