-- ==== Sys2Proof/Machine/Tick.lean ====
section
/-! DEFINITION. What passes by itself in one nanosecond while no command waits (R89, R252, R258, R496, R535, R554, R558, R562). -/

namespace Sys2Proof.Machine

/-- `c` more cycles for which the current context's instruction has been held at issue (R91). -/
def holdCycles (k : Core) (c : Nat) : Core :=
  let x := ctxOf k k.cur
  if x.st = 2 ∧ 0 < c then setCtx k k.cur { x with hold := satAdd32 x.hold c } else k

/-- One nanosecond of core `n`'s clock, after which a swap cycle is over (R152): a gated core, and one with no physical core behind it, counts nothing. -/
def tickCore (d : Dev) (n : Nat) : Dev :=
  let k := coreOf d n
  if coreInService d n && !k.gated then
    let t := k.cycles + dieClock d (coreDie d n)
    let c := t / 1000 - k.cycles / 1000
    setCore d n (holdCycles { k with cycles := t, swap := if c = 0 then k.swap else none } c)
  else d

/-- The cores' clocks run in P0 alone. -/
def tickCores (d : Dev) : Dev := if d.pwr.st = 0 then (rangeFrom 0 (coresTotal d)).foldl tickCore d else d

/-- The lease of a held burgee, one millisecond less outside P2 and P3 (R496, R535). -/
def tickLease (d : Dev) : Dev :=
  if d.own.st = 1 ∧ d.pwr.st < 2 ∧ d.boot.aonNs % 1000000 = 0 then
    { d with own := { d.own with leaseLeft := d.own.leaseLeft - 1 } }
  else d

/-- The always-on counter, and the seconds of operation. -/
def tickAon (d : Dev) : Dev :=
  let t := d.boot.aonNs + 1
  { d with boot := { d.boot with aonNs := t, opSeconds := if t % 1000000000 = 0 then d.boot.opSeconds + 1 else d.boot.opSeconds } }

/-- A rate that BAUD asked for begins (R554). -/
def tickBaud (d : Dev) : Dev :=
  match d.mon.baudNext with
  | some (n, t) =>
    if t ≤ d.boot.aonNs then { d with mon := { d.mon with baud := n, baudNext := none, revert := some t } } else d
  | none => d

/-- An unsolicited line leaves between responses (R562). -/
def tickMon (d : Dev) : Dev := if d.mon.due.isNone ∧ d.pwr.st < 2 then monDrain d else d

/-- One nanosecond. Without the always-on supply nothing runs; a tripped or switched-off device runs its always-on domain
alone. -/
def tick (d : Dev) : Dev :=
  if d.pwr.aonLost then d
  else
    let d1 := tickLease (tickAon (tickGt d))
    if d1.pwr.tripped || d1.own.epo then d1 else tickMon (tickBaud (tickCores d1))

/-- One nanosecond, in which the monitor also begins the next command line it has kept (R558). -/
def tickStep (s : State) : Dev × List MemOp := wOut (monNext (wDev (workOf s) tick))

end Sys2Proof.Machine
end

