-- ==== Sys2Proof/Safety.lean ====
section
/-! DEFINITION. The terms the statements use: a safe state, a command that answers, a context that stands at an
instruction and goes on after it, and what a command leaves alone. -/

namespace Sys2Proof.Machine

/-- A safe state: memory is in its canonical form. -/
abbrev State.Safe (s : State) : Prop := s.mem.wf = true

/-- Command `i` completes from `s`: a next state that leaves the queue alone and for which `P` holds. -/
def Does (i : Instr) (s : State) (P : State → Prop) : Prop :=
  ∃ t, exec i s = .next t ∧ t.pending = s.pending ∧ P t

/-- The current context of core `n` is `c`, it may issue, and its next instruction is `w` (R69 to R72). -/
abbrev StandsAt (s : State) (n : Nat) (w : W128) (c : Nat) : Prop := issuer s.dev n w = some c

/-- Stage context `c` of core `n`. -/
abbrev ctxIn (s : State) (n c : Nat) : Ctx := ctxOf (coreOf s.dev n) c

/-- A context after an instruction that transfers no control: past the index, loops iterating or ending (R96). -/
def goesOn (x : Ctx) : Ctx := { passFrom x x.loops x.pc with st := 1, hold := 0, wait := .none }

/-- The context's next index stays in the instruction store (R93). -/
abbrev InStore (x : Ctx) : Prop := (goesOn x).pc ≤ 16383

/-- Every byte of memory, and all poison, as before. -/
def SameMem (s t : State) : Prop := (∀ a, memByte t.mem a = memByte s.mem a) ∧ t.mem.poison = s.mem.poison

/-- Every byte outside the `k` bytes at key `a` as before. -/
def SameMemBut (s t : State) (a k : Nat) : Prop := ∀ x, (x < a ∨ a + k ≤ x) → memByte t.mem x = memByte s.mem x

/-- Every register word as before. -/
def SameRegs (s t : State) : Prop := ∀ off, regGet t.dev off = regGet s.dev off

/-- Every register word but those at the listed offsets as before. -/
def SameRegsBut (s t : State) (offs : List Nat) : Prop := ∀ off, off ∉ offs → regGet t.dev off = regGet s.dev off

/-- Every core as before. -/
def SameCores (s t : State) : Prop := ∀ n, coreOf t.dev n = coreOf s.dev n

/-- Every core but `n` as before. -/
def SameOtherCores (s t : State) (n : Nat) : Prop := ∀ m, m ≠ n → coreOf t.dev m = coreOf s.dev m

/-- Every part of the device but its cores and its register words as before. -/
def SameBeside (s t : State) : Prop := { t.dev with cores := s.dev.cores, regs := s.dev.regs } = s.dev

/-- The parts of core `n` beside its contexts as before, but for the swap cycle of an MSWP, which the next issue ends (R152). -/
def SameCoreBody (s t : State) (n : Nat) : Prop :=
  { coreOf t.dev n with ctxs := (coreOf s.dev n).ctxs, cur := (coreOf s.dev n).cur, swap := (coreOf s.dev n).swap } =
    coreOf s.dev n

/-- Every context of core `n` but `c` as before. -/
def SameOtherCtxs (s t : State) (n c : Nat) : Prop := ∀ e, e ≠ c → ctxIn t n e = ctxIn s n e

/-- Nothing of the block but context `c` of core `n` has changed, and which context of that core is current. -/
def OnlyCtx (s t : State) (n c : Nat) : Prop :=
  SameMem s t ∧ SameRegs s t ∧ SameBeside s t ∧ SameOtherCores s t n ∧ SameCoreBody s t n ∧ SameOtherCtxs s t n c

/-- Nothing of the block but core `n` has changed. -/
def OnlyCore (s t : State) (n : Nat) : Prop := SameMem s t ∧ SameRegs s t ∧ SameBeside s t ∧ SameOtherCores s t n

/-- The device as an instruction of core `n` finds it at issue (R71, R152). -/
def atIssue (s : State) (n : Nat) : Dev := modCore s.dev n issueCore

/-- The instruction `w` of context `c` faults at issue with event `ev` (R136): the fault is recorded as a U-class one of
that instruction, and the context is faulted at the instruction's index. -/
def TakesFault (s t : State) (n c : Nat) (w : W128) (ev : Nat) : Prop :=
  t.mem = s.mem ∧ (ctxIn t n c).st = 6 ∧ (ctxIn t n c).pc = (ctxIn s n c).pc ∧
    t.dev = afterWork (faultCtx (atIssue s n) n c (ctxIn s n c).pc ev 2 (wordDetail w)) n

/-- The instruction of context `c` is held at issue (R70). -/
def StaysHeld (s t : State) (n c : Nat) : Prop := OnlyCtx s t n c ∧ ctxIn t n c = { ctxIn s n c with st := 2 }

/-- Context `c` goes on to index `pc` with the call stack `calls` and the loop levels `loops`; nothing else changes. -/
def GoesTo (s t : State) (n c pc : Nat) (calls : List Nat) (loops : List LoopLevel) : Prop :=
  OnlyCtx s t n c ∧
    ctxIn t n c = { ctxIn s n c with pc := pc, calls := calls, loops := loops, st := 1, hold := 0 }

/-- Context `c` goes on with `v` in scalar register `sd`; S0 reads 0 and keeps nothing (R86). -/
def WritesScalar (s t : State) (n c sd : Nat) (v : W64) : Prop :=
  OnlyCtx s t n c ∧ { ctxIn t n c with sregs := (ctxIn s n c).sregs } = goesOn (ctxIn s n c) ∧
    ∀ i, sreg (ctxIn t n c) i = if i = 0 then 0#64 else if i = sd then v else sreg (ctxIn s n c) i

/-- Context `c` goes on with `v` in descriptor register `dn` of its core, which all its contexts share (R68). -/
def WritesDesc (s t : State) (n c dn : Nat) (v : BitVec 512) : Prop :=
  SameMem s t ∧ SameRegs s t ∧ SameBeside s t ∧ SameOtherCores s t n ∧ SameOtherCtxs s t n c ∧
    ctxIn t n c = goesOn (ctxIn s n c) ∧
    { coreOf t.dev n with
      ctxs := (coreOf s.dev n).ctxs, cur := (coreOf s.dev n).cur, swap := (coreOf s.dev n).swap
      descs := (coreOf s.dev n).descs } = coreOf s.dev n ∧
    ∀ i, descOf (coreOf t.dev n) i = if i = dn then v else descOf (coreOf s.dev n) i

/-- No context of core `n` waits in SWAIT. -/
def NoSwait (d : Dev) (n : Nat) : Prop :=
  ∀ e, e < 8 → ∀ k v dec, (ctxOf (coreOf d n) e).wait ≠ .swait k v dec

/-- Context `c` goes on, and register words change at the listed offsets alone. -/
def GoesOnWithRegs (s t : State) (n c : Nat) (offs : List Nat) : Prop :=
  SameMem s t ∧ SameRegsBut s t offs ∧ SameBeside s t ∧ SameOtherCores s t n ∧ SameCoreBody s t n ∧
    SameOtherCtxs s t n c ∧ ctxIn t n c = goesOn (ctxIn s n c)

/-- None of the listed conditions of a fault at issue holds (R135). -/
abbrev Clean (cs : List Cond) : Prop := ∀ q ∈ cs, q.2 = false

/-- A long operation of context `c` has issued (R74, R79, R80): its context goes on, and it is outstanding with the word,
the sources and the destinations given; no other core has changed. -/
def Outstanding (s t : State) (n c : Nat) (w : W128) (srcs dsts : List Nat) : Prop :=
  ctxIn t n c = goesOn (ctxIn s n c) ∧ SameOtherCtxs s t n c ∧ SameOtherCores s t n ∧
    ∃ op, (coreOf t.dev n).ops = (coreOf s.dev n).ops ++ [op] ∧ op.id = (coreOf s.dev n).nextOp ∧ op.ctx = c ∧
      op.pc = (ctxIn s n c).pc ∧ op.word = w ∧ op.srcs = srcs ∧ op.dsts = dsts

/-- Every outstanding operation of core `n` has a number below that of the next one (R74). -/
def FreshIds (s : State) (n : Nat) : Prop := ∀ p ∈ (coreOf s.dev n).ops, p.id < (coreOf s.dev n).nextOp

/-- The memory keys of a tensor's bytes on this device (R19, R176, R177). -/
def tensorKeys (t : TDesc) : List Nat :=
  (rangeFrom 0 (elemCount t)).flatMap (fun e => (rangeFrom (elemAddr t e) (elemSize t.fmt)).map memKey)

/-- Retired with commits enabled (R457): core `n` waits for a spare, runs nothing, and its live contexts have faulted. -/
def Retired (s t : State) (n : Nat) : Prop :=
  (coreOf t.dev n).mapState = 1 ∧ (coreOf t.dev n).stopped = true ∧ (coreOf t.dev n).ops = [] ∧ t.dev.boot.voteRetired = true ∧
    physOf s.dev n ∈ t.dev.boot.retired ∧
    ∀ e, e < 8 → (ctxIn t n e).st = if ctxLive (ctxIn s n e) then 6 else (ctxIn s n e).st

/-- The network interface goes on from the work `w` as far as it can, and that is the whole effect. -/
def SettlesTo (s t : State) (w : Work) : Prop :=
  t.dev = (niSettle w).dev ∧ t.mem = memApplyAll s.mem (niSettle w).ops

/-- Packet `p` is of a row's TYPE and SUB and passes the checks at ejection, which leave the device `d` (R290, R339). -/
abbrev Taken (s : State) (p : Packet) (typ sub : Nat) (d : Dev) : Prop :=
  p.typ = typ ∧ subOf p = sub ∧ subReserved p = false ∧ takeIn s.dev p = (d, true)

/-- The same for a packet of a resident stream, which is active from then on (R321 to R323). -/
def OnItsStream (s : State) (p : Packet) (typ sub : Nat) (e : Dev) : Prop :=
  ∃ d, Taken s p typ sub d ∧ slotPeer d p.dctx = some p.src ∧ e = touchStream d p.src

/-- One packet of TYPE `typ` and SUB `sub` for node `dst` joins those waiting to be injected. -/
def Sends (a t : Dev) (typ sub dst : Nat) : Prop :=
  ∃ port q, t.ni.inject = a.ni.inject ++ [(port, q)] ∧ q.typ = typ ∧ q.sub = sub ∧ q.dst = dst

/-- A device register counter went up by one, saturating. -/
def Counts (a t : Dev) (off : Nat) : Prop := regNat t off = satAdd32 (regNat a off) 1

/-- Nothing of the block has changed. -/
def Unchanged (s t : State) : Prop := t = s

/-- The effect is this device and the memory as it was. -/
def Becomes (s t : State) (d : Dev) : Prop := t = { s with dev := d }

/-- Only register words at the listed offsets have changed. -/
def OnlyRegs (s t : State) (offs : List Nat) : Prop :=
  t.mem = s.mem ∧ SameRegsBut s t offs ∧ { t.dev with regs := s.dev.regs } = s.dev

/-- A reply to board request `p` of SUB `sub` with these bytes joins the packets to be injected (R336). -/
def Replies (a t : Dev) (p : Packet) (sub : Nat) (bs : List Byte) : Prop :=
  ∃ port q, t.ni.inject = a.ni.inject ++ [(port, q)] ∧ q.typ = 5 ∧ q.sub = sub ∧ q.dst = p.src ∧ q.seq = p.seq ∧ q.payload = padTo 256 bs

/-- Master `m` reaches the registers: the host port answers, or another path does (R442, R500, R542). -/
abbrev Reaches (s : State) (m : Nat) : Prop :=
  m = 1 ∧ hostTakes s.dev = 0 ∨ 2 ≤ m ∧ m ≤ 4 ∧ regsAwake s.dev = true

/-- The owner's path to the registers is open (R10, R492). -/
abbrev OwnerOn (s : State) (m : Nat) : Prop := isOwner s.dev m = true ∧ Reaches s m

/-- Bit `i` of the register word at `off`. -/
abbrev regBit (d : Dev) (off i : Nat) : Bool := (regGet d off).getLsbD i

/-- The register words that fault records, interrupts and monitor lines change. -/
def reportOffs : List Nat := [0x9200, 0xA004, 0xA008, 0x3E00008, 0x3E00010, 0x3E00014, 0x3E08010, 0x3E08014]

/-- `t` is `a` but for fault records, interrupts, outputs and the monitor's lines. -/
def Reports (a t : Dev) : Prop :=
  (∀ off, off ∉ reportOffs → regGet t off = regGet a off) ∧
    t = { a with
      regs := t.regs, rcd := t.rcd, out := t.out, mon := t.mon
      host := { a.host with msixPending := t.host.msixPending }
      ni := { a.ni with inject := t.ni.inject } }

/-- The effect is the device `e`, but for what it reports, and the memory as it was. -/
def Shows (s t : State) (e : Dev) : Prop := t.mem = s.mem ∧ Reports e t.dev

/-- A record of event `ev` in UNIT `unit` is counted (R466). -/
def Records (a t : Dev) (ev unit : Nat) : Prop :=
  smapGet t.rcd.counts (65536 * ev + unit) 0 = satAdd32 (smapGet a.rcd.counts (65536 * ev + unit) 0) 1

/-- A collective of the device's own begins, from the work `w` that the command leaves (R384, R391). -/
def Begins (s t : State) (P : Work → Coll → Prop) : Prop :=
  ∃ w c, w.dev.ni.colls = s.dev.ni.colls ++ [c] ∧ w.dev.cores = s.dev.cores ∧ P w c ∧
    t.dev = (collBegin w c).dev ∧ t.mem = memApplyAll s.mem (collBegin w c).ops

/-- The device casts its vote with abort code `code` (R391). -/
def CastsVote (s t : State) (code : Nat) : Prop :=
  Begins s t (fun w c => w.ops = [] ∧ commitState w.dev = 1 ∧ w.dev.upd.waiting = false ∧ w.dev.boot.voteRetired = false ∧
    c.kind = 16 ∧ c.size = groupField w.dev 16 17 ∧ c.rank = groupField w.dev 0 16 ∧ c.root = 0 ∧
    c.partials = [(partKey c.size 0, [⟨smallFloat code, c.rank, c.rank, false⟩,
      ⟨0#32, 0xFFFFFFFF - gridBeat s.dev (gtimeNs s.dev) % 2 ^ 32, c.rank, false⟩])])

/-- The step ends: from the work `w`, the network interface goes on, `sig` follows, and pending cores are remapped
(R392, R393, R458). -/
def EndsStep (s t : State) (sig : Dev → Dev) (w : Work) : Prop :=
  let u := wBoth (wDev (niSettle w) sig) stepBoundary
  t.dev = u.dev ∧ t.mem = memApplyAll s.mem u.ops

/-- The step is committed: each active UPDATE shard flips, versions rise, and the next step begins (R392). -/
def Flips (s t : State) : Prop :=
  ∃ w, EndsStep s t commitSignal w ∧ commitState w.dev = 0 ∧ Counts s.dev w.dev 0x1200048 ∧
    regNat64 w.dev 0x1200038 = (regNat64 s.dev 0x1200038 + 1) % 2 ^ 64 ∧ w.dev.upd.codes = [] ∧ w.dev.upd.result = none ∧
    ∀ n x, shardOf s.dev n = some x → ∃ y, shardOf w.dev n = some y ∧
      if shActive x = false then y.cur = x.cur ∧ y.version = x.version
      else if shKind x = 1 then y.cur = 1 - x.cur ∧ y.version = (x.version + 1) % 2 ^ 32 ∧ y.other = 0 ∧ y.held = true
      else if shKind x = 3 then y.version = (x.version + 1) % 2 ^ 32 ∧ y.updated = false else y.cur = x.cur

/-- The step is aborted with this code and rank: no shard flips, and the step is run again (R393). -/
def Aborts (s t : State) (code rank : Nat) : Prop :=
  ∃ w, EndsStep s t id w ∧ commitState w.dev = 0 ∧ Counts s.dev w.dev 0x120004C ∧
    regField w.dev 0x1200030 8 8 = code % 256 ∧ regField w.dev 0x1200030 16 16 = rank % 65536 ∧
    regNat64 w.dev 0x1200038 = regNat64 s.dev 0x1200038 ∧ w.dev.upd.codes = [] ∧ w.dev.upd.result = none ∧
    ∀ n x, shardOf s.dev n = some x → ∃ y, shardOf w.dev n = some y ∧ y.cur = x.cur ∧ y.version = x.version ∧
      (shActive x = true → shKind x = 1 → y.other = 0)

/-- The device has started again from stage 0, with a reset cause and the SLOT_ID sampled; it keeps what flash holds (R445, R448,
R491, R492, R576). -/
def Restarts (s t : State) (cause slot : Nat) : Prop :=
  t.dev.cores = [] ∧ t.dev.ni = niReset ∧ t.dev.fab = fabReset ∧ t.dev.upd = updReset ∧ t.dev.host = hostReset ∧
    bootStage t.dev = 0 ∧ bootStatus t.dev = 1 ∧ bootReady t.dev = false ∧ ownSlot t.dev = slot % 8 ∧
    regNat t.dev 0x804 = min (regNat s.dev 0x804 + 1) 0xFFFFFFFF ∧
    t.dev.own.owner = 0 ∧ t.dev.own.st = 0 ∧ t.dev.own.slotA = s.dev.own.slotA ∧ t.dev.own.slotB = s.dev.own.slotB ∧
    t.dev.own.keys = s.dev.own.keys ∧ t.dev.boot.ledger = s.dev.boot.ledger ∧ t.dev.boot.variant = s.dev.boot.variant ∧
    t.dev.boot.coreRec = s.dev.boot.coreRec ∧ t.dev.pwr.st = 0 ∧ t.dev.pwr.tripped = false ∧ t.dev.pwr.cause = cause

/-- The package has tripped: TRIP_CAUSE says why, THERMTRIP_N is low, and every optical port not retired is down (R547). -/
def Trips (s t : State) (cause : Nat) : Prop :=
  t.mem = s.mem ∧ t.dev.cores = s.dev.cores ∧ t.dev.pwr.tripped = true ∧ regNat t.dev 0x38000C0 = cause ∧
    t.dev.out = s.dev.out ++ [.pin "THERMTRIP_N" false] ∧ ∀ q, 7 ≤ q → q < 39 → portSt s.dev q = 3 ∨ portSt t.dev q = 0

/-- The sideband's answer, its status byte first (R490). -/
def Answers (a t : Dev) (bs : List Byte) : Prop := t.out = a.out ++ [.i3cReply bs]

/-- A MGMT packet of sub-type `sub` with this payload for node `dst` joins those to be injected (R517). -/
def SendsMgmt (a t : Dev) (sub dst : Nat) (bs : List Byte) : Prop :=
  ∃ port q, t.ni.inject = a.ni.inject ++ [(port, q)] ∧ q.typ = 8 ∧ q.sub = sub ∧ q.dst = dst ∧ q.payload = padTo 256 bs

/-- UNIT of a record about router port `p` (R467). -/
def portUnit (p : Nat) : Nat := if p < 7 then 0x0800 + p else 0x0900 + (p - 7)

/-- Router port `p` is trained. -/
abbrev PortUp (s : State) (p : Nat) : Prop := p < 39 ∧ portSt s.dev p = 2

/-- Memory and every core as before. -/
def KeepsCores (s t : State) : Prop := t.mem = s.mem ∧ t.dev.cores = s.dev.cores

/-- Packet `p` leaves by port `q`, one hop on, and a copy of it enters that port's replay store (R285, R286). -/
def Leaves (s t : State) (q : Nat) (p : Packet) : Prop :=
  let x := { p with hops := min 63 (p.hops + 1) }
  let l := linkOf s.dev q
  t.dev.out = s.dev.out ++ [.packet q x] ∧ (linkOf t.dev q).store = l.store ++ [(l.nextLseq, x)] ∧
    (linkOf t.dev q).nextLseq = (l.nextLseq + 1) % 65536

/-- Port `p` asks for the lane operation `op`: it shows it under a new OP_NUM, or, while one it shows has no echo, after those
that wait (R415). A REMOVE or an ADD then waits for its answer. -/
def AsksLane (s t : State) (p op lane reason : Nat) : Prop :=
  let x := linkOf s.dev p
  let y := linkOf t.dev p
  let n := (x.opNum + 1) % 256
  (y.asked = if op = 1 ∨ op = 2 then x.asked ++ [(op, lane, reason)] else x.asked) ∧
    if x.req = none ∨ x.opDone = true then
      t.dev.out = s.dev.out ++ [.laneOp p op lane reason n] ∧ y.req = some (op, lane, reason) ∧ y.opNum = n ∧ y.ops = x.ops
    else t.dev.out = s.dev.out ∧ y.req = x.req ∧ y.opNum = x.opNum ∧ y.ops = x.ops ++ [(op, lane, reason)]

/-- The awake monitor, with no response due, no line kept and no unsolicited line waiting, hears `line`, which belongs to the row of `word` in form
`sub`, with a check code or without one (R555 to R558). -/
abbrev MonHears (s : State) (line : List Byte) (word sub : String) (chk : Bool) : Prop :=
  let c := monParse (editLine line)
  editLine line ≠ [] ∧ monMine (editLine line) c word sub = true ∧ c.check = chk ∧ s.dev.mon.due = none ∧
    s.dev.mon.buf = [] ∧ s.dev.mon.queue = [] ∧ s.dev.pwr.aonLost = false ∧ s.dev.pwr.st = 0 ∧ s.dev.pwr.entering = false ∧ monRuns s.dev = true

/-- It takes the line as a command of that row, with the tokens `args` after the word (R557, R559). -/
abbrev MonTakes (s : State) (line : List Byte) (word sub : String) (chk : Bool) (args : List (List Nat)) : Prop :=
  MonHears s line word sub chk ∧ monGate s.dev (editLine line) (monParse (editLine line)) = .run args

/-- The device `e` after a response of these lines, with check codes or without (R558). -/
def monSaid (e : Dev) (chk : Bool) (lines : List (List MonWord)) : Dev :=
  { e with mon := { e.mon with due := none }
           out := e.out ++ lines.map (fun l => Out.monLine l (if chk then some (lineCheck l) else none)) }

/-- The monitor answers with these lines and OK (R558). -/
def Says (s t : State) (e : Dev) (chk : Bool) (lines : List (List MonWord)) : Prop :=
  Becomes s t (monSaid e chk (lines ++ [[.txt "OK"]]))

/-- The monitor answers with an error, and counts it in MON_ERRORS (R559). -/
def Errs (s t : State) (e : Dev) (chk : Bool) (num name : String) : Prop :=
  Becomes s t (monSaid (regPutNat e 0xA004 (satAdd32 (regNat e 0xA004) 1)) chk [[.txt "ER", .txt num, .txt name]])

end Sys2Proof.Machine
end

