-- ==== Sys2Proof/Certificates/Slice0/Obligations.lean ====
section
/-! DEFINITION. The statements about the block. -/

open Sys2Proof Sys2Proof.Machine

/-- A step takes the command at the front of the queue and runs it with the queue's rest. -/
def Obligations.StepRunsFront : Prop :=
  ∀ (s : State) (c : Instr) (rest : List Instr), s.pending = c :: rest →
    step s = exec c { s with pending := rest }

/-- On an empty queue a nanosecond passes (assumption log 1, DESIGN CHOICE): the always-on counter counts it, GTIME moves on by sixteen
sixteenths where nothing slews, and memory, streams, the fabric and the update engines stay, where the monitor has no line
kept. -/
def Obligations.IdleStepPassesNanosecond : Prop :=
  ∀ s : State, s.pending = [] → s.dev.pwr.aonLost = false → s.dev.tm.slew = 0 →
    s.dev.mon.buf = [] →
    ∃ t, step s = .next t ∧ t.pending = [] ∧ t.mem = s.mem ∧
      t.dev.boot.aonNs = s.dev.boot.aonNs + 1 ∧ t.dev.tm.gt = (s.dev.tm.gt + 16) % 2 ^ 68 ∧
      t.dev.ni = s.dev.ni ∧ t.dev.fab = s.dev.fab ∧ t.dev.upd = s.dev.upd ∧ t.dev.opt = s.dev.opt

/-- No command ever stops the block: each answers a next state and leaves the waiting commands alone. -/
def Obligations.EveryCommandAnswers : Prop :=
  ∀ (i : Instr) (s : State), ∃ t, exec i s = .next t ∧ t.pending = s.pending

/-- Memory keeps its canonical form through every step. -/
def Obligations.StepKeepsMemoryForm : Prop :=
  ∀ s t : State, s.Safe → step s = .next t → t.Safe

/-- Memory has its canonical form after reset, no unit of it is poisoned, and no command waits. -/
def Obligations.ResetIsSafe : Prop :=
  State.reset.Safe ∧ State.reset.pending = [] ∧ State.reset.mem.poison = []

/-- NOP does nothing: its context goes on; one that would go on beyond index 16,383 faults there instead (R93). YIELD goes
on and hands the sequencer over; HALT halts the context once its long operations are complete; an instruction held for 16
cycles hands the sequencer over to another runnable context (R71, R98), and its count of cycles starts again (assumption
log 129, DEDUCED). -/
def Obligations.NopAndHandOver : Prop :=
  (∀ (n c : Nat) (s : State), StandsAt s n (mkWord 0 0 0#4 0#112) c →
     (InStore (ctxIn s n c) →
       Does (.nop n 0#4 0#112) s (fun t => OnlyCtx s t n c ∧ ctxIn t n c = goesOn (ctxIn s n c))) ∧
     (¬ InStore (ctxIn s n c) → Does (.nop n 0#4 0#112) s (fun t => t.mem = s.mem ∧ (ctxIn t n c).st = 6 ∧
       (ctxIn t n c).pc = (ctxIn s n c).pc ∧
       t.dev = afterWork (faultCtx (modCtx (atIssue s n) n c (fun x => { goesOn x with pc := x.pc })) n c (ctxIn s n c).pc
         0x0304 2 (wordDetail (mkWord 0 0 0#4 0#112))) n))) ∧
  (∀ (n c : Nat) (s : State),
     (StandsAt s n (mkWord 0 6 0#4 0#112) c → InStore (ctxIn s n c) →
       Does (.yield n 0#4 0#112) s (fun t => OnlyCtx s t n c ∧ ctxIn t n c = goesOn (ctxIn s n c) ∧
         (coreOf t.dev n).cur = (nextRunnable (coreOf t.dev n) c 7).getD c)) ∧
     (∀ o : BitVec 112, StandsAt s n (mkWord 0 7 0#4 o) c → onlyFields o [(0, 16)] = true →
       (ctxBusy (coreOf s.dev n) c = true → Does (.halt n 0#4 o) s (fun t => StaysHeld s t n c)) ∧
       (ctxBusy (coreOf s.dev n) c = false → Does (.halt n 0#4 o) s (fun t => SameMem s t ∧
         (ctxIn t n c).st = 7 ∧ (ctxIn t n c).pc = (ctxIn s n c).pc))) ∧
     (coreInService s.dev n = true → (coreOf s.dev n).cur = c → (ctxIn s n c).st = 2 → 16 ≤ (ctxIn s n c).hold →
       (∀ e, nextRunnable (coreOf s.dev n) c 7 = some e → Does (.issueHoldSwitch n) s (fun t => OnlyCtx s t n c ∧
         ctxIn t n c = { ctxIn s n c with hold := 0 } ∧ (coreOf t.dev n).cur = e)) ∧
       (nextRunnable (coreOf s.dev n) c 7 = none → Does (.issueHoldSwitch n) s (fun t => Unchanged s t))))

/-- BR branches exactly when its COND holds (R94); COND values from 8 are reserved, and a taken branch to an index outside
the store faults (R93). A taken branch pops the loop levels whose bodies it leaves (R96). BRW waits for the context's
VENCs, then branches when WIDEN differs from NEG (R60, R95). -/
def Obligations.BranchesTestConditions : Prop :=
  (∀ (n c : Nat) (f : BitVec 4) (o : BitVec 112) (s : State), StandsAt s n (mkWord 0 2 f o) c →
     (8 ≤ f.toNat → Does (.br n f o) s (fun t => TakesFault s t n c (mkWord 0 2 f o) 0x0303)) ∧
     ∀ e ∈ ([(0, fun _ _ => True), (1, fun a _ => a = 0#64), (2, fun a _ => a ≠ 0#64), (3, fun a _ => a.toInt < 0),
             (4, fun a _ => 0 ≤ a.toInt), (5, fun a b => a.toInt < b.toInt), (6, fun a b => b.toInt ≤ a.toInt),
             (7, fun a b => a.toNat < b.toNat)] : List (Nat × (W64 → W64 → Prop))),
       f.toNat = e.1 →
       onlyFields o ((0, 32) :: (if e.1 = 0 then [] else if e.1 < 5 then [(91, 5)] else [(91, 5), (86, 5)])) = true →
       let x := ctxIn s n c
       let a := sreg x (fld o 91 5)
       let b := sreg x (fld o 86 5)
       let target := branchTarget x.pc o
       (e.2 a b → 0 ≤ target → target ≤ 16383 → Does (.br n f o) s (fun t =>
         GoesTo s t n c target.toNat x.calls (leaveBodies x.calls.length x.pc target.toNat x.loops))) ∧
       (e.2 a b → (target < 0 ∨ 16383 < target) →
         Does (.br n f o) s (fun t => TakesFault s t n c (mkWord 0 2 f o) 0x0304)) ∧
       (¬ e.2 a b → InStore x → Does (.br n f o) s (fun t => OnlyCtx s t n c ∧ ctxIn t n c = goesOn x))) ∧
  (∀ (n c : Nat) (f : BitVec 4) (o : BitVec 112) (s : State), StandsAt s n (mkWord 0 3 f o) c → f.toNat < 2 →
     onlyFields o [(0, 32)] = true →
     let x := ctxIn s n c
     let widen := natBit (regNat s.dev (coreOff n 0x304)) 0
     let target := branchTarget x.pc o
     (vencBusy (coreOf s.dev n) c = true → Does (.brw n f o) s (fun t => StaysHeld s t n c)) ∧
     (vencBusy (coreOf s.dev n) c = false → widen ≠ natBit f.toNat 0 → 0 ≤ target → target ≤ 16383 →
       Does (.brw n f o) s (fun t =>
         GoesTo s t n c target.toNat x.calls (leaveBodies x.calls.length x.pc target.toNat x.loops))) ∧
     (vencBusy (coreOf s.dev n) c = false → widen ≠ natBit f.toNat 0 → (target < 0 ∨ 16383 < target) →
       Does (.brw n f o) s (fun t => TakesFault s t n c (mkWord 0 3 f o) 0x0304)) ∧
     (vencBusy (coreOf s.dev n) c = false → widen = natBit f.toNat 0 → InStore x →
       Does (.brw n f o) s (fun t => OnlyCtx s t n c ∧ ctxIn t n c = goesOn x)))

/-- LOOP pushes a level with the body's first and last index, the call depth and the count; a count of 0 skips the body; a
body of 0, one that ends beyond the store, or a fifth level faults (R96). A LOOP transfers no control, so one at the last
index of an enclosing body of its call depth ends an iteration there. The context after a skip passes the body's last
index (assumption log 13, DEDUCED). An iteration of a level ends when its last index is passed at its call depth: control
goes to the first index while iterations remain; after the final one the level is popped, and what encloses it may end an
iteration there as well (R96). -/
def Obligations.LoopsIterate : Prop :=
  (∀ (n c : Nat) (f : BitVec 4) (o : BitVec 112) (s : State), StandsAt s n (mkWord 0 1 f o) c → f.toNat < 2 →
     onlyFields o (if f.toNat = 1 then [(96, 16), (0, 32)] else [(96, 16), (91, 5)]) = true →
     let x := ctxIn s n c
     let body := fld o 96 16
     let count := if f.toNat = 1 then fld o 0 32 else (sreg x (fld o 91 5)).toNat
     (body = 0 ∨ 16383 < x.pc + body ∨ 4 ≤ x.loops.length →
       Does (.loop n f o) s (fun t => TakesFault s t n c (mkWord 0 1 f o) 0x0306)) ∧
     (body ≠ 0 → x.pc + body ≤ 16383 → x.loops.length < 4 → count ≠ 0 →
       let y := { x with loops := ⟨x.pc + 1, x.pc + body, x.calls.length, 0, count⟩ :: x.loops }
       InStore y → Does (.loop n f o) s (fun t => OnlyCtx s t n c ∧ ctxIn t n c = goesOn y ∧
         ((∀ l ∈ x.loops, ¬ (l.last = x.pc ∧ l.depth = x.calls.length)) →
           (ctxIn t n c).pc = x.pc + 1 ∧ (ctxIn t n c).loops = y.loops))) ∧
     (body ≠ 0 → x.pc + body ≤ 16383 → x.loops.length < 4 → count = 0 → InStore { x with pc := x.pc + body } →
       Does (.loop n f o) s (fun t => OnlyCtx s t n c ∧ ctxIn t n c = goesOn { x with pc := x.pc + body }))) ∧
  (∀ x : Ctx,
     let ends := fun (l : LoopLevel) => l.last = x.pc ∧ l.depth = x.calls.length
     (∀ (inner rest : List LoopLevel) (l : LoopLevel), x.loops = inner ++ l :: rest → (∀ m ∈ inner, ¬ ends m) → ends l →
       (l.iter + 1 < l.count →
         (goesOn x).pc = l.first ∧ (goesOn x).loops = inner ++ { l with iter := l.iter + 1 } :: rest) ∧
       (l.count ≤ l.iter + 1 → goesOn x = goesOn { x with loops := inner ++ rest })) ∧
     ((∀ l ∈ x.loops, ¬ ends l) → (goesOn x).pc = x.pc + 1 ∧ (goesOn x).loops = x.loops))

/-- CALL pushes the index after it and branches; RET pops it and returns; a CALL with 16 entries or a RET with none faults
(R97). The sequencer makes the next runnable context current in ascending number order, wrapping from 7 to 0; where no
other is runnable the current one stays (R71). -/
def Obligations.CallReturnAndSwitch : Prop :=
  (∀ (n c : Nat) (o : BitVec 112) (s : State),
     let x := ctxIn s n c
     let target := branchTarget x.pc o
     (StandsAt s n (mkWord 0 4 0#4 o) c → onlyFields o [(0, 32)] = true →
       (x.calls.length < 16 → 0 ≤ target → target ≤ 16383 →
         Does (.call n 0#4 o) s (fun t => GoesTo s t n c target.toNat ((x.pc + 1) :: x.calls) x.loops)) ∧
       (x.calls.length < 16 → (target < 0 ∨ 16383 < target) →
         Does (.call n 0#4 o) s (fun t => TakesFault s t n c (mkWord 0 4 0#4 o) 0x0304)) ∧
       (16 ≤ x.calls.length → Does (.call n 0#4 o) s (fun t => TakesFault s t n c (mkWord 0 4 0#4 o) 0x0305))) ∧
     (StandsAt s n (mkWord 0 5 0#4 0#112) c →
       (x.calls = [] → Does (.ret n 0#4 0#112) s (fun t => TakesFault s t n c (mkWord 0 5 0#4 0#112) 0x0305)) ∧
       (∀ (a : Nat) (rest : List Nat), x.calls = a :: rest → (16383 < a ∨ 16383 < (returnTo x a).pc) →
         Does (.ret n 0#4 0#112) s (fun t => TakesFault s t n c (mkWord 0 5 0#4 0#112) 0x0304)) ∧
       (∀ (a : Nat) (rest : List Nat), x.calls = a :: rest → a ≤ 16383 → (returnTo x a).pc ≤ 16383 →
         Does (.ret n 0#4 0#112) s (fun t => OnlyCtx s t n c ∧ (ctxIn t n c).calls = rest ∧
           ctxIn t n c = { returnTo x a with st := 1, hold := 0 } ∧
           (x.loops = [] → (ctxIn t n c).pc = a))))) ∧
  (∀ (k : Core), k.cur < 8 →
     (∀ j, 1 ≤ j → j ≤ 7 → ctxRunnable (ctxOf k ((k.cur + j) % 8)) = true →
       (∀ i, 1 ≤ i → i < j → ctxRunnable (ctxOf k ((k.cur + i) % 8)) = false) →
       switchCtx k = { k with cur := (k.cur + j) % 8 }) ∧
     ((∀ j, 1 ≤ j → j ≤ 7 → ctxRunnable (ctxOf k ((k.cur + j) % 8)) = false) → switchCtx k = k))

/-- An instruction whose CLASS is 9 to 15, or whose OP its class does not define, faults at issue, and so does one of the flow,
beat, fence, event, descriptor and scalar instructions, or MSWP, with a bit set that it reserves or does not use (R85). -/
def Obligations.ReservedEncodingsFault : Prop :=
  ∀ (n c : Nat) (w : BitVec 128) (f : BitVec 4) (o : BitVec 112) (s : State),
    let b := if natBit f.toNat 0 = true then [(0, 32)] else [(97, 5)]
    let v := if natBit f.toNat 0 = true then [(0, 32)] else [(91, 5)]
    (StandsAt s n w c →
      (9 ≤ opClass w → Does (.illegalClass n w) s (fun t => TakesFault s t n c w 0x0301)) ∧
      (opClass w < 9 → opDefined (opClass w) (opCode w) = false →
        Does (.illegalOp n w) s (fun t => TakesFault s t n c w 0x0302))) ∧
    ∀ e ∈ ([(0, 0, .nop n f o, 0, []), (0, 1, .loop n f o, 1, if f.toNat % 2 = 1 then [(96, 16), (0, 32)] else [(96, 16), (91, 5)]),
          (0, 2, .br n f o, 7, (0, 32) :: (if f.toNat = 0 then [] else if f.toNat < 5 then [(91, 5)] else [(91, 5), (86, 5)])),
          (0, 3, .brw n f o, 1, [(0, 32)]), (0, 4, .call n f o, 0, [(0, 32)]), (0, 5, .ret n f o, 0, []), (0, 6, .yield n f o, 0, []),
          (0, 7, .halt n f o, 0, [(0, 16)]), (1, 1, .sbeat n f o, 1, [(107, 5)]), (1, 2, .sfenc n f o, 15, []),
          (1, 3, .swait n f o, 3, (106, 6) :: v),
          (1, 4, .ssig n f o, 3, [(106, 6), (96, 8), (0, 16)] ++ if natBit f.toNat 1 = true then [(93, 3)] else []),
          (2, 2, .mswp n f o, 1, [(7, 1), (0, 6)]), (6, 1, .dld n f o [], 0, [(104, 8), (91, 5), (0, 32)]),
          (6, 2, .dsav n f o [], 0, [(104, 8), (91, 5), (0, 32)]), (6, 3, .dset n f o, 3, [(104, 8), (101, 3)] ++ v),
          (6, 4, .dins n f o, 0, [(104, 8), (95, 9), (89, 6), (84, 5)]), (6, 5, .dadd n f o, 1, [(104, 8), (101, 3)] ++ v),
          (6, 6, .dcpy n f o, 0, [(104, 8), (96, 8)]), (7, 1, .sclAdd n f o, 1, [(107, 5), (102, 5)] ++ b),
          (7, 2, .sclSub n f o, 1, [(107, 5), (102, 5)] ++ b), (7, 3, .sclMul n f o, 1, [(107, 5), (102, 5)] ++ b),
          (7, 4, .sclAnd n f o, 1, [(107, 5), (102, 5)] ++ b), (7, 5, .sclOr n f o, 1, [(107, 5), (102, 5)] ++ b),
          (7, 6, .sclXor n f o, 1, [(107, 5), (102, 5)] ++ b), (7, 7, .sclShl n f o, 1, [(107, 5), (102, 5)] ++ b),
          (7, 8, .sclShr n f o, 1, [(107, 5), (102, 5)] ++ b), (7, 9, .sclSar n f o, 1, [(107, 5), (102, 5)] ++ b),
          (7, 10, .sclMin n f o, 1, [(107, 5), (102, 5)] ++ b), (7, 11, .sclMax n f o, 1, [(107, 5), (102, 5)] ++ b),
          (7, 12, .sclSlt n f o, 1, [(107, 5), (102, 5)] ++ b), (7, 13, .sclSltu n f o, 1, [(107, 5), (102, 5)] ++ b),
          (7, 14, .sclLi n f o, 0, [(107, 5), (32, 64)]), (7, 0x20, .sclSrd n f o, 0, [(107, 5), (52, 12)]),
          (7, 0x21, .sclSrw n f o, 1, (52, 12) :: b), (7, 0x22, .sclSrc n f o, 1, (52, 12) :: b),
          (8, 1, .waitm n f o, 0, [(0, 32)])] : List (Nat × Nat × Instr × Nat × List (Nat × Nat))),
      StandsAt s n (mkWord e.1 e.2.1 f o) c → e.2.2.2.1 < f.toNat ∨ onlyFields o e.2.2.2.2 = false →
      Does e.2.2.1 s (fun t => TakesFault s t n c (mkWord e.1 e.2.1 f o) 0x0303)

/-- SCL arithmetic: SD takes SA op B, where B is SB, or IMM32 sign-extended with IMM = 1; it wraps modulo 2^64, sets no
flags, and nothing else of the block changes (R86, R128). SCL.LI loads IMM64, and SCL.SRD a special register
zero-extended; a number no register has faults (R89, R128). -/
def Obligations.ScalarArithmeticAndLoads : Prop :=
  (∀ e ∈ ([(.sclAdd, 0x01, fun a b => a + b), (.sclSub, 0x02, fun a b => a - b), (.sclMul, 0x03, fun a b => a * b),
       (.sclAnd, 0x04, fun a b => a &&& b), (.sclOr, 0x05, fun a b => a ||| b), (.sclXor, 0x06, fun a b => a ^^^ b),
       (.sclShl, 0x07, fun a b => a <<< (b.toNat % 64)), (.sclShr, 0x08, fun a b => a >>> (b.toNat % 64)),
       (.sclSar, 0x09, fun a b => BitVec.ofInt 64 (a.toInt >>> (b.toNat % 64))),
       (.sclMin, 0x0A, fun a b => BitVec.ofInt 64 (min a.toInt b.toInt)),
       (.sclMax, 0x0B, fun a b => BitVec.ofInt 64 (max a.toInt b.toInt)),
       (.sclSlt, 0x0C, fun a b => if a.toInt < b.toInt then 1#64 else 0#64),
       (.sclSltu, 0x0D, fun a b => if a.toNat < b.toNat then 1#64 else 0#64)] :
       List ((Nat → BitVec 4 → BitVec 112 → Instr) × Nat × (W64 → W64 → W64))),
     ∀ (n c : Nat) (f : BitVec 4) (o : BitVec 112) (s : State), StandsAt s n (mkWord 7 e.2.1 f o) c → f.toNat < 2 →
       onlyFields o ([(107, 5), (102, 5)] ++ (if f.toNat = 1 then [(0, 32)] else [(97, 5)])) = true →
       InStore (ctxIn s n c) →
       let x := ctxIn s n c
       let b := if f.toNat = 1 then (BitVec.ofNat 32 (fld o 0 32)).signExtend 64 else sreg x (fld o 97 5)
       Does (e.1 n f o) s (fun t => WritesScalar s t n c (fld o 107 5) (e.2.2 (sreg x (fld o 102 5)) b))) ∧
  (∀ (n c : Nat) (o : BitVec 112) (s : State), InStore (ctxIn s n c) →
     (StandsAt s n (mkWord 7 0x0E 0#4 o) c → onlyFields o [(107, 5), (32, 64)] = true →
       Does (.sclLi n 0#4 o) s (fun t => WritesScalar s t n c (fld o 107 5) (BitVec.ofNat 64 (fld o 32 64)))) ∧
     (StandsAt s n (mkWord 7 0x20 0#4 o) c → onlyFields o [(107, 5), (52, 12)] = true →
       (∀ v, specRead s.dev n c (ctxIn s n c) (fld o 52 12) = some v →
         Does (.sclSrd n 0#4 o) s (fun t => WritesScalar s t n c (fld o 107 5) (BitVec.ofNat 64 v))) ∧
       (specRead s.dev n c (ctxIn s n c) (fld o 52 12) = none →
         Does (.sclSrd n 0#4 o) s (fun t => TakesFault s t n c (mkWord 7 0x20 0#4 o) 0x0307))))

/-- What each special register reads as, and that every other number is undefined (R89). SCL.SRW and SCL.SRC: a write of a
W1C register clears the bits that are 1 in the value, clearing WIDEN clears FIRST_BANK, VMODE and the counters take the
value, and a read-only or undefined number faults (R59, R61, R89, R128, R130). -/
def Obligations.SpecialRegisters : Prop :=
  (∀ (d : Dev) (n c : Nat) (x : Ctx),
     specRead d n c x 0x000 = some c ∧ specRead d n c x 0x001 = some n ∧ specRead d n c x 0x002 = some (ownNode d) ∧
     specRead d n c x 0x004 = some (gtimeNs d) ∧ specRead d n c x 0x005 = some (coreOf d n).beat.n ∧
     specRead d n c x 0x010 = some (regNat d (coreOff n 0x304)) ∧
     specRead d n c x 0x011 = some (regNat d (coreOff n 0x300)) ∧
     (∀ b, b < 32 → specRead d n c x (0x020 + b) = some (regNat d (coreOff n (0x380 + 4 * b)))) ∧
     specRead d n c x 0x040 = some (regNat d (coreOff n 0x308)) ∧
     specRead d n c x 0x041 = some (regNat d (coreOff n 0x30C)) ∧
     (∀ l, l < 4 → specRead d n c x (0x050 + l) = some (((x.loops[l]?).map (fun v => v.iter)).getD 0)) ∧
     specRead d n c x 0x060 = some (coreOf d n).ops.length ∧
     (∀ k, k < 64 → specRead d n c x (0x100 + k) = some (regNat d (coreOff n (0x400 + 4 * k)))) ∧
     specRead d n c x 0x140 = some (regNat64 d (coreOff n 0x500)) ∧
     (∀ k, specRead d n c x k = none ↔ ¬ (k ≤ 0x006 ∨ k = 0x010 ∨ k = 0x011 ∨ (0x020 ≤ k ∧ k < 0x042) ∨
       (0x050 ≤ k ∧ k < 0x054) ∨ k = 0x060 ∨ (0x100 ≤ k ∧ k ≤ 0x140)))) ∧
  (∀ (n c : Nat) (f : BitVec 4) (o : BitVec 112) (s : State), f.toNat < 2 → InStore (ctxIn s n c) →
     onlyFields o ((52, 12) :: (if f.toNat = 1 then [(0, 32)] else [(97, 5)])) = true →
     let k := fld o 52 12
     let b := if f.toNat = 1 then (BitVec.ofNat 32 (fld o 0 32)).signExtend 64 else sreg (ctxIn s n c) (fld o 97 5)
     let b32 := b.setWidth 32
     let clears := fun (t : State) =>
       (k = 0x010 → GoesOnWithRegs s t n c [coreOff n 0x304] ∧
         regGet t.dev (coreOff n 0x304) = regGet s.dev (coreOff n 0x304) &&& ~~~(b32 &&& 0xF#32) &&&
           (if b32.getLsbD 0 then ~~~0x1F00#32 else ~~~0#32)) ∧
       (k = 0x041 → GoesOnWithRegs s t n c [coreOff n 0x30C] ∧
         regGet t.dev (coreOff n 0x30C) = regGet s.dev (coreOff n 0x30C) &&& ~~~b32) ∧
       (k = 0x140 → GoesOnWithRegs s t n c [coreOff n 0x500, coreOff n 0x504] ∧
         regGet t.dev (coreOff n 0x500) = regGet s.dev (coreOff n 0x500) &&& ~~~b32 ∧
         regGet t.dev (coreOff n 0x504) = regGet s.dev (coreOff n 0x504) &&& ~~~((b >>> 32).setWidth 32))
     (StandsAt s n (mkWord 7 0x22 f o) c →
       ((k = 0x010 ∨ k = 0x041 ∨ k = 0x140) → Does (.sclSrc n f o) s clears) ∧
       (k ≠ 0x010 → k ≠ 0x041 → k ≠ 0x140 →
         Does (.sclSrc n f o) s (fun t => TakesFault s t n c (mkWord 7 0x22 f o) 0x0307))) ∧
     (StandsAt s n (mkWord 7 0x21 f o) c →
       ((k = 0x010 ∨ k = 0x041 ∨ k = 0x140) → Does (.sclSrw n f o) s clears) ∧
       (k = 0x040 → Does (.sclSrw n f o) s (fun t => GoesOnWithRegs s t n c [coreOff n 0x308] ∧
         regGet t.dev (coreOff n 0x308) = b32 &&& 1#32)) ∧
       (∀ i, i < 64 → k = 0x100 + i → NoSwait s.dev n → Does (.sclSrw n f o) s (fun t =>
         GoesOnWithRegs s t n c [coreOff n (0x400 + 4 * i)] ∧ regGet t.dev (coreOff n (0x400 + 4 * i)) = b32)) ∧
       (∀ i, i < 32 → k = 0x020 + i → Does (.sclSrw n f o) s (fun t =>
         GoesOnWithRegs s t n c [coreOff n (0x380 + 4 * i), coreOff n 0x304] ∧
         regGet t.dev (coreOff n (0x380 + 4 * i)) = b32 ∧
         (b32.toNat ≤ regNat s.dev (coreOff n 0x300) →
           regGet t.dev (coreOff n 0x304) = regGet s.dev (coreOff n 0x304)) ∧
         (regNat s.dev (coreOff n 0x300) < b32.toNat → natBit (regNat t.dev (coreOff n 0x304)) 0 = true))) ∧
       (k = 0x011 → Does (.sclSrw n f o) s (fun t => GoesOnWithRegs s t n c [coreOff n 0x300, coreOff n 0x304] ∧
         regGet t.dev (coreOff n 0x300) = b32 ∧
         (natBit (regNat t.dev (coreOff n 0x304)) 0 = true ↔ natBit (regNat s.dev (coreOff n 0x304)) 0 = true ∨
           ∃ i, i < 32 ∧ b32.toNat < regNat s.dev (coreOff n (0x380 + 4 * i))))) ∧
       (¬ (k = 0x010 ∨ k = 0x011 ∨ (0x020 ≤ k ∧ k < 0x042) ∨ (0x100 ≤ k ∧ k ≤ 0x140)) →
         Does (.sclSrw n f o) s (fun t => TakesFault s t n c (mkWord 7 0x21 f o) 0x0307))))

/-- SCL.LD and SCL.ST move 8 bytes between a scalar register and this core's scratchpad at SA plus the sign-extended
offset modulo 2^64, once the scoreboard allows; a misaligned offset faults with ALIGN and one beyond the scratchpad with
DESC_REGION (R125, R128, R129). A load that finds its word poisoned ends its context (R217). -/
def Obligations.ScalarMemory : Prop :=
  ∀ (n c : Nat) (o : BitVec 112) (s : State),
    let x := ctxIn s n c
    let off := (sreg x (fld o 102 5) + (BitVec.ofNat 32 (fld o 0 32)).signExtend 64).toNat
    let key := spadBase n + off
    (StandsAt s n (mkWord 7 0x10 1#4 o) c → onlyFields o [(107, 5), (102, 5), (0, 32)] = true →
      (off < 0x600000 → off % 8 = 0 → granulesReady (coreOf s.dev n) [off / 4096] [] = true → key ∉ s.mem.poison →
        InStore x → Does (.sclLd n 1#4 o []) s (fun t =>
          WritesScalar s t n c (fld o 107 5) (BitVec.ofNat 64 (leNat (memBytes s.mem key 8))))) ∧
      (off < 0x600000 → off % 8 = 0 → granulesReady (coreOf s.dev n) [off / 4096] [] = true → key ∈ s.mem.poison →
        Does (.sclLd n 1#4 o []) s (fun t => (ctxIn t n c).st = 6)) ∧
      (off < 0x600000 → off % 8 ≠ 0 →
        Does (.sclLd n 1#4 o []) s (fun t => TakesFault s t n c (mkWord 7 0x10 1#4 o) 0x030D)) ∧
      (0x600000 ≤ off → Does (.sclLd n 1#4 o []) s (fun t => TakesFault s t n c (mkWord 7 0x10 1#4 o) 0x0309))) ∧
    (StandsAt s n (mkWord 7 0x11 1#4 o) c → onlyFields o [(102, 5), (97, 5), (0, 32)] = true →
      (off < 0x600000 → off % 8 = 0 → granulesReady (coreOf s.dev n) [] [off / 4096] = true → InStore x → s.Safe →
        Does (.sclSt n 1#4 o) s (fun t => SameMemBut s t key 8 ∧
          (∀ i, i < 8 → memByte t.mem (key + i) = (sreg x (fld o 97 5) >>> (8 * i)).setWidth 8) ∧
          t.mem.poison = s.mem.poison.filter (fun u => u != key) ∧ SameRegs s t ∧ SameBeside s t ∧
          SameOtherCores s t n ∧ SameCoreBody s t n ∧ SameOtherCtxs s t n c ∧ ctxIn t n c = goesOn x)) ∧
      (off < 0x600000 → off % 8 ≠ 0 →
        Does (.sclSt n 1#4 o) s (fun t => TakesFault s t n c (mkWord 7 0x11 1#4 o) 0x030D)) ∧
      (0x600000 ≤ off → Does (.sclSt n 1#4 o) s (fun t => TakesFault s t n c (mkWord 7 0x11 1#4 o) 0x0309)))

/-- DSET, DINS, DADD and DCPY write one descriptor register and nothing else; a field beyond bit 511 faults with DSC_FIELD
(R124, R126, R127). DLD and DSAV move 64 bytes between a descriptor register and this core's scratchpad, at a 64-byte
aligned offset below 0x60_0000 (R125). -/
def Obligations.DescriptorRegisters : Prop :=
  (∀ (n c : Nat) (o : BitVec 112) (s : State), InStore (ctxIn s n c) →
     let x := ctxIn s n c
     let dn := fld o 104 8
     let old := descOf (coreOf s.dev n) dn
     let w := fld o 101 3
     let imm := fld o 0 32
     (StandsAt s n (mkWord 6 0x03 0#4 o) c → onlyFields o [(104, 8), (101, 3), (91, 5)] = true →
       Does (.dset n 0#4 o) s (fun t => ∃ v, WritesDesc s t n c dn v ∧
         ∀ j, j < 8 → getWord v j = if j = w then sreg x (fld o 91 5) else getWord old j)) ∧
     (∀ hi : Bool, let f : BitVec 4 := if hi then 3#4 else 1#4
       StandsAt s n (mkWord 6 0x03 f o) c → onlyFields o [(104, 8), (101, 3), (0, 32)] = true →
       Does (.dset n f o) s (fun t => ∃ v, WritesDesc s t n c dn v ∧
         ∀ j, j < 16 → bvBits v (32 * j) 32 = if j = 2 * w + hi.toNat then imm else bvBits old (32 * j) 32)) ∧
     (StandsAt s n (mkWord 6 0x04 0#4 o) c → onlyFields o [(104, 8), (95, 9), (89, 6), (84, 5)] = true →
       let lsb := fld o 95 9
       let wm1 := fld o 89 6
       (lsb + wm1 ≤ 511 → Does (.dins n 0#4 o) s (fun t => ∃ v, WritesDesc s t n c dn v ∧
         ∀ i, i < 512 → v.getLsbD i =
           if lsb ≤ i ∧ i ≤ lsb + wm1 then (sreg x (fld o 84 5)).getLsbD (i - lsb) else old.getLsbD i)) ∧
       (511 < lsb + wm1 → Does (.dins n 0#4 o) s (fun t => TakesFault s t n c (mkWord 6 0x04 0#4 o) 0x030E))) ∧
     (∀ f : BitVec 4, f.toNat < 2 → StandsAt s n (mkWord 6 0x05 f o) c →
       onlyFields o ([(104, 8), (101, 3)] ++ (if f.toNat = 1 then [(0, 32)] else [(91, 5)])) = true →
       Does (.dadd n f o) s (fun t => ∃ v, WritesDesc s t n c dn v ∧
         ∀ j, j < 8 → getWord v j = if j = w then
           getWord old j + (if f.toNat = 1 then (BitVec.ofNat 32 imm).signExtend 64 else sreg x (fld o 91 5))
           else getWord old j)) ∧
     (StandsAt s n (mkWord 6 0x06 0#4 o) c → onlyFields o [(104, 8), (96, 8)] = true →
       Does (.dcpy n 0#4 o) s (fun t => WritesDesc s t n c dn (descOf (coreOf s.dev n) (fld o 96 8))))) ∧
  (∀ (n c : Nat) (o : BitVec 112) (s : State), onlyFields o [(104, 8), (91, 5), (0, 32)] = true →
     let x := ctxIn s n c
     let dn := fld o 104 8
     let off := (sreg x (fld o 91 5) + (BitVec.ofNat 32 (fld o 0 32)).signExtend 64).toNat
     let key := spadBase n + off
     (StandsAt s n (mkWord 6 0x01 0#4 o) c →
       (off < 0x600000 → off % 64 = 0 → granulesReady (coreOf s.dev n) [off / 4096] [] = true →
         (∀ i, i < 8 → key + 8 * i ∉ s.mem.poison) → InStore x →
         Does (.dld n 0#4 o []) s (fun t => WritesDesc s t n c dn (BitVec.ofNat 512 (leNat (memBytes s.mem key 64))))) ∧
       (off < 0x600000 → off % 64 ≠ 0 →
         Does (.dld n 0#4 o []) s (fun t => TakesFault s t n c (mkWord 6 0x01 0#4 o) 0x030D)) ∧
       (0x600000 ≤ off → Does (.dld n 0#4 o []) s (fun t => TakesFault s t n c (mkWord 6 0x01 0#4 o) 0x0309))) ∧
     (StandsAt s n (mkWord 6 0x02 0#4 o) c →
       (off < 0x600000 → off % 64 = 0 → granulesReady (coreOf s.dev n) [] [off / 4096] = true → InStore x → s.Safe →
         Does (.dsav n 0#4 o []) s (fun t => SameMemBut s t key 64 ∧
           (∀ i, i < 64 → memByte t.mem (key + i) = (descOf (coreOf s.dev n) dn >>> (8 * i)).setWidth 8) ∧
           SameRegs s t ∧ SameBeside s t ∧ SameOtherCores s t n ∧ SameCoreBody s t n ∧ SameOtherCtxs s t n c ∧
           ctxIn t n c = goesOn x)) ∧
       (off < 0x600000 → off % 64 ≠ 0 →
         Does (.dsav n 0#4 o []) s (fun t => TakesFault s t n c (mkWord 6 0x02 0#4 o) 0x030D)) ∧
       (0x600000 ≤ off → Does (.dsav n 0#4 o []) s (fun t => TakesFault s t n c (mkWord 6 0x02 0#4 o) 0x0309))))

/-- SFENC holds its context while an earlier long operation in its scope is incomplete, and goes on otherwise: MEM waits
for the MOV and VEC operations that do not write to a board peer, REM for those that do and for signals a peer has not
acknowledged, COL for the COL operations; with none of the three it waits for all (R101). SWAIT goes on at once when Ek is
at least V, subtracting V when DEC is 1; otherwise its context waits (R102). -/
def Obligations.SfencAndSwaitWait : Prop :=
  (∀ (n c : Nat) (f : BitVec 4) (s : State), StandsAt s n (mkWord 1 2 f 0#112) c →
     let none3 := f.getLsbD 0 = false ∧ f.getLsbD 1 = false ∧ f.getLsbD 2 = false
     let wide := f.getLsbD 3 = true
     let toPeer := fun (p : LongOp) => opClass p.word = 4 ∧ (tdesc (ownSlot s.dev) p.dd).peer = true ∧
       (opCode p.word = 2 ∨ opCode p.word = 1 ∧ bvBits p.word 112 2 = 0)
     let busy := (∃ p ∈ (coreOf s.dev n).ops, (wide ∨ p.ctx = c) ∧
         ((f.getLsbD 0 = true ∨ none3) ∧ (opClass p.word = 3 ∨ opClass p.word = 4 ∧ ¬ toPeer p) ∨
          (f.getLsbD 1 = true ∨ none3) ∧ toPeer p ∨
          (f.getLsbD 2 = true ∨ none3) ∧ opClass p.word = 5)) ∨
       ((f.getLsbD 1 = true ∨ none3) ∧ ∃ r ∈ s.dev.ni.board, r.kind = 2 ∧ r.core = n ∧ (wide ∨ r.ctx = c))
     (busy → Does (.sfenc n f 0#112) s (fun t => StaysHeld s t n c)) ∧
     (¬ busy → InStore (ctxIn s n c) →
       Does (.sfenc n f 0#112) s (fun t => OnlyCtx s t n c ∧ ctxIn t n c = goesOn (ctxIn s n c)))) ∧
  (∀ (n c : Nat) (f : BitVec 4) (o : BitVec 112) (s : State), StandsAt s n (mkWord 1 3 f o) c → f.toNat < 4 →
     onlyFields o (if f.getLsbD 0 then [(106, 6), (0, 32)] else [(106, 6), (91, 5)]) = true →
     let x := ctxIn s n c
     let k := fld o 106 6
     let e := coreOff n (0x400 + 4 * k)
     let v := if f.getLsbD 0 then fld o 0 32 else (sreg x (fld o 91 5)).toNat % 2 ^ 32
     (v ≤ regNat s.dev e → InStore x → Does (.swait n f o) s (fun t => GoesOnWithRegs s t n c [e] ∧
       regNat t.dev e = if f.getLsbD 1 then regNat s.dev e - v else regNat s.dev e)) ∧
     (regNat s.dev e < v → Does (.swait n f o) s (fun t => OnlyCtx s t n c ∧
       ctxIn t n c = { x with st := 3, wait := .swait k v (f.getLsbD 1), hold := 0 })))

/-- SSIG adds INC to a counter of a core of this device, saturating at 0xFFFF_FFFF with its EV_OVF bit, or sends the signal
to a board peer; with REL it waits as an SFENC of MEM and REM. A TCORE beyond the part or absent faults with ADDR_UNMAPPED,
and a board peer outside the slice with BOARD_FENCED (R28, R88, R103, R336). The first clause takes a target core none of
whose contexts waits in SWAIT or WAITM, while no power state is entered. -/
def Obligations.SsigAdds : Prop :=
  ∀ (n c : Nat) (f : BitVec 4) (o : BitVec 112) (s : State), StandsAt s n (mkWord 1 4 f o) c → f.toNat < 4 →
    onlyFields o ([(106, 6), (96, 8), (0, 16)] ++ (if f.getLsbD 1 then [(93, 3)] else [])) = true →
    let tc := fld o 96 8
    let k := fld o 106 6
    let slot := fld o 93 3
    let board := f.getLsbD 1 = true ∧ slot ≠ ownSlot s.dev
    let busy := f.getLsbD 0 = true ∧ fenceBusy s.dev n c true true false false = true
    let e := coreOff tc (0x400 + 4 * k)
    let ovf := coreOff tc (0x500 + 4 * (k / 32))
    let sum := regNat s.dev e + fld o 0 16
    (¬ board → ¬ busy → InStore (ctxIn s n c) → corePresent s.dev tc = true → NoSwait s.dev tc →
      (∀ i, i < 8 → (ctxIn s tc i).st ≠ 5) → s.dev.pwr.entering = false →
      Does (.ssig n f o) s (fun t => SameMem s t ∧ SameRegsBut s t [e, ovf] ∧ SameBeside s t ∧
        ctxIn t n c = goesOn (ctxIn s n c) ∧ regNat t.dev e = min sum 0xFFFFFFFF ∧
        (sum ≤ 0xFFFFFFFF → regGet t.dev ovf = regGet s.dev ovf) ∧
        (0xFFFFFFFF < sum → ∀ i, i < 32 → (regGet t.dev ovf).getLsbD i =
          ((regGet s.dev ovf).getLsbD i || decide (i = k % 32))))) ∧
    (¬ board → corePresent s.dev tc = false →
      Does (.ssig n f o) s (fun t => TakesFault s t n c (mkWord 1 4 f o) 0x0320)) ∧
    ((board ∨ corePresent s.dev tc = true) → busy → Does (.ssig n f o) s (fun t => StaysHeld s t n c)) ∧
    (board → ¬ busy → isMember s.dev (slotNode s.dev slot) = true → InStore (ctxIn s n c) →
      Does (.ssig n f o) s (fun t => SameMem s t ∧ SameRegs s t ∧ ctxIn t n c = goesOn (ctxIn s n c) ∧
        ∃ q, t.dev.ni.board = s.dev.ni.board ++ [q] ∧ q.kind = 2 ∧ q.slot = slot ∧
          q.payload = leBytes 2 tc ++ leBytes 1 k ++ leBytes 1 0 ++ leBytes 2 (fld o 0 16) ++ leBytes 2 0)) ∧
    (board → ¬ busy → isMember s.dev (slotNode s.dev slot) = false →
      Does (.ssig n f o) s (fun t => SameMem s t ∧ (ctxIn t n c).st = 6 ∧ t.dev.ni.board = s.dev.ni.board))

/-- SBEAT's context waits while another context of the core still works; when nothing else holds the beat, the new beat
number is written to SD and the context goes on (R100, R263). The second part takes a core whose other contexts are idle
and whose beats are not enabled. WAITM waits for its context's long operations, then puts the context into WAITM; an idle
core with IDLE_GATE gates its clocks, and TIMEOUT ends the wait and ungates them (R131, R540, R541). A context in WAITM
holds back no beat: where the others wait in SBEAT with their operations complete, a core that keeps no grid ends its beat
(R100, R264). -/
def Obligations.BeatsAndWaits : Prop :=
  (∀ (n c : Nat) (f : BitVec 4) (o : BitVec 112) (s : State), StandsAt s n (mkWord 1 1 f o) c → f.toNat < 2 → c < 8 →
     onlyFields o [(107, 5)] = true →
     ((∃ e, e < 8 ∧ e ≠ c ∧ ((ctxIn s n e).st = 1 ∨ (ctxIn s n e).st = 2 ∨ (ctxIn s n e).st = 3) ∧
         ∀ sd col, (ctxIn s n e).wait ≠ .sbeat sd col) →
       Does (.sbeat n f o) s (fun t => SameMem s t ∧ SameRegs s t ∧ SameBeside s t ∧ SameOtherCores s t n ∧ SameOtherCtxs s t n c ∧
         ctxIn t n c = { ctxIn s n c with st := 4, wait := .sbeat (fld o 107 5) (f.getLsbD 0), hold := 0 } ∧
         (coreOf t.dev n).beat = { (coreOf s.dev n).beat with ready := none })) ∧
     ((∀ e, e < 8 → e ≠ c → ((ctxIn s n e).st = 0 ∨ (ctxIn s n e).st = 6 ∨ (ctxIn s n e).st = 7) ∧
         (ctxIn s n e).wait = .none) →
       (coreOf s.dev n).ops = [] → (coreOf s.dev n).beat.enabled = false → beatEnable s.dev = false →
       InStore (ctxIn s n c) →
       Does (.sbeat n f o) s (fun t => SameMem s t ∧ SameRegs s t ∧ SameOtherCores s t n ∧ SameOtherCtxs s t n c ∧
         (coreOf t.dev n).beat.n = (coreOf s.dev n).beat.n + 1 ∧ (ctxIn t n c).pc = (goesOn (ctxIn s n c)).pc ∧
         (ctxIn t n c).st = 1 ∧ ∀ i, sreg (ctxIn t n c) i = if i = 0 then 0#64 else
           if i = fld o 107 5 then BitVec.ofNat 64 ((coreOf s.dev n).beat.n + 1) else sreg (ctxIn s n c) i))) ∧
  (∀ (n c : Nat) (o : BitVec 112) (s : State),
     (StandsAt s n (mkWord 8 1 0#4 o) c → onlyFields o [(0, 32)] = true → c < 8 →
       (ctxBusy (coreOf s.dev n) c = true → Does (.waitm n 0#4 o) s (fun t => StaysHeld s t n c)) ∧
       (ctxBusy (coreOf s.dev n) c = false → (∀ e, e < 8 → e ≠ c → (ctxIn s n e).st ≠ 4) →
         Does (.waitm n 0#4 o) s (fun t => SameMem s t ∧ SameRegs s t ∧ SameOtherCores s t n ∧ SameOtherCtxs s t n c ∧
         ctxIn t n c = { ctxIn s n c with st := 5, wait := .waitm (fld o 0 32), hold := 0 } ∧
         (coreOf t.dev n).gated = ((coreOf s.dev n).gated || (natBit (regNat s.dev (coreOff n 0x880)) 0 &&
           (rangeFrom 0 8).all (fun e => e == c || (ctxIn s n e).st == 0 || decide (5 ≤ (ctxIn s n e).st)))))) ∧
       (ctxBusy (coreOf s.dev n) c = false → (∃ e, e < 8 ∧ e ≠ c ∧ (ctxIn s n e).st = 4) →
         (∀ e, e < 8 → e ≠ c → (ctxIn s n e).st = 0 ∨ (∃ sd, (ctxIn s n e).st = 4 ∧ (ctxIn s n e).wait = .sbeat sd true ∧
           ctxBusy (coreOf s.dev n) e = false)) →
         (coreOf s.dev n).beat.enabled = false → beatEnable s.dev = false →
         Does (.waitm n 0#4 o) s (fun t => (ctxIn t n c).st = 5 ∧ (coreOf t.dev n).beat.n = (coreOf s.dev n).beat.n + 1 ∧
           ∀ e, e < 8 → e ≠ c → (ctxIn s n e).st = 4 → InStore (ctxIn s n e) → (ctxIn t n e).st = 1))) ∧
     (∀ us, us ≠ 0 → c < 8 → (ctxIn s n c).wait = .waitm us → InStore (ctxIn s n c) →
       Does (.waitmTimeout n c) s (fun t => SameMem s t ∧ SameRegs s t ∧ SameOtherCores s t n ∧ SameOtherCtxs s t n c ∧
         ctxIn t n c = goesOn (ctxIn s n c) ∧ (coreOf t.dev n).gated = false)))

/-- Every VEC instruction issues by its plan: its first fault is taken, an unready one is held, and one that issues goes
on, is outstanding, and leaves in memory what its plan's run stores (R79, R80, R135). A VEC instruction with one
destination stores to that tensor's bytes and nowhere else, and the only registers it changes are its core's VFLAGS and,
for an encode, the clip counters and NUM_STATUS (R46, R58, R206). -/
def Obligations.VectorIssuesAndStores : Prop :=
  (∀ e ∈ ([(.vop, 0x01, vopPlan), (.vred, 0x02, vredPlan), (.vlut, 0x03, vlutPlan), (.vperm, 0x04, vpermPlan),
       (.vgath, 0x05, vgathPlan), (.vscat, 0x06, vscatPlan), (.vrng, 0x07, vrngPlan), (.venc, 0x08, vencPlan),
       (.vdec, 0x09, vdecPlan)] :
       List ((Nat → BitVec 4 → BitVec 112 → List MemErr → Instr) × Nat ×
         (Nat → BitVec 4 → BitVec 112 → Dev → Core → Ctx → RunPlan))),
     ∀ (n c : Nat) (f : BitVec 4) (o : BitVec 112) (s : State), StandsAt s n (mkWord 3 e.2.1 f o) c →
       let d := atIssue s n
       let p := e.2.2 n f o d (coreOf d n) (ctxIn s n c)
       (∀ ev, firstFault p.conds = some ev →
         Does (e.1 n f o []) s (fun t => TakesFault s t n c (mkWord 3 e.2.1 f o) ev)) ∧
       (Clean p.conds → (longReady (coreOf d n) p.srcs p.dsts && bookReady (coreOf d n) p.books) = false →
         Does (e.1 n f o []) s (fun t => StaysHeld s t n c)) ∧
       (Clean p.conds → longReady (coreOf d n) p.srcs p.dsts = true → bookReady (coreOf d n) p.books = true →
         InStore (ctxIn s n c) → Does (e.1 n f o []) s (fun t =>
           Outstanding s t n c (mkWord 3 e.2.1 f o) p.srcs p.dsts ∧ t.mem = memApplyAll s.mem (p.run d s.mem).ops))) ∧
  (∀ e ∈ ([(.vop, 0x01, vopPlan), (.vlut, 0x03, vlutPlan), (.vperm, 0x04, vpermPlan), (.vgath, 0x05, vgathPlan),
       (.vrng, 0x07, vrngPlan), (.venc, 0x08, vencPlan), (.vdec, 0x09, vdecPlan)] :
       List ((Nat → BitVec 4 → BitVec 112 → List MemErr → Instr) × Nat ×
         (Nat → BitVec 4 → BitVec 112 → Dev → Core → Ctx → RunPlan))),
     ∀ (n c : Nat) (f : BitVec 4) (o : BitVec 112) (s t : State), StandsAt s n (mkWord 3 e.2.1 f o) c →
       Clean (e.2.2 n f o (atIssue s n) (coreOf (atIssue s n) n) (ctxIn s n c)).conds → InStore (ctxIn s n c) →
       exec (e.1 n f o []) s = .next t →
       (∀ a, a ∉ tensorKeys (tdesc (ownSlot s.dev) (descOf (coreOf s.dev n) (fld o 104 8))) →
         memByte t.mem a = memByte s.mem a) ∧
       SameRegsBut s t (coreOff n 0x30C :: (if e.2.1 = 0x08 then
         coreOff n 0x304 :: (rangeFrom 0 32).map (fun b => coreOff n (0x380 + 4 * b)) else [])))

/-- The elements of VOP in INT32: sums, differences, ABS and NEG saturate and say so, MIN and MAX compare signed, CMPLT
and CMPEQ give 1 or 0, SEL chooses, COPY copies (R112, R182 to R184). An integer accumulator holds the exact sum while
every partial sum stays within ±549,755,813,887; a sum beyond takes it to the infinity state of its sign, which no later
product leaves (R48, R49). -/
def Obligations.ElementsAndAccumulators : Prop :=
  (∀ (a b c : Nat), a < 2 ^ 32 → b < 2 ^ 32 → c < 2 ^ 32 →
     let ia := (BitVec.ofNat 32 a).toInt
     let ib := (BitVec.ofNat 32 b).toInt
     let sat := fun (v : Int) => (max (-2147483648) (min 2147483647 v))
     let is := fun (r : Nat × Nat) (v : Int) => r = ((BitVec.ofInt 32 (sat v)).toNat, if sat v = v then 0 else vfSat)
     vopElem 0x00 4 0 0 4 a b c = (a, 0) ∧
     is (vopElem 0x01 4 4 0 4 a b c) (ia + ib) ∧ is (vopElem 0x02 4 4 0 4 a b c) (ia - ib) ∧
     is (vopElem 0x05 4 4 0 4 a b c) (min ia ib) ∧ is (vopElem 0x06 4 4 0 4 a b c) (max ia ib) ∧
     is (vopElem 0x07 4 0 0 4 a b c) ia.natAbs ∧ is (vopElem 0x08 4 0 0 4 a b c) (-ia) ∧
     vopElem 0x0A 4 4 0 4 a b c = ((if ia < ib then 1 else 0), 0) ∧
     vopElem 0x0B 4 4 0 4 a b c = ((if ia = ib then 1 else 0), 0) ∧
     vopElem 0x0C 4 4 4 4 a b c = ((if a ≠ 0 then b else c), 0)) ∧
  (∀ (ps : List Int) (v : Int),
     ((∀ k, k ≤ ps.length → -549755813888 ≤ v + (ps.take k).sum ∧ v + (ps.take k).sum ≤ 549755813887) →
       ps.foldl accAdd (.int v) = .int (v + ps.sum)) ∧
     (∀ neg, ps.foldl accAdd (.inf neg) = .inf neg) ∧
     (∀ p, 549755813887 < v + p → accAdd (.int v) p = .inf false) ∧
     (∀ p, v + p < -549755813888 → accAdd (.int v) p = .inf true))

/-- MOPA: each cell (i, j) with i < M and j < N takes its K products in ascending order, other cells stay (or are cleared by
ZERO), the tag is MODE's, and the operation is outstanding (R48 to R50, R105, R106, R139). Operands without poison, and no
incomplete MOPA ahead that read any (R587). -/
def Obligations.MatrixMultiplies : Prop :=
  ∀ (n c : Nat) (f : BitVec 4) (o : BitVec 112) (s : State), StandsAt s n (mkWord 2 0x01 f o) c →
    let d := atIssue s n
    let k := coreOf d n
    let mode := f.toNat % 4
    let zero := f.getLsbD 2
    let ra := descOf k (fld o 104 8)
    let rb := descOf k (fld o 96 8)
    let a := tdesc (ownSlot d) ra
    let b := tdesc (ownSlot d) rb
    let booka := fld o 92 4
    let bookb := fld o 88 4
    let ea := readElems (localView d s.mem) a
    let eb := readElems (localView d s.mem) b
    let srcs := descGranules d n a ++ descGranules d n b
    f.toNat < 8 → mode ≠ 3 →
    onlyFields o ([(104, 8), (96, 8), (7, 1), (0, 6)] ++ (if mode = 2 then [] else [(92, 4), (88, 4)])) = true →
    mopaShapeBad a b = false → (mode = 0 → booka < 8 ∧ bookb < 8) →
    (zero = true ∨ (activeOf k).tag = 0 ∨ (activeOf k).tag = (if mode = 2 then 2 else 1)) →
    Clean (mtxConds d n ra (modeFmt mode) ++ mtxConds d n rb (modeFmt mode)) →
    longReady k srcs [] = true →
    bookReady k (if mode = 2 then [] else [bookReg (mode == 1) booka, bookReg (mode == 1) bookb]) = true →
    (∀ e ∈ ea ++ eb, e.2 = false) → (zero = true ∨ mopaTainted k = false) → InStore (ctxIn s n c) →
    Does (.mopa n f o []) s (fun t => Outstanding s t n c (mkWord 2 0x01 f o) srcs [] ∧ SameMem s t ∧ SameRegs s t ∧
      (activeOf (coreOf t.dev n)).tag = (if mode = 2 then 2 else 1) ∧
      shadowOf (coreOf t.dev n) = shadowOf k ∧
      (∀ i j, i < extOf a 0 → j < extOf b 0 →
        cellAt (activeOf (coreOf t.dev n)) i j =
          mopaCell k mode booka bookb (fun q => (listGet ea (q * extOf a 0 + i) (0, false)).1)
            (fun q => (listGet eb (q * extOf b 0 + j) (0, false)).1) (outerCount a)
            (if zero then (if mode = 2 then .fp 0#32 else .int 0) else cellAt { activeOf k with tag := modeTag mode } i j)) ∧
      (∀ i j, j < 128 → (extOf a 0 ≤ i ∨ extOf b 0 ≤ j) →
        cellAt (activeOf (coreOf t.dev n)) i j =
          if zero then (if mode = 2 then .fp 0#32 else .int 0) else cellAt { activeOf k with tag := modeTag mode } i j))

/-- MSWP exchanges the two sets once no MTX operation of the core is incomplete: the former active set is the shadow set,
HELD, and the former shadow set is active, cleared with ZERO; it completes as it issues, adding 1 to the counter its completion
field names (R107). In the swap cycle MTX_STATE reads the roles from before, with SWAP; the next instruction of the core finds
it over (R152). -/
def Obligations.SetsSwap : Prop :=
  ∀ (n c : Nat) (f : BitVec 4) (o : BitVec 112) (s : State), StandsAt s n (mkWord 2 0x02 f o) c → f.toNat < 2 →
    onlyFields o [(7, 1), (0, 6)] = true →
    let k := coreOf s.dev n
    let ev := natBit o.toNat 7
    let e := coreOff n (0x400 + 4 * fld o 0 6)
    ((k.ops.length < 512 ∧ ∀ p ∈ k.ops, opClass p.word ≠ 2) → InStore (ctxIn s n c) →
      (ev = true → NoSwait s.dev n ∧ (∀ i, i < 8 → (ctxIn s n i).st ≠ 5) ∧ s.dev.pwr.entering = false) →
      Does (.mswp n f o) s (fun t => SameMem s t ∧ SameBeside s t ∧ SameOtherCores s t n ∧ ctxIn t n c = goesOn (ctxIn s n c) ∧
        SameRegsBut s t (if ev = true then [e, coreOff n (0x500 + 4 * (fld o 0 6 / 32))] else []) ∧
        (ev = true → regNat t.dev e = min (regNat s.dev e + 1) 0xFFFFFFFF) ∧
        shadowOf (coreOf t.dev n) = activeOf k ∧ (coreOf t.dev n).shadowHeld = true ∧
        activeOf (coreOf t.dev n) = (if f.toNat = 1 then ⟨0, [], []⟩ else shadowOf k) ∧
        (k.swap = none → mtxState (coreOf t.dev n) = mtxState k + 64) ∧
        (coreOf t.dev n).ops = k.ops ∧ (coreOf t.dev n).descs = k.descs)) ∧
    ((∃ p ∈ k.ops, opClass p.word = 2) → Does (.mswp n f o) s (fun t => StaysHeld s t n c))

/-- MDRN issues once the shadow set is HELD, and holds row i, column j of it, scaled, for its descriptor's element; MLDS loads
the shadow set from its descriptor, clears the cells outside its shape and takes the tag of its format once the set is FREE (R54,
R108, R109, R150). No poison in MLDS's source. -/
def Obligations.ShadowDrainsAndLoads : Prop :=
  ∀ (n c : Nat) (f : BitVec 4) (o : BitVec 112) (s : State), InStore (ctxIn s n c) → f.toNat % 4 ≠ 3 →
    let d := atIssue s n
    let k := coreOf d n
    let fmt := drainFmt (f.toNat % 4)
    (StandsAt s n (mkWord 2 0x03 f o) c →
      let scol := f.getLsbD 2
      let srow := f.getLsbD 3
      let sbc := fld o 99 5
      let sbr := fld o 94 5
      let t0 := tdesc (ownSlot d) (descOf k (fld o 104 8))
      let sh := shadowOf k
      let dsts := descGranules d n t0
      onlyFields o ([(104, 8), (93, 1), (7, 1), (0, 6)] ++ (if scol then [(99, 5)] else []) ++
        (if srow then [(94, 5)] else [])) = true →
      drainShapeBad t0 = false →
      (f.toNat % 4 = 2 → scol = false ∧ srow = false ∧ sh.tag ≠ 2) →
      (f.toNat % 4 ≠ 2 → sh.tag = 1 → scol = true) →
      Clean (mtxConds d n (descOf k (fld o 104 8)) fmt) → longReady k [] dsts = true →
      bookReady k (if sh.tag = 0 then [] else
        (if scol then [32 + sbc] else []) ++ (if srow then [32 + sbr] else [])) = true →
      projectedHeld k = true →
      Does (.mdrn n f o) s (fun t => Outstanding s t n c (mkWord 2 0x03 f o) [] dsts ∧
        shadowOf (coreOf t.dev n) = sh ∧ activeOf (coreOf t.dev n) = activeOf k ∧
        SameMem s t ∧ SameRegs s t ∧
        ∃ op ∈ (coreOf t.dev n).ops, op.id = k.nextOp ∧ op.dd = descOf k (fld o 104 8) ∧
          op.vals = (rangeFrom 0 (elemCount t0)).map (fun e =>
            drainElem fmt sh.tag (cellAt sh (e / extOf t0 0) (e % extOf t0 0))
              (if srow then some (scaleEntry k sbr (e / extOf t0 0)) else none)
              (if scol then some (scaleEntry k sbc (e % extOf t0 0)) else none)))) ∧
    (StandsAt s n (mkWord 2 0x04 f o) c → f.toNat < 4 →
      let t0 := tdesc (ownSlot d) (descOf k (fld o 96 8))
      let es := readElems (localView d s.mem) t0
      let srcs := descGranules d n t0
      onlyFields o [(96, 8), (7, 1), (0, 6)] = true → drainShapeBad t0 = false →
      Clean (mtxConds d n (descOf k (fld o 96 8)) fmt) → longReady k srcs [] = true → projectedHeld k = false →
      (∀ e ∈ es, e.2 = false) →
      Does (.mlds n f o []) s (fun t => Outstanding s t n c (mkWord 2 0x04 f o) srcs [] ∧ SameMem s t ∧ SameRegs s t ∧
        activeOf (coreOf t.dev n) = activeOf k ∧
        (shadowOf (coreOf t.dev n)).tag = (if f.toNat = 2 then 1 else 2) ∧
        (∀ i j, i < extOf t0 1 → j < extOf t0 0 → cellAt (shadowOf (coreOf t.dev n)) i j =
          (let e := (listGet es (i * extOf t0 0 + j) (0, false)).1
           if f.toNat = 2 then imageAcc e else .fp (wide fmt e))) ∧
        (∀ i j, j < 128 → (extOf t0 1 ≤ i ∨ extOf t0 0 ≤ j) → cellAt (shadowOf (coreOf t.dev n)) i j =
          (if f.toNat = 2 then .int 0 else .fp 0#32))))

/-- The completions of long operations: the oldest MOPA, drain, load or VEC instruction, or the named DMA operation whose
peers have all answered, is outstanding no longer; a drain's elements are in memory, and it leaves the shadow set FREE or, with
KEEP, HELD, a load leaves it HELD; EV adds 1 to the event counter, and a fault faults the context instead (R75 to R77, R80,
R108, R109, R137, R154). Matrix array and vector engine are clocked, and so is the network die's router. -/
def Obligations.LongOperationsComplete : Prop :=
  ∀ (n : Nat) (s : State) (op : LongOp), op ∈ (coreOf s.dev n).ops →
    let k := coreOf s.dev n
    let gone := fun (t : State) => (coreOf t.dev n).ops = k.ops.filter (fun p => p.id != op.id) ∧
      (op.fault = none → op.word.getLsbD 7 = true → NoSwait s.dev n →
        evGet t.dev n (bvBits op.word 0 6) = min (evGet s.dev n (bvBits op.word 0 6) + 1) 0xFFFFFFFF) ∧
      (∀ e, op.fault = some e → ctxLive (ctxIn s n op.ctx) = true → (ctxIn t n op.ctx).st = 6)
    (oldestMopa k = some op → arrayRuns s.dev n = true →
      Does (.mopaComplete n) s (fun t => gone t ∧ t.mem = s.mem ∧ (coreOf t.dev n).shadowHeld = k.shadowHeld)) ∧
    (oldestShadow k = some op → opCode op.word = 3 → arrayRuns s.dev n = true →
      Does (.mdrnComplete n) s (fun t => gone t ∧ (coreOf t.dev n).shadowHeld = op.word.getLsbD 93 ∧
        (op.vals.length = elemCount (tdesc (ownSlot s.dev) op.dd) → drainShapeBad (tdesc (ownSlot s.dev) op.dd) = false →
          t.mem = memApplyAll s.mem
            (storeElems s.dev s.mem (tdesc (ownSlot s.dev) op.dd) (op.vals.map (fun v => (v, false)))).1))) ∧
    (oldestShadow k = some op → opCode op.word = 4 → arrayRuns s.dev n = true →
      Does (.mldsComplete n) s (fun t => gone t ∧ t.mem = s.mem ∧ (coreOf t.dev n).shadowHeld = true)) ∧
    (oldestVec k = some op → arrayRuns s.dev n = true →
      Does (.vecComplete n) s (fun t => gone t ∧ t.mem = s.mem ∧ (coreOf t.dev n).shadowHeld = k.shadowHeld)) ∧
    (k.ops.find? (fun p => p.id == op.id) = some op → opClass op.word = 4 → op.awaiting = 0 →
      routerOn s.dev = true → Does (.dmaComplete n op.id) s (fun t => gone t ∧ t.mem = s.mem ∧ (coreOf t.dev n).shadowHeld = k.shadowHeld))

/-- A mismatch of a matrix cell or a vector lane is retried and counted in the core's registers, and the same one in the
next attempt retires the core; a word of scratchpad that corrects too often retires its core (R164 to R167, R208 to R210,
R219). Commits enabled for the retirement, so the core waits for its spare (R457). An uncorrectable instruction word is
loaded again from the program image in DRAM; a second time within 24 hours retires the core (R472). -/
def Obligations.CoreUpsets : Prop :=
  (∀ (n : Nat) (s : State) (op : LongOp),
     let k := coreOf s.dev n
     (∀ row col, oldestMopa k = some op → op.fault = none → row < 128 → col < 128 → 128 * row + col ∉ op.skip →
       k.health.mopaTry.op ≠ some op.id →
       smapGet k.health.cellMiss (128 * row + col) 0 + 1 < max 1 (regField s.dev (coreOff n 0x610) 0 4) →
       Does (.matrixResidueMismatch n 0 (row, col) []) s (fun t => t.mem = s.mem ∧ (coreOf t.dev n).ops = k.ops ∧
         (coreOf t.dev n).mapState = k.mapState ∧
         regNat t.dev (coreOff n 0x608) = satAdd32 (regNat s.dev (coreOff n 0x608)) 1 ∧
         smapGet (coreOf t.dev n).health.cellMiss (128 * row + col) 0 =
           smapGet k.health.cellMiss (128 * row + col) 0 + 1)) ∧
     (∀ row col, oldestMopa k = some op → op.fault = none → row < 128 → col < 128 → 128 * row + col ∉ op.skip →
       k.health.mopaTry.op = some op.id → 128 * row + col ∈ k.health.mopaTry.units → commitEnabled s.dev = true →
       Does (.matrixResidueMismatch n 0 (row, col) []) s (fun t => t.mem = s.mem ∧ Retired s t n)) ∧
     (∀ cycle lane, oldestVec k = some op → laneChecked op.word = true → lane < 128 → k.health.vecTry.op = some op.id →
       k.health.vecTry.cycle = cycle → lane ∈ k.health.vecTry.units → commitEnabled s.dev = true →
       Does (.vectorResidueRetry n cycle [lane]) s (fun t => t.mem = s.mem ∧ Retired s t n)) ∧
     (∀ cycle lane, oldestVec k = some op → laneChecked op.word = true → lane < 128 → k.health.vecTry.op ≠ some op.id →
       smapGet k.health.laneMiss lane 0 + 1 < max 1 (regField s.dev (coreOff n 0x64C) 0 4) →
       Does (.vectorResidueRetry n cycle [lane]) s (fun t => t.mem = s.mem ∧ (coreOf t.dev n).ops = k.ops ∧
         (coreOf t.dev n).mapState = k.mapState ∧
         regNat t.dev (coreOff n 0x644) = satAdd32 (regNat s.dev (coreOff n 0x644)) 1 ∧
         smapGet (coreOf t.dev n).health.laneMiss lane 0 = smapGet k.health.laneMiss lane 0 + 1)) ∧
     (∀ word, coreInService s.dev n = true → commitEnabled s.dev = true →
       max 1 (regField s.dev (coreOff n 0x690) 0 8) < smapGet k.health.wordCe word 0 →
       Does (.spadWordFail n word) s (fun t => t.mem = s.mem ∧ Retired s t n))) ∧
  (∀ (n index a len w : Nat) (s : State), coreInService s.dev n = true →
     let k := coreOf s.dev n
     (ctxOf k k.cur).pc = index → ctxLive (ctxOf k k.cur) = true →
     (within24h s.dev (smapFind k.health.reloaded index) = false → k.image = some (a, len) → index < len →
       w = leNat ((rangeFrom (a + 16 * index) 16).map (fun x => memByte s.mem (memKey x))) →
       Does (.istoreReload n index) s (fun t => t.mem = s.mem ∧ SameOtherCores s t n ∧
         smapGet (coreOf t.dev n).istore index 0#128 = BitVec.ofNat 128 w ∧
         (∀ i, i ≠ index → smapGet (coreOf t.dev n).istore i 0#128 = smapGet k.istore i 0#128) ∧
         ∀ e, ctxIn t n e = ctxIn s n e)) ∧
     (within24h s.dev (smapFind k.health.reloaded index) = true → commitEnabled s.dev = true →
       Does (.istoreReload n index) s (fun t => t.mem = s.mem ∧ Retired s t n)))

/-- DMOV's copy form: the destination's bytes take the source's elements in loop order, on this device and where the two
do not overlap; nothing else is written (R115, R185). DMOV's table-load form loads a codebook or a scale bank from a byte
image, and a scale bank's load clears its clip counter; an image that fails its check leaves the register as it was (R36,
R37, R41, R42, R116). -/
def Obligations.DmovAndTableLoads : Prop :=
  (∀ (n c : Nat) (o : BitVec 112) (s : State), StandsAt s n (mkWord 4 1 0#4 o) c →
     let d := atIssue s n
     let k := coreOf d n
     let dd := descOf k (fld o 104 8)
     let ds := descOf k (fld o 96 8)
     let src := tdesc (ownSlot d) ds
     let dst := tdesc (ownSlot d) dd
     let sg := descGranules d n src
     let dg := descGranules d n dst
     Clean (copyConds d n 0#4 o dd ds) → longReady k sg dg = true → src.peer = false → dst.peer = false →
     overlapOf dst src = none → FreshIds s n → InStore (ctxIn s n c) →
     Does (.dmovCopy n 0#4 o []) s (fun t => Outstanding s t n c (mkWord 4 1 0#4 o) sg dg ∧ SameRegs s t ∧
       ∃ vals, vals.length = elemCount src ∧
         (inMirror src = false → (∀ i, hereRegion d src ≠ .mirror i) → vals = readElems (localView d s.mem) src) ∧
         t.mem = memApplyAll s.mem (storeElems d s.mem dst vals).1)) ∧
  (∀ (n c : Nat) (o : BitVec 112) (s : State), StandsAt s n (mkWord 4 1 1#4 o) c →
     let d := atIssue s n
     let k := coreOf d n
     let kind := fld o 110 2
     let num := fld o 104 5
     let ds := descOf k (fld o 96 8)
     let src := tdesc (ownSlot d) ds
     let sg := descGranules d n src
     let vals := readElems (localView d s.mem) src
     let byte := fun i => (listGet vals i (0, false)).1 % 256
     kind ≠ 3 → onlyFields o [(110, 2), (104, 5), (96, 8), (0, 6), (7, 1)] = true →
     (kind = 0 → num < 8) → (kind = 1 → num < 16) → src.ndim = 1 → extOf src 0 = (if kind = 1 then 16 else 512) →
     Clean (descConds d n ds ownOnly [2]) → longReady k sg [] = true → bookFree k (tableReg kind num) = true →
     (∀ e ∈ vals, e.2 = false) → InStore (ctxIn s n c) →
     (imageBad kind (vals.map (fun v => BitVec.ofNat 8 v.1)) = none →
       Does (.dmovTableLoad n 1#4 o []) s (fun t => Outstanding s t n c (mkWord 4 1 1#4 o) sg [] ∧ SameMem s t ∧
         (kind = 0 → ∀ i, i < 256 → smapGet (coreOf t.dev n).cb8 (256 * num + i) 0#12 =
           BitVec.ofNat 12 (byte (2 * i) + 256 * byte (2 * i + 1))) ∧
         (kind = 1 → ∀ i, i < 16 → smapGet (coreOf t.dev n).cb4 (16 * num + i) 0#8 = BitVec.ofNat 8 (byte i)) ∧
         (kind = 2 → clipGet t.dev n num = 0 ∧ ∀ i, i < 128 → smapGet (coreOf t.dev n).scales (128 * num + i) 0#32 =
             BitVec.ofNat 32 (leNat ((rangeFrom (4 * i) 4).map (fun j => BitVec.ofNat 8 (byte j))))))) ∧
     (imageBad kind (vals.map (fun v => BitVec.ofNat 8 v.1)) ≠ none →
       Does (.dmovTableLoad n 1#4 o []) s (fun t => Outstanding s t n c (mkWord 4 1 1#4 o) sg [] ∧ SameMem s t ∧
         SameRegs s t ∧ (coreOf t.dev n).cb8 = k.cb8 ∧ (coreOf t.dev n).cb4 = k.cb4 ∧
         (coreOf t.dev n).scales = k.scales)))

/-- DACC adds each source element into its place in DRAM through the base dies, and DPOOL writes the pooled row of each
bag, both on this device; each is outstanding from then on (R117, R118, R229, R233). DPOOL's rows: with COMB SUM an
element of a bag of one row is that row's element in the destination's format, an empty bag gives 0 for every combiner,
and MAX keeps the first NaN (R232 to R234). -/
def Obligations.BaseDiesAccumulateAndPool : Prop :=
  (∀ (n c : Nat) (f : BitVec 4) (o : BitVec 112) (s : State), f.toNat < 3 → InStore (ctxIn s n c) → FreshIds s n →
     let d := atIssue s n
     let k := coreOf d n
     let x := ctxIn s n c
     let dd := descOf k (fld o 104 8)
     let d1 := descOf k (fld o 96 8)
     let a := tdesc (ownSlot d) d1
     let dst := tdesc (ownSlot d) dd
     let sg := descGranules d n a
     (StandsAt s n (mkWord 4 2 f o) c → onlyFields o [(104, 8), (96, 8), (0, 6), (7, 1)] = true →
       a.fmt = afmtFmt f.toNat → dst.fmt = afmtFmt f.toNat → elemCount a = elemCount dst → inAperture d dst = true →
       dst.peer = false → Clean (descConds d n dd anyRegion allFmts ++ descConds d n d1 ownOnly allFmts) →
       longReady k sg [] = true →
       Does (.dacc n f o []) s (fun t => Outstanding s t n c (mkWord 4 2 f o) sg [] ∧
         t.mem = memApplyAll s.mem (accAll d s.mem dst ((rangeFrom 0 (elemCount dst)).map (fun e =>
           (e, listGet (readElems (localView d s.mem) a) e (0, false)))) none).ops)) ∧
     (StandsAt s n (mkWord 4 3 f o) c →
       let d2 := descOf k (fld o 88 8)
       let dg := descGranules d n dst
       Clean (poolConds d n f o dd d1 d2) → longReady k sg dg = true → (tdesc (ownSlot d) d2).peer = false →
       Does (.dpool n f o []) s (fun t => Outstanding s t n c (mkWord 4 3 f o) sg dg ∧
         t.mem = memApplyAll s.mem (poolRun d s.mem n
           { newOp k c x.pc (mkWord 4 3 f o) sg dg with dd := dd, ds := d2, aux := d1 }).2))) ∧
  (∀ (v : ByteView) (t : TDesc) (fmt row col : Nat), fmt ≤ 1 →
     (∀ comb, poolOut v t comb fmt [] col = 0) ∧
     (keyPc (memKey (elemAddr t (row * extOf t 0 + col))) / 64 < 20 →
       poolOut v t 0 fmt [row] col = narrowTo fmt (fOf32 (wide t.fmt (elemRaw v t (row * extOf t 0 + col))))) ∧
     (∀ a b, f32IsNan a = true → poolStep 2 a b = a) ∧
     (∀ a b, f32IsNan a = false → f32IsNan b = true → poolStep 2 a b = b))

/-- A COL instruction whose block, operands and slots are in order is outstanding, and its collective waits in its turn or, when
fewer than 64 run and no older one waits, starts; CPERM sets DRAINING. Any malformed one faults at issue with the first event
that applies, and one whose granules or room is not there is held (R119 to R123, R134, R135, R343, R344, R350). Its member
list, scales and completion record are operands as well (assumption log 82, DEDUCED). -/
def Obligations.CollectivesIssue : Prop :=
  ∀ (n c kind : Nat) (f : BitVec 4) (o : BitVec 112) (i : Instr) (s : State),
    (kind, i) ∈ [(1, Instr.cgath n f o), (2, .crsc n f o), (3, .ca2a n f o), (4, .cperm n f o), (5, .cmcst n f o),
      (6, .cred n f o), (7, .cbar n f o), (8, .csend n f o), (9, .crecv n f o)] →
    StandsAt s n (mkWord 5 kind f o) c →
    let d := atIssue s n
    let k := coreOf d n
    let v := colFields k o
    let srcs := colSrcs d n kind v
    let dsts := colDsts d n kind v
    let cl := newColl d n c k.nextOp kind f v
    let mayStart := collMayStart s.dev cl = true ∧ ∀ e ∈ s.dev.ni.colls, e.phase = 0 → 16 ≤ e.kind
    let cs := colConds d s.mem n kind f o v
    (Clean cs → longReady k srcs dsts = true → InStore (ctxIn s n c) →
      (¬ mayStart → Does i s (fun t => Outstanding s t n c (mkWord 5 kind f o) srcs dsts ∧ t.mem = s.mem ∧
        t.dev.ni.colls = s.dev.ni.colls ++ [cl] ∧ SameRegsBut s t [0x110000C] ∧
        draining t.dev = (draining s.dev || kind == 4) ∧ epochNow t.dev = epochNow s.dev)) ∧
      (mayStart → Does i s (fun t => ∃ w, w.mem = s.mem ∧ w.ops = [] ∧ w.dev.ni.colls = s.dev.ni.colls ++ [cl] ∧
        draining w.dev = (draining s.dev || kind == 4) ∧
        (∃ op, (coreOf w.dev n).ops = k.ops ++ [op] ∧ op.id = k.nextOp ∧ op.ctx = c ∧ op.word = mkWord 5 kind f o ∧
          op.srcs = srcs ∧ op.dsts = dsts) ∧
        t.dev = goOn (collBegin w cl).dev n c ∧ t.mem = memApplyAll s.mem (collBegin w cl).ops))) ∧
    (∀ ev, firstFault cs = some ev → Does i s (fun t => TakesFault s t n c (mkWord 5 kind f o) ev)) ∧
    (Clean cs → longReady k srcs dsts = false → Does i s (fun t => StaysHeld s t n c))

/-- The events of collectives: the oldest that waits starts in its turn, and ends with BAD_GROUP when its list names a member
twice; one with nothing left to wait for writes its record, ends for its core and completes its instruction; TIMEOUT_US fails
what is missing with TIMEOUT; and a draining device with nothing left of its old epoch takes the next one (R77, R344 to R346,
R350, R358). -/
def Obligations.CollectivesStartAndEnd : Prop :=
  ∀ (s : State) (cl : Coll),
    (s.dev.ni.colls.find? (fun e => e.phase == 0 && decide (e.kind < 16)) = some cl →
      (collMayStart s.dev cl = false → Does .collectiveDequeue s (fun t => Unchanged s t)) ∧
      (collMayStart s.dev cl = true → Does .collectiveDequeue s (fun t =>
        t.dev = (collBegin (workOf s) cl).dev ∧ t.mem = memApplyAll s.mem (collBegin (workOf s) cl).ops ∧
        (cl.kind < 8 → collFind s.dev cl.num = some cl → hasTwice (readGroup s.mem (dword cl.block 1 0 42) cl.size) = true →
          t.mem = s.mem ∧ ∃ e, collFind t.dev cl.num = some e ∧ e.phase = 1 ∧ e.status = max cl.status 11)))) ∧
    (collFind s.dev cl.num = some cl → cl.phase = 1 → cl.kind < 16 →
      (collDone cl = true → permHeld s.dev cl = false → Does (.collectiveComplete cl.num) s (fun t => ∃ w, SettlesTo s t w ∧
        (let w0 := freeLost (workOf s) cl
         w.ops = w0.ops ++ (if cl.kind = 8 ∨ cl.kind = 9 then [] else
           (writeAt w0.dev w0.mem (dword cl.block 0 0 42) (collRecord w0.dev cl)).1)) ∧
        (lostParts cl = [] → freeLost (workOf s) cl = workOf s) ∧
        (∃ e, collFind w.dev cl.num = some e ∧ e.phase = 2) ∧
        ∀ p ∈ (coreOf w.dev cl.core).ops, p.id ≠ cl.op)) ∧
      (collDone cl = false → dword cl.block 5 32 32 ≠ 0 → cl.issuedAt + 1000 * dword cl.block 5 32 32 ≤ s.dev.boot.aonNs →
        (∀ r ∈ ranksMissing cl, r < cl.size) →
        Does (.collectiveTimeout cl.num) s (fun t => t.mem = s.mem ∧ SameCores s t ∧
          ∃ e, collFind t.dev cl.num = some e ∧ 5 ≤ e.status ∧ e.halted = true ∧
            ∀ r ∈ ranksMissing cl, r ∈ e.bad))) ∧
    (draining s.dev = true → commitState s.dev = 0 →
      (∀ q ∈ allSlots s.dev, bktState s.dev q = 0 ∨ bktState s.dev q = 1 ∧ bktGet s.dev q 16 24 = 0) →
      (∀ c ∈ s.dev.ni.colls, (c.kind = 2 → c.phase = 2 ∧ ∀ r ∈ allRanks c, r ∈ c.got) ∧
        (c.phase = 2 ∨ isMessage c.kind = true ∨ 16 ≤ c.kind ∨ epochOld s.dev c.epoch = false)) →
      Does .epochAdvance s (fun t => ∃ w, SettlesTo s t w ∧ w.ops = [] ∧ draining w.dev = false ∧
        epochNow w.dev = (epochNow s.dev + 1) % 2 ^ 16)) ∧
    (draining s.dev = false → Does .epochAdvance s (fun t => Unchanged s t))

/-- A packet at ejection whose end-to-end check fails is discarded, counted and recorded; nothing else of it takes effect
(R290). A packet under a token: one of no resident stream, or on a closed binding, is counted stale, a duplicate is
counted and answered with the latest GRANT, one beyond LIMIT or outside its part flags the stream, and any other does its
part of its collective and its token is used up, so that the same SEQ would be a duplicate from then on (R323, R328, R332,
R334). -/
def Obligations.PacketsAndTokens : Prop :=
  (∀ (p : Packet) (errs : List MemErr) (i : Instr) (s : State), p ∉ s.dev.ni.ejected → packetCheck p ≠ p.check →
     (p.typ, subOf p, i) ∈ [(1, 0, Instr.data p), (2, 0, .landing p), (2, 1, .share p), (2, 2, .gatherReq p), (2, 3, .permOffer p),
       (2, 4, .adopt p), (2, 5, .partialUp p), (2, 6, .resultDown p), (2, 7, .barArrive p), (2, 8, .barRelease p),
       (2, 9, .subtreeDone p), (6, 0, .grant ⟨p, errs⟩), (6, 1, .grantReturn p), (3, 0, .lsRead p errs), (4, 0, .lsWrite ⟨p, errs⟩),
       (9, 0, .signal p), (5, 0, .lsReplyData p), (5, 1, .writeAck p), (5, 2, .signalAck p), (5, 3, .dataPoison p),
       (5, 4, .lsReplyFault p), (7, 0, .noticePrune p), (7, 1, .noticeVersionGone p), (7, 2, .noticeEpochStale p),
       (7, 3, .noticePermConflict p), (7, 4, .noticeFlagged p), (7, 5, .noticeClosed p)] →
     routerOn s.dev = true →
     Does i s (fun t => t.mem = s.mem ∧ t.dev.cores = s.dev.cores ∧ t.dev.ni.streams = s.dev.ni.streams ∧
       t.dev.ni.colls = s.dev.ni.colls ∧ t.dev.ni.board = s.dev.ni.board ∧ t.dev.ni.ejected = s.dev.ni.ejected ∧
       Counts s.dev t.dev 0x100004C)) ∧
  (∀ (p : Packet) (i : Instr) (s : State) (e : Dev),
     (p.typ, subOf p, i) ∈ [(1, 0, Instr.data p), (2, 0, .landing p), (2, 1, .share p), (2, 5, .partialUp p),
       (2, 6, .resultDown p), (2, 7, .barArrive p), (2, 8, .barRelease p), (2, 9, .subtreeDone p)] →
     (Taken s p p.typ (subOf p) e → slotPeer e p.dctx ≠ some p.src →
       Does i s (fun t => t.mem = s.mem ∧ t.dev = regBump e 0x1100020 1)) ∧
     (OnItsStream s p p.typ (subOf p) e →
     let b := p.offset / 2 ^ 38 % 16
     let off := p.offset % 2 ^ 38
     let x := rxOf e p.src b
     let again := seqNewer p.seq x.low = true ∨ p.seq ∈ x.seen
     let beyond := seqDist x.low x.limit ≤ seqDist x.low p.seq
     (x.closed = true → Does i s (fun t => t.mem = s.mem ∧ t.dev = regBump e 0x1100020 1)) ∧
     (x.closed = false → again → drainOver e p.src = false → Does i s (fun t => t.mem = s.mem ∧ t.dev.ni.colls = e.ni.colls ∧ Counts e t.dev 0x1100024 ∧
       Sends e t.dev 6 0 p.src)) ∧
     (x.closed = false → ¬ again → beyond → Does i s (fun t => t.mem = s.mem ∧ Counts e t.dev 0x1100028 ∧
       (streamOf t.dev p.src).flagged = true)) ∧
     (x.closed = false → ¬ again → ¬ beyond → ∀ n c, x.coll = some n → collFind e n = some c → x.rank ∈ rxWants c →
       (takePart ⟨e, s.mem, []⟩ c p.src b x.rank off p = none → Does i s (fun t => t.mem = s.mem ∧ Counts e t.dev 0x1100028 ∧
         (streamOf t.dev p.src).flagged = true)) ∧
       (∀ w1, takePart ⟨e, s.mem, []⟩ c p.src b x.rank off p = some w1 → (rxOf w1.dev p.src b).seen.length < 1024 →
         Does i s (fun t => ∃ w, SettlesTo s t w ∧ w.ops = w1.ops ∧
           (let y := rxOf w.dev p.src b
            seqNewer p.seq y.low = true ∨ p.seq ∈ y.seen))))))

/-- Requests and grants: a request of an older epoch is answered with EPOCH_STALE; an owner keeps up to four gather requests
of a stream and answers one for a released or different shard at once; an offer waits for its collective, or is refused once that
has ended; an adopted node takes
its adopter; a GRANT raises what the sender may send, and a RETURN takes tokens back (R326, R330, R340, R348, R350, R351,
R353). -/
def Obligations.RequestsAndGrants : Prop :=
  ∀ (p : Packet) (s : State) (e : Dev),
    (OnItsStream s p 2 2 e →
      let q : GatherReq := ⟨p.src, p.seq % 2 ^ 16, payNat p 0 2, payNat p 2 4, payNat p 6 4, payNat p 10 1, payNat p 11 1 % 16⟩
      (epochOld e p.epoch = true → Does (.gatherReq p) s (fun t => t.mem = s.mem ∧ Sends e t.dev 7 2 p.src)) ∧
      (epochOld e p.epoch = false → (streamOf e p.src).reqs.length < 4 → q ∉ (streamOf e p.src).reqs →
        (∀ x ∈ (streamOf e p.src).tx, x.2.use ≠ 2) →
        match gatherJudge e q.tensor q.version q.count q.fmt with
        | .gone => Does (.gatherReq p) s (fun t => t.mem = s.mem ∧ Sends e t.dev 7 1 p.src)
        | .mismatch => Does (.gatherReq p) s (fun t => t.mem = s.mem ∧ Sends e t.dev 7 4 p.src)
        | _ => Does (.gatherReq p) s (fun t => ∃ w, SettlesTo s t w ∧ w.ops = [] ∧
            (streamOf w.dev p.src).reqs = (streamOf e p.src).reqs ++ [q]))) ∧
    (OnItsStream s p 2 3 e →
      (epochOld e p.epoch = true → Does (.permOffer p) s (fun t => t.mem = s.mem ∧ Sends e t.dev 7 2 p.src)) ∧
      (epochOld e p.epoch = false → permOver e p = true →
        Does (.permOffer p) s (fun t => t.mem = s.mem ∧ Sends e t.dev 7 3 p.src)) ∧
      (epochOld e p.epoch = false → permOver e p = false → Does (.permOffer p) s (fun t => ∃ w, SettlesTo s t w ∧ w.ops = [] ∧
        w.dev.ni.ejected = e.ni.ejected ++ [p] ∧ w.dev.ni.colls = e.ni.colls))) ∧
    (OnItsStream s p 2 4 e → ∀ c,
      e.ni.colls.find? (fun c => c.kind == 5 && c.phase != 0 && c.id == p.seq && c.epoch == p.epoch) = some c →
      collFind e c.num = some c →
      let r := payNat p 2 2
      r < c.size → rankNode c r = p.src → r ≠ c.parent → isRoot c = false → c.root = payNat p 0 2 →
      Does (.adopt p) s (fun t => ∃ w, SettlesTo s t w ∧ w.ops = [] ∧
        ∃ y, collFind w.dev c.num = some y ∧ y.parent = r ∧ c.rank ∉ y.got ∧ r ∉ y.sent)) ∧
    (OnItsStream s p 6 0 e → p.len = 24 →
      let b := payNat p 0 1 % 16
      let flags := payNat p 1 1
      let lim := payNat p 8 4
      let ack := payNat p 12 4
      let x := txOf e p.src b
      x.use = 0 → x.open_ = false → natBit flags 2 = false → natBit flags 0 = true →
      seqNewer x.limit lim = true ∨ seqNewer x.ack ack = true →
      Does (.grant ⟨p, []⟩) s (fun t => ∃ w, SettlesTo s t w ∧ w.ops = [] ∧
        (let y := txOf w.dev p.src b
         y.open_ = true ∧ y.next = ack ∧ y.ack = ack ∧ y.limit = lim ∧ y.gColl = payNat p 2 2 ∧ y.gEpoch = payNat p 4 2 ∧
           y.gFmt = payNat p 6 1 ∧ y.gCount = payNat p 16 4))) ∧
    (OnItsStream s p 6 1 e →
      let b := payNat p 0 1 % 16
      let lim := seqAdd (payNat p 8 4) 1
      let x := rxOf e p.src b
      ∀ n, x.coll = some n → seqDist x.low lim ≤ seqDist x.low x.limit →
      (∀ q ∈ x.seen, seqDist x.low q < seqDist x.low lim) →
      Does (.grantReturn p) s (fun t => ∃ w, SettlesTo s t w ∧ w.ops = [] ∧ (rxOf w.dev p.src b).limit = lim ∧
        (rxOf w.dev p.src b).returned = true))

/-- Notices end the part they speak of with its status, and a pruned child's children are taken over; the timers of streams send
a lost packet or a grant again once it is due; a swap window, once in each grid beat and within min(1 µs, BEAT_LEN / 4) of its
start, changes which streams are resident (R271, R308, R321, R322,
R326, R327, R331 to R333, R348, R350, R351, R353, R358). -/
def Obligations.NoticesAndTimers : Prop :=
  ∀ (p : Packet) (s : State) (e : Dev),
    (∀ d c r, Taken s p 7 0 d → prunedColl d (payNat p 0 2) (payNat p 2 2) = some (c, r) → collFind d c.num = some c →
      r ∉ c.pruned → Does (.noticePrune p) s (fun t => ∃ w, SettlesTo s t w ∧ w.ops = [] ∧ Counts d w.dev 0x110003C ∧
        ∃ y, collFind w.dev c.num = some y ∧ r ∈ y.pruned ∧ r ∈ y.bad ∧ 1 ≤ y.status ∧
          y.kids = c.kids.filter (fun g => g != r) ++ (treeKids c r).filter (fun g => !c.kids.contains g))) ∧
    (∀ c r sub code ok i, (sub, code, ok, i) ∈ [(1, 3, [1], Instr.noticeVersionGone p), (2, 4, [1, 4], .noticeEpochStale p),
        (3, 10, [4], .noticePermConflict p), (4, 12, [1], .noticeFlagged p), (5, 5, [], .noticeClosed p)] →
      OnItsStream s p 7 sub e → noticeOf e p = some (c, r) → collFind e c.num = some c → c.kind ∈ ok ∨ sub = 5 →
      r < c.size → (c.kind = 4 → r = c.root) →
      Does i s (fun t => ∃ w, SettlesTo s t w ∧ w.ops = [] ∧
        ∃ y, collFind w.dev c.num = some y ∧ code ≤ y.status ∧ r ∈ y.bad)) ∧
    (∀ peer b seq, let x := txOf s.dev peer b
      x.use ≠ 0 → seqDist x.ack seq < seqDist x.ack x.next → smapGet x.retries seq 0 < retryLimit s.dev →
      smapGet x.times seq 0 + e2eTimeoutNs s.dev ≤ s.dev.boot.aonNs →
      ∀ y, txWire (workOf s) x (seqDist x.base seq) = some y →
      Does (.e2eRetransmit false peer b ⟨seq, []⟩) s (fun t => ∃ w, SettlesTo s t w ∧ w.ops = [] ∧ Counts s.dev w.dev 0x110002C ∧
        smapGet (txOf w.dev peer b).retries seq 0 = smapGet x.retries seq 0 + 1 ∧
        ∃ z ∈ w.dev.ni.inject, z.2.seq = seq ∧ z.2.dst = peer ∧ z.2.typ = y.typ ∧ z.2.payload = padTo 256 y.payload)) ∧
    (∀ slot b seq r, s.dev.ni.board.find? (fun r => r.slot == slot && r.seq == seq && r.sent) = some r →
      r.retries < retryLimit s.dev → r.sentAt + e2eTimeoutNs s.dev ≤ s.dev.boot.aonNs →
      Does (.e2eRetransmit true slot b ⟨seq, []⟩) s (fun t => t.mem = s.mem ∧ Counts s.dev t.dev 0x110002C ∧
        { r with retries := r.retries + 1, sentAt := s.dev.boot.aonNs } ∈ t.dev.ni.board ∧
        ∃ z ∈ t.dev.ni.inject, z.2.seq = r.seq ∧ z.2.dst = slotNode s.dev slot)) ∧
    (∀ peer b, 0 < rxOut (rxOf s.dev peer b) → (rxOf s.dev peer b).lastAt + 250000 ≤ s.dev.boot.aonNs →
      drainOver s.dev peer = false →
      Does (.grantResend peer b) s (fun t => t.mem = s.mem ∧ Sends s.dev t.dev 6 0 peer)) ∧
    (∀ peer b, b < 16 → 0 < (rxOf s.dev peer b).unacked → drainOver s.dev peer = false →
      Does (.ackGrantSend peer) s (fun t => t.mem = s.mem ∧ (∀ g, g < 16 → (rxOf t.dev peer g).unacked = 0) ∧
        ∃ l, l ≠ [] ∧ t.dev.ni.inject = s.dev.ni.inject ++ l ∧ ∀ z ∈ l, z.2.typ = 6 ∧ z.2.sub = 0 ∧ z.2.dst = peer)) ∧
    (let g := gridStart s.dev
     let inside := g ≤ gtimeNs s.dev ∧ 4 * (gtimeNs s.dev - g) < min 4000 (beatLen s.dev)
     (s.dev.tm.window ≠ g + 1 → inside →
       Does .swapWindow s (fun t => ∃ w, SettlesTo s t w ∧ w.ops = [] ∧ w.dev.tm.window = g + 1)) ∧
     (s.dev.tm.window = g + 1 ∨ ¬ inside → Does .swapWindow s (fun t => Unchanged s t)))

/-- A board request is served at its target: a load answers its bytes, or zeros with POISON; a store is written, added or poisoned
once, and answered each time as it was the first time; a signal adds to the event counter; an access of an address that is not there,
of an absent core or of a band in the other view is answered with FAULT and its reason (R28, R103, R217, R336 to R338). How a store
says that it adds or poisons is the model's own (assumption log 14). -/
def Obligations.BoardRequestsAreServed : Prop :=
  ∀ (p : Packet) (s : State) (d : Dev), drainOver d p.src = false →
    let fails := fun (t : State) (r : Nat) => t.mem = s.mem ∧ t.dev.cores = d.cores ∧ boardSeen t.dev p = some r ∧
      Replies d t.dev p 4 (leBytes 8 (if r = 5 then 1 else r))
    let again := fun (t : State) (sub ans : Nat) => t.mem = s.mem ∧ t.dev.cores = d.cores ∧ Counts d t.dev 0x1100024 ∧
      if ans = 0 then Replies d t.dev p sub (leBytes 8 0) else Replies d t.dev p 4 (leBytes 8 (if ans = 5 then 1 else ans))
    (Taken s p 3 0 d →
      let len := payNat p 0 2
      (1 ≤ len → len ≤ 256 → accessReason d p.offset len = 0 → Does (.lsRead p []) s (fun t => t.mem = s.mem ∧
        (rangeBad d s.mem p.offset len = false → Replies d t.dev p 0 (readAt s.mem p.offset len)) ∧
        (rangeBad d s.mem p.offset len = true → Replies d t.dev p 3 (List.replicate len 0#8)))) ∧
      (∀ errs r, 1 ≤ len → len ≤ 256 → accessReason d p.offset len = r → r ≠ 0 → Does (.lsRead p errs) s (fun t =>
        t.mem = s.mem ∧ Replies d t.dev p 4 (leBytes 8 (if r = 5 then 1 else r))))) ∧
    (Taken s p 4 0 d →
      (∀ errs ans, boardSeen d p = some ans → Does (.lsWrite ⟨p, errs⟩) s (fun t => again t 1 ans)) ∧
      (boardSeen d p = none → ∀ errs r, accessReason d p.offset p.len = r → r ≠ 0 →
        Does (.lsWrite ⟨p, errs⟩) s (fun t => fails t r)) ∧
      (boardSeen d p = none → accessReason d p.offset p.len = 0 →
        let w := storeCells d s.mem ((p.payload.take p.len).zipIdx.map (fun b =>
          (memKey (p.offset + b.2), b.1, decide (p.epoch = 4))))
        (p.epoch = 0 ∨ p.epoch = 4 → Does (.lsWrite ⟨p, []⟩) s (fun t => t.mem = memApplyAll s.mem w.1 ∧
          SameRegs { s with dev := d } t ∧ t.dev.cores = d.cores ∧
          (w.2 = none → boardSeen t.dev p = some 0 ∧ Replies d t.dev p 1 (leBytes 8 0)) ∧
          (w.2 ≠ none → boardSeen t.dev p = some 4 ∧ Replies d t.dev p 4 (leBytes 8 4)))) ∧
        (1 ≤ p.epoch → p.epoch ≤ 3 → (accStores d s.mem p).fault = none → Does (.lsWrite ⟨p, []⟩) s (fun t =>
          t.mem = memApplyAll s.mem (accStores d s.mem p).ops ∧ boardSeen t.dev p = some 0 ∧
          ∃ z ∈ t.dev.ni.inject, z.2.typ = 5 ∧ z.2.sub = 1 ∧ z.2.dst = p.src ∧ z.2.seq = p.seq)))) ∧
    (Taken s p 9 0 d →
      let n := payNat p 0 2
      let k := payNat p 2 1 % 64
      (∀ ans, boardSeen d p = some ans → Does (.signal p) s (fun t => again t 2 ans)) ∧
      (boardSeen d p = none → corePresent d n = false → Does (.signal p) s (fun t => fails t 2)) ∧
      (boardSeen d p = none → corePresent d n = true → NoSwait d n → Does (.signal p) s (fun t =>
        t.mem = s.mem ∧ evGet t.dev n k = min (evGet d n k + payNat p 4 2) 0xFFFFFFFF ∧
        ∃ z ∈ t.dev.ni.inject, z.2.typ = 5 ∧ z.2.sub = 2 ∧ z.2.dst = p.src ∧ z.2.seq = p.seq)))

/-- A reply returns its request's credit and completes what waited for it: data lands for its long operation or answers a host
read, a poisoned reply is poison consumed, an acknowledgement counts toward its store, and a FAULT reply becomes a remote fault,
or poison consumed for reason 4, and Unsupported Request for a host read, recorded for a band in the other view; a reply nothing
waits for is counted (R25, R77, R241, R335, R336, R338, R503). -/
def Obligations.BoardRepliesComplete : Prop :=
  ∀ (p : Packet) (s : State) (d : Dev) (sub : Nat) (i : Instr),
    (sub, i) ∈ [(0, Instr.lsReplyData p), (1, .writeAck p), (2, .signalAck p), (3, .dataPoison p), (4, .lsReplyFault p)] →
    Taken s p 5 sub d →
    (boardFind d p = none → Does i s (fun t => t.mem = s.mem ∧ t.dev = regBump d 0x1100024 1)) ∧
    (∀ r, boardFind d p = some r →
      let e := boardRetire d r
      let bytes := p.payload.take r.len
      let op := fun (k : Core) => k.ops.find? (fun o => o.id == r.op)
      e.ni.board.length < d.ni.board.length ∧
      (∀ z, r.kind = 3 → d.host.peerReads.find? (fun q => q.num == r.op) = some z → 2 ≤ z.left →
        (sub = 0 ∨ sub = 3 ∨ sub = 4) → Does i s (fun t => t.mem = s.mem ∧ t.dev.out = e.out ∧
          ∃ y, t.dev.host.peerReads.find? (fun q => q.num == r.op) = some y ∧ y.left = z.left - 1 ∧
            y.refused = (if sub = 4 then some (payNat p 0 1) else z.refused) ∧ y.bad = (z.bad || sub == 3) ∧
            (sub = 0 → ∀ j, j < bytes.length → smapFind y.got (r.addr + j) = bytes[j]?))) ∧
      (∀ z, r.kind = 3 → d.host.peerReads.find? (fun q => q.num == r.op) = some z → z.left = 1 → z.lost = false → z.refused = none →
        let got := bytes.zipIdx.foldl (fun acc b => smapSet acc (r.addr + b.2) b.1) z.got
        (sub = 0 → z.bad = false → Does i s (fun t => t.mem = s.mem ∧ t.dev.out = e.out ++
          [.bar2 true false ((rangeFrom z.addr z.len).map (fun a => smapGet got a 0#8))])) ∧
        (sub = 3 ∨ sub = 0 ∧ z.bad = true → Does i s (fun t => t.mem = s.mem ∧ t.dev.out = e.out ++
          [.bar2 true true (List.replicate z.len 0#8)])) ∧
        (sub = 4 → payNat p 0 1 ≠ 3 → Does i s (fun t => t.mem = s.mem ∧ t.dev.out = e.out ++ [.bar2 false false []])) ∧
        (sub = 4 → payNat p 0 1 = 3 → Does i s (fun t => t.mem = s.mem ∧ Records e t.dev 0x0522 0x05FF ∧
          ∃ o, t.dev.out = o ++ [.bar2 false false []]))) ∧
      (sub = 1 → r.kind = 4 → bar2Busy e = true ∨ e.host.reads = [] → Does i s (fun t => t.mem = s.mem ∧ t.dev = e)) ∧
      (sub = 2 → Does i s (fun t => t.mem = s.mem ∧ t.dev = e)) ∧
      (∀ o, op (coreOf d r.core) = some o → 2 ≤ o.awaiting →
        (sub = 0 → r.kind = 0 → Does i s (fun t => t.mem = s.mem ∧ ∃ q, op (coreOf t.dev r.core) = some q ∧
          q.awaiting = o.awaiting - 1 ∧ ∀ j, j < bytes.length → smapFind q.buf (r.addr + j) = bytes[j]?)) ∧
        (sub = 3 → r.kind = 0 → Does i s (fun t => t.mem = s.mem ∧ ∃ q, op (coreOf t.dev r.core) = some q ∧
          q.awaiting = o.awaiting - 1 ∧ q.bufPoison = o.bufPoison ++ rangeFrom r.addr r.len)) ∧
        (sub = 1 → r.kind = 1 → Does i s (fun t => t.mem = s.mem ∧ ∃ q, op (coreOf t.dev r.core) = some q ∧
          q.awaiting = o.awaiting - 1)) ∧
        (sub = 4 → r.kind ≤ 1 → o.fault = none → Does i s (fun t => t.mem = s.mem ∧ ∃ q, op (coreOf t.dev r.core) = some q ∧
          q.awaiting = o.awaiting - 1 ∧ q.fault = some (if payNat p 0 1 = 4 then ⟨0x0642, 0, wordDetail r.word⟩
            else ⟨0x0B58, 2, wordDetail r.word ++ leBytes 1 (payNat p 0 1)⟩)))))

/-- The host's BAR2 window reads and writes this device's own memory: a read answers its bytes, zeros where they are poisoned, and
Unsupported Request where nothing is mapped or the view does not own
the band, which is recorded; a read of a board peer asks for each 256-byte line of it (R335), which the fence may refuse (R306); a write of a host that owns the device is stored, any other is dropped and counted;
in P2 and P3 an access waits for the exit it causes (R25, R239, R442, R499, R503, R504, R542). -/
def Obligations.BoardWindow : Prop :=
  ∀ (o len : Nat) (bs : List Byte) (s : State),
    let d := s.dev
    let a := bar2Addr d o
    let x := a % 2 ^ 42
    (hostTakes d = 0 → a / 2 ^ 42 = ownSlot d →
      (bar2Busy d = false → d.host.reads = [] →
        (accessReason d x len ∉ [0, 3] → Does (.bar2Read o len []) s (fun t => Becomes s t (emit d (.bar2 false false [])))) ∧
        (accessReason d x len = 3 → Does (.bar2Read o len []) s (fun t =>
          Becomes s t (emit (postRecord d (recOf 0x0522 2 0xFF [])) (.bar2 false false [])))) ∧
        (accessReason d x len = 0 → rangeBad d s.mem x len = true →
          Does (.bar2Read o len []) s (fun t => Becomes s t (emit d (.bar2 true true (List.replicate len 0#8))))) ∧
        (accessReason d x len = 0 → rangeBad d s.mem x len = false →
          Does (.bar2Read o len []) s (fun t => Becomes s t (emit d (.bar2 true false (readAt s.mem x len)))))) ∧
      (bar2Busy d = true ∨ d.host.reads ≠ [] →
        Does (.bar2Read o len []) s (fun t => Becomes s t { d with host := { d.host with reads := d.host.reads ++ [(a, len, [])] } })) ∧
      (isOwner d 1 = true → bs ≠ [] → accessReason d x bs.length = 0 →
        Does (.bar2Write o bs) s (fun t => t.dev = d ∧ t.mem = memApplyAll s.mem (writeAt d s.mem x bs).1)) ∧
      (isOwner d 1 = true → bs ≠ [] → accessReason d x bs.length ∉ [0, 3] →
        Does (.bar2Write o bs) s (fun t => Becomes s t (emit d (.bar2 false false [])))) ∧
      (isOwner d 1 = true → bs ≠ [] → accessReason d x bs.length = 3 →
        Does (.bar2Write o bs) s (fun t =>
          Becomes s t (emit (postRecord d (recOf 0x0522 2 0xFF [])) (.bar2 false false []))))) ∧
    (hostTakes d = 0 → bar2Busy d = false → d.host.reads = [] → a / 2 ^ 42 ≠ ownSlot d →
      let slot := a / 2 ^ 42
      let ends := fun (t : State) => t.mem = s.mem ∧ t.dev.out = d.out ++ [.bar2 false false []] ∧
        t.dev.ni.board = d.ni.board ∧ t.dev.host.peerReads = d.host.peerReads
      let lines := lineRuns (rangeFrom x len) none
      (peerPart d slot = 0 → Does (.bar2Read o len []) s ends) ∧
      (peerPart d slot ≠ 0 → spanRegion (peerPart d slot) x (x + (len - 1)) = .unmapped → Does (.bar2Read o len []) s ends) ∧
      (peerPart d slot ≠ 0 → spanRegion (peerPart d slot) x (x + (len - 1)) = .spread → 1 ≤ len →
        (isMember d (slotNode d slot) = false → Does (.bar2Read o len []) s (fun t => ends t ∧ Counts d t.dev 0x100005C)) ∧
        (isMember d (slotNode d slot) = true → Does (.bar2Read o len []) s (fun t => t.mem = s.mem ∧ t.dev.out = d.out ∧
          (∃ rs, t.dev.ni.board = d.ni.board ++ rs ∧ rs.map (fun r => (r.slot, r.kind, r.addr, r.len, r.op)) =
            lines.map (fun q => (slot, 3, q.1, q.2, d.host.nextRead))) ∧
          t.dev.host.peerReads = d.host.peerReads ++ [⟨d.host.nextRead, x, len, lines.length, [], false, none, false⟩])))) ∧
    (hostTakes d = 0 → isOwner d 1 = false → Does (.bar2Write o bs) s (fun t =>
      OnlyRegs s t [0x100080, 0x100084, 0x100098] ∧ Counts d t.dev 0x100080 ∧ Counts d t.dev 0x100084)) ∧
    (hostTakes d = 1 → d.pwr.exiting = true → d.pwr.entering = false →
      Does (.bar2Read o len []) s (fun t => Becomes s t { d with host := { d.host with later := d.host.later ++ [⟨true, o, len, none, []⟩] } }) ∧
      Does (.bar2Write o bs) s (fun t =>
        Becomes s t { d with host := { d.host with later := d.host.later ++ [⟨true, o, bs.length, some bs, []⟩] } }))

/-- A host command is fetched from the head of its queue and runs: a reserved one, and one whose first failing check names a
status, completes with that status and has no other effect; NOP, and FENCE with nothing before it, complete; PROG_LOAD fills the
instruction store of each core named; CORE_START starts each context of CTXMASK at its index; CORE_STOP ends their issue;
EVENT_ADD adds to the counter (R69, R444, R473, R511 to R515, R586). -/
def Obligations.HostCommandsRun : Prop :=
  ∀ (q : Nat) (cmd : List Byte) (s : State), queueFetches s.dev q = true →
    let b := padTo 64 cmd
    let d := regPutField s.dev (qOff q + 0x1C) 0 16 ((regField s.dev (qOff q + 0x1C) 0 16 + 1) % sqSize s.dev q)
    let st := cmdStatus d s.mem b
    let entry := fun (a : Dev) => pushCq a q (cmdEntry (cmdCid b) st (cmdCore b) (cmdIrq b))
    let i := match cmdOp b with
      | 0 => Instr.cmdNop q cmd | 1 => .progLoad q cmd | 2 => .coreStart q cmd | 3 => .coreStop q cmd
      | 4 => .eventAdd q cmd | 5 => .cmdFence q cmd | _ => .badCommand q cmd
    (5 < cmdOp b → st = 5) ∧
    (st ≠ 0 → st ≠ 3 → Does i s (fun t => Becomes s t (entry d))) ∧
    (st = 3 → Does i s (fun t => Becomes s t (entry { d with boot := { d.boot with reduced := false } }))) ∧
    (st = 0 → cmdOp b = 0 ∨ cmdOp b = 5 ∧ (∀ r ∈ d.host.running, r.q ≠ q) → Does i s (fun t => Becomes s t (entry d))) ∧
    (st = 0 → cmdOp b = 5 → (∃ r ∈ d.host.running, r.q = q) → Does i s (fun t => Becomes s t { d with
      host := { d.host with running := d.host.running ++ [⟨q, 5, cmdCid b, cmdIrq b, cmdCore b, cmdMask b⟩] } })) ∧
    (st = 0 → cmdOp b = 1 → Does i s (fun t => t.mem = s.mem ∧
      (∀ n, n ∉ cmdCores d b → coreOf t.dev n = coreOf s.dev n) ∧
      ∀ n ∈ cmdCores d b, coreOf t.dev n = { coreOf s.dev n with
        istore := imageStore s.mem (cmdAddr b) (cmdLen b), image := some (cmdAddr b, cmdLen b) })) ∧
    (st = 0 → cmdOp b = 2 → Does i s (fun t => t.mem = s.mem ∧ SameOtherCores s t (cmdCore b) ∧
      (coreOf t.dev (cmdCore b)).istore = (coreOf s.dev (cmdCore b)).istore ∧
      ((∃ c, c < 8 ∧ natBit (cmdMask b) c = true) → ∀ c, c < 8 → ctxIn t (cmdCore b) c =
        if natBit (cmdMask b) c then { ctxReset with pc := cmdPc b c, st := 1,
                                                     track := if natBit (cmdN b 1 1) 1 then some (q, cmdCid b) else none }
        else ctxIn s (cmdCore b) c))) ∧
    (st = 0 → cmdOp b = 3 → Does i s (fun t => t.mem = s.mem ∧ (∀ n, n ∉ cmdCores d b → coreOf t.dev n = coreOf s.dev n) ∧
      ∀ n ∈ cmdCores d b, ∀ c, c < 8 → natBit (cmdMask b) c = true → ctxLive (ctxIn s n c) = true →
        ctxRunnable (ctxIn t n c) = false)) ∧
    (st = 0 → cmdOp b = 4 → NoSwait s.dev (cmdCore b) → Does i s (fun t => t.mem = s.mem ∧
      evGet t.dev (cmdCore b) (cmdEvn b) = min (evGet s.dev (cmdCore b) (cmdEvn b) + cmdLen b) 0xFFFFFFFF))

/-- The host's queue registers: a doorbell at or beyond the ring is an error, enabling a queue starts its indices and phase
anew, and the ring heads take what is written; the host port's own resets and the loss of its link (R498, R505, R508, R510,
R511, R516, R542, R578). -/
def Obligations.HostPort : Prop :=
  ∀ (m q v : Nat) (s : State), q < 16 →
    let d := s.dev
    let o := qOff q
    (OwnerOn s m →
      Does (.sqTailDoorbell m q v) s (fun t => OnlyRegs s t [o + 0x18, o + 0x10] ∧ regField t.dev (o + 0x18) 0 16 = v % 65536 ∧
        (v % 65536 < sqSize d q → regGet t.dev (o + 0x10) = regGet d (o + 0x10)) ∧
        (sqSize d q ≤ v % 65536 → regBit t.dev (o + 0x10) 15 = true ∧ regField t.dev (o + 0x10) 16 8 = 2 ∧
          regField t.dev (o + 0x10) 0 15 = regField d (o + 0x10) 0 15)) ∧
      (natBit v 14 = false → Does (.qcfgEnableWrite m q v) s (fun t => OnlyRegs s t [o + 0x10] ∧
        regField t.dev (o + 0x10) 0 15 = v % 2 ^ 15 ∧ regField t.dev (o + 0x10) 15 9 = regField d (o + 0x10) 15 9)) ∧
      (natBit v 14 = true → regBit d (o + 0x10) 14 = false → smapGet d.host.held q [] = [] →
        Does (.qcfgEnableWrite m q v) s (fun t => t.mem = s.mem ∧ SameRegsBut s t [o + 0x10, o + 0x18, o + 0x1C, o + 0x20, o + 0x24] ∧
          (∀ k ∈ [0x18, 0x1C, 0x20, 0x24], regField t.dev (o + k) 0 16 = 0) ∧ smapGet t.dev.host.phase q false = true ∧
          regField t.dev (o + 0x10) 0 15 = v % 2 ^ 15 ∧ t.dev.cores = d.cores)) ∧
      (smapGet d.host.held q [] = [] → Does (.cqHeadWrite m q v) s (fun t => OnlyRegs s t [o + 0x20] ∧
        regField t.dev (o + 0x20) 0 16 = v % 65536)) ∧
      Does (.frHeadWrite m v) s (fun t => OnlyRegs s t [0x3E0000C] ∧
        regField t.dev 0x3E0000C 0 17 = v % 2 ^ 17 % ringSize d)) ∧
    Does .perstN s (fun t => t.mem = s.mem ∧ regGet t.dev (o + 0x18) = regReset (o + 0x18) ∧ t.dev.host.held = [] ∧
      t.dev.host.msixTable = [] ∧ isOwner t.dev 1 = false) ∧
    (isOwner d 1 = true ∨ d.own.st = 0 → Does .flr s (fun t => t.mem = s.mem ∧ regGet t.dev (o + 0x18) = regReset (o + 0x18) ∧
      t.dev.host.held = [] ∧ isOwner t.dev 1 = false)) ∧
    (isOwner d 1 = false → d.own.st ≠ 0 → Does .flr s (fun t => Becomes s t (regBump d 0x100080 1))) ∧
    Does .hostLinkDown s (fun t => t.mem = s.mem ∧ t.dev.host.linkUp = false ∧ isOwner t.dev 1 = false ∧
      (d.own.owner ≠ 1 → t.dev.own = d.own)) ∧
    (d.pwr.wakeN = false → d.pwr.st = 0 → d.pwr.entering = false →
      Does .pcieL1Exit s (fun t => Becomes s t { d with host := { d.host with linkUp := true } })) ∧
    (d.pwr.wakeN = false → 2 ≤ d.pwr.st → d.pwr.entering = false → d.pwr.exiting = false → d.pwr.tripped = false →
      d.own.epo = false → Does .pcieL1Exit s (fun t => t.mem = s.mem ∧ t.dev.pwr.exiting = true ∧ t.dev.pwr.lastWake = 1 ∧
        t.dev.host.linkUp = true))

/-- A register write by the owner sets the RW bits of its word, clears the W1C bits where it writes 1, and leaves the others; a
write of another master is dropped and counted, whatever the register; NODE_ID takes its bits until it is locked; a read by the
owner answers the word and clears its RC bits, and a read of GTIME latches GTIME_FRAC (R6, R7, R10, R17, R30, R272, R499). -/
def Obligations.RegisterAccess : Prop :=
  ∀ (m v : Nat) (s : State),
    let d := s.dev
    (∀ off ∈ [0x9000, 0x9300, 0x100008, 0x2000018, 0x3000004, 0x3800008, 0x3E00004, 0x3E00008], ∀ r, regRow off = some r →
      OwnerOn s m → Does (.regWrite m off 4 v) s (fun t => OnlyRegs s t [off] ∧ ∀ i, i < 32 → regBit t.dev off i =
        (if natBit r.rw i then natBit v i else regBit d off i && !(natBit r.w1c i && natBit v i)))) ∧
    (∀ off, isOwner d m = false → Reaches s m → accessGood off 4 = true → exemptWrite d m off 4 v = none →
      Does (.regWrite m off 4 v) s (fun t => OnlyRegs s t [0x100080, 0x100084 + 4 * (m - 1), 0x100098] ∧
        Counts d t.dev 0x100080 ∧ Counts d t.dev (0x100084 + 4 * (m - 1)))) ∧
    (OwnerOn s m → natBit (regNat d 0x10) 31 = false → bootStage d ≠ 8 → Does (.nodeIdWrite m v) s (fun t =>
      OnlyRegs s t [0x10] ∧ ∀ i, i < 32 → regBit t.dev 0x10 i =
        if (3 ≤ i ∧ i < 16) ∨ i = 30 then natBit v i else regBit d 0x10 i)) ∧
    (natBit (regNat d 0x10) 31 = true → Reaches s m →
      Does (.nodeIdWrite m v) s (fun t => OnlyRegs s t [0x100080, 0x100084 + 4 * (m - 1), 0x100098])) ∧
    (∀ off r, OwnerOn s m → accessGood off 4 = true → regRow off = some r → off / 8 ≠ 0x40000 →
      ¬ (0x2000400 ≤ off ∧ off < 0x2000680) →
      Does (.rcFieldRead m off 4) s (fun t => t.mem = s.mem ∧ t.dev.out = d.out ++ [.regRead (peekWidth d s.mem off 4)] ∧
        SameRegsBut s t [off] ∧ t.dev.cores = d.cores ∧
        ∀ i, i < 32 → regBit t.dev off i = (regBit d off i && !natBit r.rc i))) ∧
    (∀ off w, Reaches s m → isOwner d m = false → accessGood off w = true → off / 8 ≠ 0x40000 →
      Does (.rcFieldRead m off w) s (fun t => Becomes s t (emit d (.regRead (peekWidth d s.mem off w))))) ∧
    (Reaches s m → Does (.gtimeRead m 8) s (fun t => t.mem = s.mem ∧ SameRegs s t ∧
      t.dev.out = d.out ++ [.regRead (gtimeNs d)] ∧ t.dev.tm = { d.tm with frac := d.tm.gt % 16 }))

/-- The owner's configuration writes: band views, with the bands that change view undefined; clip limits and counters; NUM_STATUS;
TIME_SET while FREE, and the root; the beat grid within its ranges while no context runs; program images and shard entries checked
before they are in force (R26, R58 to R61, R253, R258, R259, R265, R378, R382, R585). -/
def Obligations.ConfigurationWrites : Prop :=
  ∀ (m v : Nat) (s : State), OwnerOn s m →
    let d := s.dev
    (∀ i, i < 24 →
      let off := 0x2000100 + 4 * i
      let new := natBits v 0 (min 32 (partBands d.boot.part - 32 * i))
      Does (.bandViewWrite m i v) s (fun t => SameRegsBut s t [off] ∧ regNat t.dev off = new ∧ t.dev.cores = d.cores ∧
        ∀ k, (let b := k % 0x30000000 / 0x100000
              1280 * 0x30000000 ≤ k ∨ b / 32 ≠ i ∨ natBit (regNat d off) (b % 32) = natBit new (b % 32)) →
          memByte t.mem k = memByte s.mem k)) ∧
    (∀ n b, n < coresTotal d → n < 256 → b < 32 →
      Does (.clipLimitWrite m n v) s (fun t => OnlyRegs s t [coreOff n 0x300, coreOff n 0x304] ∧
        regNat t.dev (coreOff n 0x300) = v % 2 ^ 32 ∧ regBit t.dev (coreOff n 0x304) 0 =
          (regBit d (coreOff n 0x304) 0 || (List.range 32).any (fun j => decide (v % 2 ^ 32 < clipGet d n j)))) ∧
      Does (.clipcntWrite m n b v) s (fun t => OnlyRegs s t [coreOff n (0x380 + 4 * b), coreOff n 0x304] ∧
        clipGet t.dev n b = v % 2 ^ 32 ∧ regBit t.dev (coreOff n 0x304) 0 =
          (regBit d (coreOff n 0x304) 0 || decide (regNat d (coreOff n 0x300) < v % 2 ^ 32))) ∧
      Does (.numStatusClear m n v) s (fun t => OnlyRegs s t [coreOff n 0x304] ∧
        (∀ i, i < 4 → regBit t.dev (coreOff n 0x304) i = (regBit d (coreOff n 0x304) i && !natBit v i)) ∧
        (natBit v 0 = true → regField t.dev (coreOff n 0x304) 8 5 = 0))) ∧
    (d.tm.st = 0 → Does (.timeSetWrite m v) s (fun t => t.mem = s.mem ∧ SameRegsBut s t [0x200010, 0x200014] ∧
      t.dev.tm = { d.tm with gt := v % 2 ^ 64 * 16 } ∧ t.dev.cores = d.cores)) ∧
    (d.tm.st ≠ 0 → Does (.timeSetWrite m v) s (fun t => Unchanged s t)) ∧
    (natBit v 0 = true → (∀ o ∈ rootOffers d, ownNode d ≤ o.2.1) → Does (.rootEnableWrite m v) s (fun t => t.mem = s.mem ∧
      SameRegsBut s t [0x200020] ∧ rootEnable t.dev = true ∧ t.dev.tm.root = true ∧ t.dev.tm.st = 2 ∧ t.dev.tm.depth = 0 ∧
      t.dev.tm.rootNode = ownNode d ∧ t.dev.tm.parent = 63)) ∧
    (natBit v 0 = false → d.tm.root = true → rootOffers d = [] → Does (.rootEnableWrite m v) s (fun t => t.mem = s.mem ∧
      SameRegsBut s t [0x200020] ∧ rootEnable t.dev = false ∧ t.dev.tm.root = false ∧ t.dev.tm.st = 0)) ∧
    (anyLive d = false → Does (.beatCfgWrite m 0 v) s (fun t => KeepsCores s t ∧ SameRegsBut s t [0x200108, 0x20010C] ∧
      beatT0 t.dev = v % 2 ^ 64 ∧ { t.dev.tm with mismatch := d.tm.mismatch } = d.tm)) ∧
    (anyLive d = false → v < 2 ^ 32 →
      (beatRanges v (beatMin d) = true → Does (.beatCfgWrite m 1 v) s (fun t => KeepsCores s t ∧ SameRegsBut s t [0x200110] ∧ beatLen t.dev = v)) ∧
      (beatRanges (beatLen d) v = true → Does (.beatCfgWrite m 2 v) s (fun t => KeepsCores s t ∧ SameRegsBut s t [0x200114] ∧ beatMin t.dev = v)) ∧
      (beatRanges v (beatMin d) = false → Does (.beatCfgWrite m 1 v) s (fun t => t.mem = s.mem ∧ beatLen t.dev = beatLen d ∧
        regBit t.dev 0x200120 0 = true))) ∧
    (anyLive d = true → ∀ f, f < 4 → Does (.beatCfgWrite m f v) s (fun t => t.mem = s.mem ∧ beatT0 t.dev = beatT0 d ∧
      beatLen t.dev = beatLen d ∧ beatMin t.dev = beatMin d ∧ regBit t.dev 0x200120 0 = true)) ∧
    Does (.beatEnableWrite m v) s (fun t => t.mem = s.mem ∧ SameRegsBut s t [0x200100] ∧ beatEnable t.dev = natBit v 0 ∧
      ∀ n, n < coresTotal d → coreOf t.dev n = if (List.range 8).any (fun c => ctxLive (ctxIn s n c)) then coreOf d n
        else { coreOf d n with beat := { (coreOf d n).beat with enabled := natBit v 0 } }) ∧
    (v < 256 → anyLive d = true → (∃ e ∈ d.upd.shards, shKind e.2 ≠ 2 ∧ shProg e.2 = v) → Does (.progValidate m v) s (fun t =>
      t.mem = s.mem ∧ regField t.dev 0x1200068 0 8 = 8 ∧ t.dev.upd = d.upd)) ∧
    (v < 256 → (∀ e ∈ d.upd.shards, shKind e.2 = 2 ∨ shProg e.2 ≠ v) →
      (progCode (storeImage d v) = 0 → Does (.progValidate m v) s (fun t => t.mem = s.mem ∧ SameRegsBut s t [0x1200068] ∧
        regField t.dev 0x1200068 0 8 = 0 ∧ smapFind t.dev.upd.progs v = some (storeImage d v))) ∧
      (progCode (storeImage d v) ≠ 0 → Does (.progValidate m v) s (fun t => t.mem = s.mem ∧
        regField t.dev 0x1200068 0 8 = progCode (storeImage d v) % 256 ∧ smapFind t.dev.upd.progs v = none))) ∧
    (v < 4096 → shKind (shardNew (storeEntry d v)) ≠ 0 →
      let x := shardNew (storeEntry d v)
      (entryCode d v x = 0 → Does (.shardValidate m v) s (fun t => t.mem = s.mem ∧ regField t.dev 0x1200068 0 8 = 0 ∧
        smapFind t.dev.upd.shards v = some x)) ∧
      (entryCode d v x ≠ 0 → Does (.shardValidate m v) s (fun t => t.mem = s.mem ∧
        regField t.dev 0x1200068 0 8 = entryCode d v x % 256 ∧ t.dev.upd = d.upd)))

/-- CTX_STATUS.FLAGGED is cleared for the stream in its slot alone; pins change only while no stage context runs, else the write is
marked rejected; an acknowledged retirement calls its ledger entry, and any other number is counted; the oldest ledger entry called
for is appended; a verified factory command calls a REVOKE entry for each entry it names (R240, R244, R320, R334, R453, R455). -/
def Obligations.StreamAndLedgerWrites : Prop :=
  ∀ (m c v : Nat) (s : State),
    let d := s.dev
    (OwnerOn s m → c < 4096 →
      (∀ p, smapFind d.ni.slots c = some p → Does (.ctxFlaggedClear m c) s (fun t => ∃ w, SettlesTo s t w ∧ w.ops = [] ∧
        w.dev.cores = d.cores ∧ ∀ q, streamOf w.dev q = if q = p then { streamOf d p with flagged := false } else streamOf d q)) ∧
      (smapFind d.ni.slots c = none → Does (.ctxFlaggedClear m c) s (fun t => Unchanged s t))) ∧
    (OwnerOn s m → anyLive d = true → ∀ slot, Does (.pinCfgWrite m slot v) s (fun t =>
      Shows s t (regPutField d 0x1100010 20 1 1) ∧ Records d t.dev 0x0B56 0x0BFF)) ∧
    (OwnerOn s m → anyLive d = false → c < min 1024 (regField d 0x1100008 0 11) →
      pinsClash (plainWord d (0x1101000 + 4 * c) (v % 2 ^ 32)) = false →
      Does (.pinCfgWrite m (some c) v) s (fun t => ∃ w, SettlesTo s t w ∧ w.ops = [] ∧
        regField w.dev (0x1101000 + 4 * c) 0 17 = v % 2 ^ 17 ∧
        smapFind w.dev.ni.slots c = if natBit v 16 then some (v % 65536) else none)) ∧
    (OwnerOn s m → v < 2 ^ 32 →
      (∀ e, d.mm.pendingAck.find? (fun e => e.1 == v) = some e → Does (.retireAck m v) s (fun t => Becomes s t { d with
        mm := { d.mm with pendingAck := d.mm.pendingAck.erase e }
        boot := { d.boot with due := d.boot.due ++ [⟨2, 1, 0x0641, e.2.1 + 2 ^ 11 * e.2.2, 0, 0, true⟩] } })) ∧
      (v ∉ d.mm.pendingAck.map (fun e => e.1) → Does (.retireAck m v) s (fun t => OnlyRegs s t [0x2001008] ∧
        regField t.dev 0x2001008 16 16 = min 0xFFFF (regField d 0x2001008 16 16 + 1)))) ∧
    (∀ e l, d.boot.due = e :: l → d.boot.ledger.length < 8192 → Does .ledgerAppend s (fun t => Becomes s t { d with
      boot := { d.boot with
        due := l
        ledger := d.boot.ledger ++ [{ e with start := regNat d 0x804, opSeconds := d.boot.opSeconds }] } })) ∧
    (∀ e l, d.boot.due = e :: l → 8192 ≤ d.boot.ledger.length → Does .ledgerAppend s (fun t => t.mem = s.mem ∧
      t.dev.boot.ledger = d.boot.ledger ∧ t.dev.boot.due = l ∧ t.dev.boot.ledgerSaid = true ∧
      (d.boot.ledgerSaid = false → Records d t.dev 0x1010 0x10FF))) ∧
    (∀ revokes key, Does (.factoryCommand true revokes key) s (fun t => t.mem = s.mem ∧ SameRegs s t ∧
      t.dev.boot.due = d.boot.due ++ (revokes.filter (fun q => decide (q < d.boot.ledger.length))).map
        (fun q => ⟨0xF, 2, 0, q, 0, 0, true⟩) ∧
      (key = none → t.dev.own = d.own))) ∧
    (∀ revokes key, Does (.factoryCommand false revokes key) s (fun t => Unchanged s t))

/-- The burgee: RENEW refills the lease; RELEASE makes it VACANT; HANDOVER to another master makes it HANDING, with no owner, and
one that names the owner or no master is dropped and counted; a claim is verified in order, the first valid one wins a full lease
and a fresh nonce, and any other is rejected with its reason; a lease at 0 and a handover a second old end in VACANT (R493 to R497). -/
def Obligations.BurgeeChangesHands : Prop :=
  ∀ (m succ node : Nat) (s : State),
    let d := s.dev
    let o := d.own
    (OwnerOn s m →
      Does (.burgeeRenew m) s (fun t => Becomes s t { d with own := { o with leaseLeft := leaseMs d } }) ∧
      Does (.burgeeRelease m) s (fun t => Shows s t
        { d with own := { o with owner := 0, st := 0, successor := 0, succNode := 0, ownerNode := 0, leaseLeft := 0 } }) ∧
      (succ % 8 ≠ m → succ % 8 ≠ 0 → Does (.burgeeHandover m succ node) s (fun t => Shows s t { d with own := { o with
        owner := 0, st := 2, successor := succ % 8, succNode := if succ % 8 = 3 then node % 65536 else 0
        ownerNode := 0, leaseLeft := 0, handedAt := d.boot.aonNs } })) ∧
      (succ % 8 = m ∨ succ % 8 = 0 → Does (.burgeeHandover m succ node) s (fun t =>
        OnlyRegs s t [0x100080, 0x100084 + 4 * (m - 1), 0x100098] ∧ Counts d t.dev 0x100080))) ∧
    (Reaches s m → m ∉ o.verifying → Does (.claimGo m) s (fun t => Becomes s t { d with
      own := { o with verifying := o.verifying ++ [m], claims := smapSet o.claims m (1, 0) } })) ∧
    (Reaches s m → m ∈ o.verifying → Does (.claimGo m) s (fun t => Records d t.dev 0x0F13 0x0FFF ∧ Shows s t { d with
      own := { o with claims := smapSet o.claims m ((smapGet o.claims m (0, 0)).1, 11) } })) ∧
    (∀ l a b, o.verifying = m :: l →
      let r := claimReason d m a b
      (r = 0 → Does (.claimVerified a b) s (fun t => t.mem = s.mem ∧ t.dev.cores = d.cores ∧
        ∃ k n g, t.dev.own = { o with
          owner := m, st := 1, successor := 0, succNode := 0, ownerNode := if m = 3 then claimN d m 4 2 else 0
          leaseLeft := leaseMs d, nonce := Config.freeWord d.free, verifying := l, claims := smapSet o.claims m (2, 0)
          logCount := n, log := k, logAcc := g } ∧ n = o.logCount + 1)) ∧
      (r ≠ 0 → Does (.claimVerified a b) s (fun t => Records d t.dev 0x0F13 0x0FFF ∧ Shows s t { d with
        own := { o with verifying := l, claims := smapSet o.claims m (3, r) } }))) ∧
    (o.st = 1 → o.leaseLeft = 0 → d.pwr.st < 2 → Does .burgeeExpired s (fun t => Records d t.dev 0x0F11 0x0FFF ∧ Shows s t
      { d with own := { o with owner := 0, st := 0, successor := 0, succNode := 0, ownerNode := 0, leaseLeft := 0 } })) ∧
    (0 < o.leaseLeft → Does .burgeeExpired s (fun t => Unchanged s t)) ∧
    (o.st = 2 → o.handedAt + 1000000000 ≤ d.boot.aonNs → Does .handoverExpiry s (fun t => Records d t.dev 0x0F11 0x0FFF ∧ Shows s t
      { d with own := { o with owner := 0, st := 0, successor := 0, succNode := 0, ownerNode := 0, leaseLeft := 0 } })) ∧
    (d.boot.aonNs < o.handedAt + 1000000000 → Does .handoverExpiry s (fun t => Unchanged s t))

/-- Updates of firmware, keys and the variant record start once, and take effect only when their signature and their other checks
are good; FW_MIN_VERSION only rises, to what a slot holds; quotes are made in order, over the nonce and the log; the watchdog
counts from its latest kick, and its expiry starts the firmware again, or twice in a minute the device (R451, R519 to R526). -/
def Obligations.SecurityUpdates : Prop :=
  ∀ (m v : Nat) (ok : Bool) (s : State),
    let d := s.dev
    let o := d.own
    let pick := fun (i : Instr) (st : Nat) (upd : OwnState) => (st = 1 → Does i s (fun t => Unchanged s t)) ∧
      (st ≠ 1 → Does i s (fun t => Becomes s t { d with own := upd }))
    (OwnerOn s m → pick (.fwUpdateGo m) o.fwUpd { o with fwUpd := 1 } ∧ pick (.keyUpdateGo m) o.keyUpd { o with keyUpd := 1 } ∧
      pick (.variantUpdateGo m) o.varUpd { o with varUpd := 1 }) ∧
    (OwnerOn s m → v < 2 ^ 32 →
      (regNat d 0x3C00010 ≤ v → v ≤ max o.slotA.svn o.slotB.svn → Does (.fwMinVersionWrite m v) s (fun t =>
        OnlyRegs s t [0x3C00010] ∧ regNat t.dev 0x3C00010 = v)) ∧
      (v < regNat d 0x3C00010 ∨ max o.slotA.svn o.slotB.svn < v → Does (.fwMinVersionWrite m v) s (fun t => Unchanged s t))) ∧
    (o.fwUpd = 1 →
      let a := regNat64 d 0x3C00020 % 2 ^ 42
      let h := imageBytes d s.mem a 128
      ((ok && fwFits d s.mem a) = true → Does (.fwUpdateDone ok) s (fun t => t.mem = s.mem ∧ t.dev.own.fwUpd = 2 ∧
        t.dev.own.logCount = o.logCount + 1 ∧
        t.dev.own.slotA = (if updSlot d = 0 then ⟨imageN h 4 4, imageN h 8 4, true⟩ else o.slotA) ∧
        t.dev.own.slotB = if updSlot d = 0 then o.slotB else ⟨imageN h 4 4, imageN h 8 4, true⟩)) ∧
      ((ok && fwFits d s.mem a) = false → Does (.fwUpdateDone ok) s (fun t => Records d t.dev 0x0F31 0x0FFF ∧
        Shows s t { d with own := { o with fwUpd := 3 } }))) ∧
    (o.keyUpd = 1 →
      let b := imageBytes d s.mem (regNat64 d 0x3C00040 % 2 ^ 42) 11181
      ((ok && keyFits d b) = true → Does (.keyUpdateDone ok) s (fun t => t.mem = s.mem ∧ t.dev.own.keyUpd = 2 ∧
        t.dev.own.updSerial = imageN b 8 8 ∧ t.dev.own.slotA = o.slotA ∧ t.dev.own.slotB = o.slotB ∧
        (natBit (imageN b 2 2) 5 = true → regNat64 t.dev 0x3C00030 = max (regNat64 d 0x3C00030) (imageN b 32 8)))) ∧
      ((ok && keyFits d b) = false → Does (.keyUpdateDone ok) s (fun t => Records d t.dev 0x0F32 0x0FFF ∧
        Shows s t { d with own := { o with keyUpd := 3 } }))) ∧
    (o.varUpd = 1 →
      let b := imageBytes d s.mem (regNat64 d 0x3C00070 % 2 ^ 42) 3437
      let r := (b.getD []).take 128
      ((ok && b.isSome && variantFits d r) = true → Does (.variantUpdateDone ok) s (fun t => Shows s t { d with
        own := { o with varUpd := 2 }, boot := { d.boot with variant := r, variantGood := true } })) ∧
      ((ok && b.isSome && variantFits d r) = false → Does (.variantUpdateDone ok) s (fun t => Shows s t { d with
        own := { o with varUpd := 3 } }))) ∧
    (Reaches s m → m ∉ o.attestQueue → Does (.attestGo m) s (fun t => Becomes s t { d with
      own := { o with attestQueue := o.attestQueue ++ [m], attestSt := smapSet o.attestSt m 1 } })) ∧
    (∀ l sig, o.attestQueue = m :: l → Does (.quoteDone sig) s (fun t => t.mem = s.mem ∧ t.dev.own.attestQueue = l ∧
      t.dev.own.attestSt = smapSet o.attestSt m 2 ∧ attestBytes t.dev m 0x100 3501 = quoteBody d m ++ padTo 3309 sig)) ∧
    (firmwareRuns d = true →
      Does .watchdogKick s (fun t => Becomes s t { d with own := { o with kickAt := d.boot.aonNs } }) ∧
      (d.boot.aonNs < o.kickAt + 1000000000 → Does .watchdogRestart s (fun t => Unchanged s t)) ∧
      (o.kickAt + 1000000000 ≤ d.boot.aonNs →
        (o.lastExpiry = none → Does .watchdogRestart s (fun t => Records d t.dev 0x0F30 0x0FFF ∧ t.mem = s.mem ∧
          t.dev.cores = d.cores ∧ t.dev.own.owner = o.owner ∧ t.dev.own.kickAt = d.boot.aonNs ∧
          t.dev.own.lastExpiry = some d.boot.aonNs)) ∧
        (∀ x, o.lastExpiry = some x → d.boot.aonNs < x + 60000000000 → Does .watchdogRestart s (fun t =>
          t.dev.cores = [] ∧ t.dev.ni = niReset ∧ t.dev.own.owner = 0 ∧ t.dev.own.slotA = o.slotA ∧ t.dev.own.slotB = o.slotB ∧
          t.dev.boot.ledger = d.boot.ledger ∧ t.dev.pwr.cause = 3))))

/-- The commit: a device whose active shards are complete votes the largest abort code that applies; a good result of code 0 fixes
the commit beat, any other aborts; no vote is cast during a hold but an ABORT's; every active shard flips at the commit beat; a vote that fails or times out leaves the step
undecided until the owner forces it; the owner may abort a running step (R388 to R395, R588). -/
def Obligations.StepsCommitOrAbort : Prop :=
  ∀ (m v : Nat) (s : State),
    let d := s.dev
    let ok := groupGood d s.mem = true ∧ d.boot.linkDead = false
    (commitEnabled d = true → commitState d = 0 → d.upd.waiting = false → commitHold d = false → allComplete d = true → ok →
      Does .commitVote s (fun t => CastsVote s t ((voteCodes d).foldl max 0))) ∧
    (allComplete d = false ∨ commitEnabled d = false ∨ commitHold d = true ∨ commitState d ≠ 0 →
      Does .commitVote s (fun t => Unchanged s t)) ∧
    (∀ code rank g, commitState d = 1 → d.upd.result = some (code, rank, g) →
      (code = 0 → Does .commitResult s (fun t => commitState t.dev = 2 ∧ t.dev.cores = d.cores ∧
        regNat64 t.dev 0x1200040 = nearBeat d ((g + leadBeats d) % 2 ^ 32) % 2 ^ 64 ∧
        ∀ n x, shardOf d n = some x → ∃ y, shardOf t.dev n = some y ∧ y.cur = x.cur ∧ y.version = x.version)) ∧
      (code ≠ 0 → Does .commitResult s (fun t => Aborts s t code rank))) ∧
    (commitState d = 2 →
      let start := beatT0 d + regNat64 d 0x1200040 * beatLen d
      (gtimeNs d < start → Does .commitFlip s (fun t => Unchanged s t)) ∧
      (start ≤ gtimeNs d → Does .commitFlip s (fun t => Flips s t))) ∧
    (∀ e, commitState d = 1 → d.upd.result = none →
      e = true ∨ (∃ c ∈ d.ni.colls, c.kind = 16 ∧ c.phase = 1 ∧ c.status ≠ 0) →
      Does (.commitUndecided e) s (fun t => t.mem = s.mem ∧ commitState t.dev = 4 ∧ t.dev.cores = d.cores ∧ t.dev.upd = d.upd ∧
        Records d t.dev 0x0C53 0x0CFF)) ∧
    (OwnerOn s m →
      (commitState d = 0 → commitEnabled d = true → ok →
        Does (.commitAbort m) s (fun t => ∃ code, 7 ≤ code ∧ CastsVote s t code)) ∧
      (commitState d = 0 → commitEnabled d = true → d.boot.linkDead = false → groupGood d s.mem = false →
        Does (.commitAbort m) s (fun t => t.mem = s.mem ∧ t.dev.cores = d.cores ∧ t.dev.ni.colls = d.ni.colls ∧
          t.dev.upd = { d.upd with waiting := true, codes := keyInsert d.upd.codes 7 } ∧ commitState t.dev = 0 ∧
          Records d t.dev 0x0C54 0x0CFF)) ∧
      (commitState d ≠ 0 → Does (.commitAbort m) s (fun t => OnlyRegs s t [])) ∧
      (commitState d ≠ 4 → Does (.forceCommit m) s (fun t => OnlyRegs s t []) ∧ Does (.forceAbort m) s (fun t => OnlyRegs s t [])) ∧
      (commitState d = 4 →
        Does (.forceAbort m) s (fun t => Aborts s t 7 (groupField d 0 16)) ∧
        (allComplete d = true → Does (.forceCommit m) s (fun t => Flips s t)) ∧
        (allComplete d = false → Does (.forceCommit m) s (fun t => Shows s t d ∧ Records d t.dev 0x0C52 0x0CFF))) ∧
      (∀ addr, let off := if addr = true then 0x1200018 else 0x1200020
        let e := plainWord (plainWord d off (v % 2 ^ 32)) (off + 4) (v / 2 ^ 32 % 2 ^ 32)
        (d.upd.waiting = false ∨ commitState d ≠ 0 → Does (.commitGroupWrite m addr v) s (fun t =>
          OnlyRegs s t [off, off + 4] ∧ regNat t.dev off = v % 2 ^ 32)) ∧
        (d.upd.waiting = true → commitState d = 0 → d.boot.linkDead = false → groupGood e s.mem = true →
          (commitHold d = false ∨ 7 ∈ d.upd.codes → Does (.commitGroupWrite m addr v) s (fun t => ∃ code, CastsVote s t code)) ∧
          (commitHold d = true → 7 ∉ d.upd.codes → Does (.commitGroupWrite m addr v) s (fun t => KeepsCores s t ∧
            SameRegsBut s t [off, off + 4] ∧ t.dev.ni = d.ni ∧ t.dev.upd = { d.upd with waiting := false })))))

/-- Update engines: an idle engine takes the bucket at the head of the queue, and a bucket that cannot be read is poisoned and goes
on without its pass; a pass that ends moves its bucket on; when every bucket of a shard waits its statistics fold, across devices
where the program says so, and every bucket goes on; a lane that mismatches has the pass run again, and a second time, or a third
mismatch, retires the engine; a sparse shard whose lists have landed is updated once (R370 to R387, R396). -/
def Obligations.UpdateEnginesRun : Prop :=
  ∀ (e : Nat) (s : State),
    let d := s.dev
    (∀ slot rest, coresRun d = true → engineIdle d e = true → d.upd.queue = slot :: rest → slot < 4096 →
      Does (.updatePassStart e false []) s (fun t => t.mem = s.mem ∧ SameRegs s t ∧ t.dev.cores = d.cores ∧
        t.dev.upd.queue = rest ∧ smapFind t.dev.upd.running e = some slot ∧ smapGet t.dev.upd.image e [] = bktProg d slot ∧
        smapGet t.dev.upd.attempt e 0 = 1) ∧
      Does (.updatePassStart e true []) s (fun t => t.dev.cores = d.cores ∧ t.dev.upd.queue = rest ∧
        t.dev.upd.running = d.upd.running ∧ (bktPoison d slot = false → 3 ∈ t.dev.upd.codes) ∧
        if bktState d slot ≠ 4 ∧ pgFolds (bktProg d slot) = true then bktState t.dev slot = 3 ∧ bktPoison t.dev slot = true
        else bktState t.dev slot = 5 ∧ bktPoison t.dev slot = false)) ∧
    (∀ bad errs, engineIdle d e = false → Does (.updatePassStart e bad errs) s (fun t => Unchanged s t)) ∧
    (coresRun d = false → Does (.updatePassDone e) s (fun t => Unchanged s t) ∧
      ∀ bad errs, Does (.updatePassStart e bad errs) s (fun t => Unchanged s t) ∧
        Does (.foldAndExchange ⟨e, errs⟩) s (fun t => Unchanged s t) ∧ Does (.sparseUpdate ⟨e, errs⟩) s (fun t => Unchanged s t)) ∧
    (∀ slot, coresRun d = true → smapFind d.upd.running e = some slot → slot < 4096 →
      let b := smapGet d.upd.image e []
      Does (.updatePassDone e) s (fun t => t.dev.cores = d.cores ∧ smapFind t.dev.upd.running e = none ∧
        bktState t.dev slot = if bktState d slot = 4 then 5 else if pgFolds b then 3
          else if pgPass2 b ≠ 0 ∧ bktPoison d slot = false then 4 else 5)) ∧
    (∀ slot lane, smapFind d.upd.running e = some slot → e < 16 →
      let again := decide (lane ∈ smapGet d.upd.badLanes e []) || decide (3 ≤ smapGet d.upd.attempt e 1)
      (again = false → Does (.updResidueRetry e lane) s (fun t => t.mem = s.mem ∧ Counts d t.dev 0x120000C ∧
        Records d t.dev 0x0C40 (0x0C00 + e) ∧ t.dev.upd.running = d.upd.running ∧
        smapGet t.dev.upd.attempt e 1 = smapGet d.upd.attempt e 1 + 1)) ∧
      (again = true → Does (.updResidueRetry e lane) s (fun t => t.mem = s.mem ∧ Counts d t.dev 0x120000C ∧
        regField t.dev 0x1200000 e 1 = 0 ∧ smapFind t.dev.upd.running e = none ∧ Records d t.dev 0x0C41 (0x0C00 + e) ∧
        (t.dev.upd.queue = slot :: d.upd.queue ∨ ∃ g, g ≠ e ∧ smapFind t.dev.upd.running g = some slot)))) ∧
    (∀ n x, shardOf d n = some x →
      (coresRun d = true → foldDue d x = true → x.exch = none →
        let local_ := !(pgExchanges (progOf d (shProg x)) && decide (1 < shN x 168 4))
        (local_ = true → shFirst x + shBuckets x ≤ 4096 → Does (.foldAndExchange ⟨n, []⟩) s (fun t => t.dev.cores = d.cores ∧
          (∃ y, shardOf t.dev n = some y ∧ y.folded = true) ∧ ∀ q ∈ shSlots x, bktState t.dev q =
            if pgPass2 (progOf d (shProg x)) = 0 ∨ bktPoison d q = true then 5 else 4)) ∧
        (local_ = false → Does (.foldAndExchange ⟨n, []⟩) s (fun t => Begins s t (fun w c => c.kind = 17 ∧ c.count = shRowLen x + 1 ∧
          c.size = shN x 168 4 ∧ c.rank = shN x 172 2 ∧ ∃ y, shardOf w.dev n = some y ∧ y.exch = some c.num)))) ∧
      (∀ k c, coresRun d = true → foldDue d x = true → x.exch = some k → collFind d k = some c →
        (c.result = none → c.status = 0 → Does (.foldAndExchange ⟨n, []⟩) s (fun t => Unchanged s t)) ∧
        (c.result = none → c.status ≠ 0 → Does (.foldAndExchange ⟨n, []⟩) s (fun t => Becomes s t
          { d with upd := { d.upd with codes := keyInsert d.upd.codes 4 } })) ∧
        (∀ vec, c.result = some vec → Does (.foldAndExchange ⟨n, []⟩) s (fun t => ∃ w, SettlesTo s t w ∧
          ∃ y, shardOf w.dev n = some y ∧ y.folded = true ∧ y.exch = none))) ∧
      (foldDue d x = false → Does (.foldAndExchange ⟨n, []⟩) s (fun t => Unchanged s t)) ∧
      (coresRun d = true → shKind x = 3 → x.updated = false → x.landed % 4 = 3 → Does (.sparseUpdate ⟨n, []⟩) s (fun t => t.dev.cores = d.cores ∧
        ∃ y, shardOf t.dev n = some y ∧ y.updated = true ∧ y.cur = x.cur ∧ y.version = x.version)) ∧
      (shKind x ≠ 3 ∨ x.updated = true ∨ x.landed % 4 ≠ 3 → Does (.sparseUpdate ⟨n, []⟩) s (fun t => Unchanged s t)))

/-- At a core's boundary a beat that waits for nothing else ends, at the later of the boundary and the time since which it waits for nothing else; its SBEAT takes the next number, and its lag is what the beat ends
after the grid; a core whose live lag passes its limit has slipped, and past four times the limit its step is late; each is
recorded once (R100, R263, R266, R269). -/
def Obligations.BeatsEndAndSlip : Prop :=
  ∀ (n c sd : Nat) (s : State),
    let d := s.dev
    let b := (coreOf d n).beat
    n < coresTotal d →
    (c < 8 → (ctxIn s n c).st = 4 → (ctxIn s n c).wait = .sbeat sd false →
      (∀ e, e < 8 → e ≠ c → ((ctxIn s n e).st = 0 ∨ (ctxIn s n e).st = 6 ∨ (ctxIn s n e).st = 7) ∧ (ctxIn s n e).wait = .none) →
      (coreOf d n).ops = [] → b.enabled = true → beatEnable d = true →
      let since := b.ready.getD (gtimeNs d)
      let ends := max (beatBoundary d b) since
      (gtimeNs d < beatBoundary d b → Does (.beatBoundary n) s (fun t =>
        Becomes s t (modCore d n (fun k => { k with beat := { b with ready := some since } })))) ∧
      (beatBoundary d b ≤ gtimeNs d → InStore (ctxIn s n c) → Does (.beatBoundary n) s (fun t =>
        SameMem s t ∧ SameRegs s t ∧ SameOtherCores s t n ∧ SameOtherCtxs s t n c ∧
        (coreOf t.dev n).beat.n = b.n + 1 ∧ (coreOf t.dev n).beat.start = ends ∧
        (coreOf t.dev n).beat.lag = ends - (beatT0 d + (b.n + 1) * beatLen d) ∧
        (ctxIn t n c).pc = (goesOn (ctxIn s n c)).pc ∧ (ctxIn t n c).st = 1 ∧
        ∀ i, sreg (ctxIn t n c) i = if i = 0 then 0#64 else if i = sd then BitVec.ofNat 64 (b.n + 1) else sreg (ctxIn s n c) i))) ∧
    (b.kept = true → b.enabled = true →
      (b.slipArmed = true → slipLimit d < liveLag d b → Does (.slip n) s (fun t => t.mem = s.mem ∧ Counts d t.dev 0x200138 ∧
        Records d t.dev 0x0D01 (0x0D00 + n) ∧ coreOf t.dev n = { coreOf d n with beat := { b with slipped := true, slipArmed := false } } ∧
        SameOtherCores s t n ∧
        regField t.dev (coreOff n 0x710) 16 16 = min 0xFFFF (regField d (coreOff n 0x710) 16 16 + 1))) ∧
      (b.slipArmed = false ∨ liveLag d b ≤ slipLimit d → Does (.slip n) s (fun t => Unchanged s t)) ∧
      (b.lateArmed = true → 4 * slipLimit d < liveLag d b → Does (.stepLate n) s (fun t => t.mem = s.mem ∧
        Counts d t.dev 0x20013C ∧ Records d t.dev 0x0D02 (0x0D00 + n) ∧ SameOtherCores s t n ∧
        coreOf t.dev n = { coreOf d n with beat := { b with late := true, lateArmed := false } })) ∧
      (b.lateArmed = false ∨ liveLag d b ≤ 4 * slipLimit d → Does (.stepLate n) s (fun t => Unchanged s t)))

/-- Entry to P1, P2 or P3: GO asks every block; the first refusal abandons the entry with its UNIT and a record, a delay has it ask
again until DELAY_MAX_US has passed, and with every block's acceptance it completes; a wake during an entry is latched and ends the
state it enters (R532, R535 to R539, R551). -/
def Obligations.PowerEntries : Prop :=
  ∀ (m : Nat) (s : State),
    let d := s.dev
    let p := d.pwr
    let abandons := fun (t : State) (u reason : Nat) => t.mem = s.mem ∧ t.dev.cores = d.cores ∧ Counts d t.dev 0x380000C ∧
      regNat t.dev 0x3800010 = u % 65536 + 65536 * reason ∧ Records d t.dev 0x0E20 (u % 65536) ∧
      t.dev.pwr.entering = false ∧ t.dev.pwr.accepted = false ∧ t.dev.pwr.st = p.st
    (∀ k i, (k, i) ∈ [(1, Instr.pwrEnterP1 m), (2, .pwrEnterP2 m), (3, .pwrEnterP3 m)] → OwnerOn s m →
      (p.st = 0 → p.entering = false →
        (∀ u l, refusers d k = u :: l → Does i s (fun t => abandons t u 1)) ∧
        (refusers d k = [] → Does i s (fun t => t.mem = s.mem ∧ t.dev.cores = d.cores ∧ SameRegsBut s t [0x3800000] ∧
          regField t.dev 0x3800000 0 2 = k ∧ t.dev.pwr = { p with
            entering := true, target := k, accepted := (delayers d).isEmpty, goTime := gtimeNs d, latched := false }))) ∧
      (p.st ≠ 0 ∨ p.entering = true → Does i s (fun t => Unchanged s t))) ∧
    (p.entering = true → p.accepted = false →
      (∀ u l, refusers d p.target = u :: l → Does .entryReask s (fun t => abandons t u 1)) ∧
      (refusers d p.target = [] → delayers d ≠ [] → Does .entryReask s (fun t => Unchanged s t)) ∧
      (refusers d p.target = [] → delayers d = [] → Does .entryReask s (fun t => Becomes s t { d with pwr := { p with accepted := true } })) ∧
      (gtimeNs d ≤ p.goTime + delayMaxNs d → Does .entryDelayExpired s (fun t => Unchanged s t)) ∧
      (p.goTime + delayMaxNs d < gtimeNs d →
        (∀ u l, delayers d = u :: l → Does .entryDelayExpired s (fun t => abandons t u 2)) ∧
        (refusers d p.target = [] → delayers d = [] → Does .entryDelayExpired s (fun t =>
          Becomes s t { d with pwr := { p with accepted := true } })))) ∧
    (p.entering = false ∨ p.accepted = false → Does .entryComplete s (fun t => Unchanged s t)) ∧
    (p.entering = true → p.accepted = true → 1 ≤ p.target → p.target ≤ 3 →
      (p.latched = false → Does .entryComplete s (fun t => t.mem = s.mem ∧ t.dev.cores = d.cores ∧
        t.dev.pwr = { p with st := p.target, entering := false, accepted := false } ∧
        (p.target = 1 → SameRegs s t ∧ t.dev.tm = d.tm) ∧ (2 ≤ p.target → d.tm.st ≠ 0 → t.dev.tm.st = 3) ∧
        (p.target = 3 → ∀ q, q < 39 → portSt d q ≠ 2 ∨ portSt t.dev q = 0))) ∧
      (p.latched = true → Does .entryComplete s (fun t => t.mem = s.mem ∧ t.dev.cores = d.cores ∧ t.dev.pwr.st = p.target ∧
        t.dev.pwr.entering = false ∧ t.dev.pwr.latched = false ∧ t.dev.pwr.exiting = true ∧ t.dev.pwr.lastWake = p.latchSrc)))

/-- Wakes and exits: an event on a pin, a line or a port wakes a sleeping device, is latched by one that enters, and leaves one in P0
as it is; an exit from P1 wakes every core, and one from P2 or P3 leaves the cores at reset and undefined what was not kept; a core
wake ungates its core; WAKE_SEND sends the pattern where a partner sleeps; WAKE_N is driven for 100 ms (R533, R534, R541 to R544, R578). -/
def Obligations.WakesAndExits : Prop :=
  ∀ (m n v : Nat) (r : StageResult) (s : State),
    let d := s.dev
    let p := d.pwr
    (∀ src i, (src, i) ∈ [(4, Instr.monRxdWake), (3, .opticalWakePattern n), (2, .boardWakePattern n)] →
      (src = 3 → 7 ≤ n ∧ n < 39) → (src = 2 → n < 7) → src = 4 ∨ portSt d n ≠ 3 → p.tripped = false → d.own.epo = false →
      (p.st = 0 → p.entering = false → Does i s (fun t => Unchanged s t)) ∧
      (p.entering = true → p.latched = false → Does i s (fun t => Becomes s t { d with pwr := { p with latched := true, latchSrc := src } })) ∧
      (p.st ≠ 0 → p.entering = false → p.exiting = false → Does i s (fun t => t.mem = s.mem ∧ SameRegs s t ∧ SameCores s t ∧
        t.dev.pwr.exiting = true ∧ t.dev.pwr.lastWake = src ∧ t.dev.pwr.exitAt = d.boot.aonNs ∧ t.dev.pwr.st = p.st ∧
        (2 ≤ p.st → t.dev.pwr.wakeN = true)))) ∧
    (p.exiting = true → p.tripped = false → d.own.epo = false → d.host.later = [] → p.entering = false →
      (p.st = 1 → (∀ k c, c < 8 → (ctxIn s k c).st = 5 → InStore (ctxIn s k c)) → Does (.powerExitDone r) s (fun t =>
        t.mem = s.mem ∧ t.dev.pwr = { p with st := 0, exiting := false } ∧
        regNat t.dev 0x3800030 = (d.boot.aonNs - p.exitAt) / 1000 % 2 ^ 32 ∧
        ∀ k, k < coresTotal d → (coreOf t.dev k).gated = false ∧ ∀ c, c < 8 → ctxIn t k c =
          if (ctxIn s k c).st = 5 then goesOn (ctxIn s k c) else ctxIn s k c)) ∧
      (p.st = 2 ∨ p.st = 3 ∧ (pickSlot d).isSome = true → Does (.powerExitDone r) s (fun t =>
        t.dev.pwr.st = 0 ∧ t.dev.pwr.exiting = false ∧ (p.st = 3 → t.dev.upd = updReset) ∧
        ∀ k, k < coresTotal d → (coreOf d k).mapState < 2 → (coreOf t.dev k).ctxs = [] ∧ (coreOf t.dev k).descs = [] ∧
          (coreOf t.dev k).phys = (coreOf d k).phys ∧ (coreOf t.dev k).mapState = (coreOf d k).mapState))) ∧
    (p.exiting = false → Does (.powerExitDone r) s (fun t => Unchanged s t)) ∧
    (OwnerOn s m → n < coresTotal d → p.entering = false → (∀ c, c < 8 → (ctxIn s n c).st = 5 → InStore (ctxIn s n c)) →
      Does (.corePwrWake m n) s (fun t => t.mem = s.mem ∧ SameRegs s t ∧ SameOtherCores s t n ∧ (coreOf t.dev n).gated = false ∧
        (∀ c, c < 8 → ctxIn t n c = if (ctxIn s n c).st = 5 then goesOn (ctxIn s n c) else ctxIn s n c) ∧
        (p.st = 0 → t.dev.pwr = p) ∧ (p.st = 1 → p.exiting = false → t.dev.pwr.exiting = true ∧ t.dev.pwr.lastWake = 6))) ∧
    (OwnerOn s m → p.st = 0 → Does (.wakeSend m v) s (fun t => Becomes s t { d with out := d.out ++
      (allPorts.filter (fun q => natBit v q && ((linkOf d q).farMode == 2 || (linkOf d q).farMode == 3))).map Out.wakePattern })) ∧
    (p.wakeN = true → p.wakeAt + 100000000 ≤ d.boot.aonNs → Does .wakeNRelease s (fun t =>
      Becomes s t { d with pwr := { p with wakeN := false }, out := d.out ++ [.pin "WAKE_N" true] })) ∧
    (p.wakeN = false ∨ d.boot.aonNs < p.wakeAt + 100000000 → Does .wakeNRelease s (fun t => Unchanged s t))

/-- A package power sample above PKG_CAP lowers the clock by 25 MHz and counts one episode, at most every 100 µs, one
below 97% of it restores 25 MHz each millisecond, and one above 2,400 W trips the package; a die at 105 °C or more is
throttled by 100 MHz down to 400, one at 102 °C or less restored up to the clock the cap allows, and one at 115 °C trips
the package (R545 to R547, R550). Resets and trips: RESET_N starts the device again from stage 0 with what flash holds,
after a loss of the always-on supply as a power-on; a trip turns every laser and supply off with its cause, and holds a
reset until every sensor is below 100 °C (R448, R491, R492, R547 to R549, R574 to R577). -/
def Obligations.LimitsTripsAndResets : Prop :=
  (∀ (w die temp : Nat) (s : State),
     let d := s.dev
     let p := d.pwr
     (w ≤ 2400 →
       (pkgCap d < w → p.capping = true → gtimeNs d < p.capAt + 100000 → Does (.pkgPowerSample w) s (fun t =>
         OnlyRegs s t [0x3800044])) ∧
       (pkgCap d < w → p.capping = false ∨ p.capAt + 100000 ≤ gtimeNs d → Does (.pkgPowerSample w) s (fun t =>
         KeepsCores s t ∧ SameRegsBut s t [0x3800044, 0x3800048] ∧ regField t.dev 0x3800044 0 16 = w ∧
         t.dev.pwr = { p with capClock := p.capClock - 25, capping := true, capAt := gtimeNs d } ∧
         regNat t.dev 0x3800048 = if p.capping = true then regNat d 0x3800048 else satAdd32 (regNat d 0x3800048) 1)) ∧
       (w * 100 < pkgCap d * 97 → p.capClock < 1800 → p.capAt + 1000000 ≤ gtimeNs d → Does (.pkgPowerSample w) s (fun t =>
         OnlyRegs { s with dev := { d with pwr := { p with
           capClock := min 1800 (p.capClock + 25), capAt := gtimeNs d, capping := decide (p.capClock + 25 < 1800) } } } t [0x3800044])) ∧
       (w ≤ pkgCap d → pkgCap d * 97 ≤ w * 100 → Does (.pkgPowerSample w) s (fun t => OnlyRegs s t [0x3800044]))) ∧
     (2400 < w → p.tripped = false → Does (.pkgPowerSample w) s (fun t => Trips s t (3 + 4096 * min w 4095))) ∧
     (die < 4 → p.resetHeld = none →
       let clock := thermClock d die
       let at_ := smapGet p.thAt die 0
       let on := smapGet p.throttled die false
       let shows := fun (t : State) (c : Nat) => t.mem = s.mem ∧ t.dev.cores = d.cores ∧ thermClock t.dev die = c ∧
         smapGet t.dev.pwr.temps die 0 = min temp 255 ∧ t.dev.boot.dayMaxC = max d.boot.dayMaxC (min temp 255) ∧
         ∀ i, i ≠ die → thermClock t.dev i = thermClock d i
       (105 ≤ temp → temp < 115 → on = false → Does (.dieTempSample die temp) s (fun t => shows t (max 400 (dieClock d die - 100)) ∧
         smapGet t.dev.pwr.throttled die false = true ∧ Counts d t.dev 0x380004C ∧ Records d t.dev 0x0E42 0x0EFF)) ∧
       (105 ≤ temp → temp < 115 → on = true → at_ + 100000 ≤ gtimeNs d → Does (.dieTempSample die temp) s (fun t =>
         shows t (max 400 (dieClock d die - 100)) ∧ smapGet t.dev.pwr.throttled die false = true ∧ regNat t.dev 0x380004C = regNat d 0x380004C)) ∧
       (105 ≤ temp → temp < 115 → on = true → gtimeNs d < at_ + 100000 → Does (.dieTempSample die temp) s (fun t =>
         shows t clock)) ∧
       (temp ≤ 102 → clock < p.capClock → at_ + 1000000 ≤ gtimeNs d → Does (.dieTempSample die temp) s (fun t =>
         shows t (min p.capClock (clock + 100)))) ∧
       (102 < temp → temp < 105 → Does (.dieTempSample die temp) s (fun t => shows t clock ∧
         smapGet t.dev.pwr.throttled die false = on)) ∧
       (115 ≤ temp → temp < 4096 → p.tripped = false → Does (.dieTempSample die temp) s (fun t => t.mem = s.mem ∧
         t.dev.pwr.tripped = true ∧ regNat t.dev 0x38000C0 = 1 + 16 * die + 4096 * temp)))) ∧
  (∀ (slot rail mv : Nat) (s : State),
     let d := s.dev
     let p := d.pwr
     (p.tripped = false → Does (.resetN slot) s (fun t => Restarts s t (if p.aonLost = true then 0 else 1) slot)) ∧
     (p.tripped = true → anyHot d = true → Does (.resetN slot) s (fun t => Becomes s t { d with pwr := { p with resetHeld := some slot } })) ∧
     (p.tripped = true → anyHot d = false → Does (.resetN slot) s (fun t => Restarts s t 4 slot)) ∧
     (∀ die temp held, p.resetHeld = some held → die < 4 → temp < 100 → (∀ e ∈ p.temps, e.2 < 100) → (∀ e ∈ d.stk, e.2.temp < 100) →
       Does (.dieTempSample die temp) s (fun t => Restarts s t 4 held)) ∧
     Does .aonPowerLoss s (fun t => t.dev.cores = [] ∧ t.dev.ni = niReset ∧ t.dev.own.owner = 0 ∧ t.dev.own.slotA = d.own.slotA ∧
       t.dev.boot.ledger = d.boot.ledger ∧ t.dev.pwr.aonLost = true ∧ t.dev.pwr.lastWake = 0 ∧ bootStage t.dev = 0 ∧
       bootStatus t.dev = 0 ∧ regNat t.dev 0x38000C0 = 0 ∧ regNat t.dev 0x804 = regNat d 0x804) ∧
     (railTrips rail mv = true → p.tripped = false → Does (.railTrip rail mv) s (fun t =>
       Trips s t (4 + 16 * (rail % 256) + 4096 * min mv 4095))) ∧
     (railTrips rail mv = false ∨ p.tripped = true → Does (.railTrip rail mv) s (fun t => Unchanged s t)))

/-- Bring-up: a stage that ends without failing starts the next, one that fails stops bring-up, and stage 8 waits for its node
number, its neighbours and locked time; a stage past its budget fails, however its work then ends, but stages 6 and 7 go on without the ports that found no
partner (R17, R440 to R445). -/
def Obligations.StagesRunInOrder : Prop :=
  ∀ (r : StageResult) (port : Nat) (s : State),
    let d := s.dev
    let stage := bootStage d
    (stageRuns d = false → Does (.stageEnd r) s (fun t => Unchanged s t) ∧ Does .stageTimeout s (fun t => Unchanged s t)) ∧
    (stageRuns d = true →
      let o := stageWork d stage r
      (stageLate d = false → stage < 7 → o.status ≠ 5 → Does (.stageEnd r) s (fun t => t.mem = memApplyAll s.mem o.ops ∧ bootStage t.dev = stage + 1 ∧
        bootStatus t.dev = 1 ∧ t.dev.boot.stageStart = o.dev.boot.aonNs ∧
        bytesNat (smapGet t.dev.boot.pennants stage []) 1 1 = o.status % 256)) ∧
      (stageLate d = false → stage < 8 → o.status = 5 → Does (.stageEnd r) s (fun t => t.mem = memApplyAll s.mem o.ops ∧ bootStage t.dev = stage ∧
        bootStatus t.dev = 5 ∧ stageRuns t.dev = false)) ∧
      (stage = 0 → (o.status = 5 ↔ r.rails % 64 ≠ 63)) ∧ (stage = 3 → (o.status = 5 ↔ r.linksBad % 256 ≠ 0)) ∧
      (stage = 7 → o.status ≠ 5) ∧
      (stage = 7 → stageLate d = false → Does (.stageEnd r) s (fun t => bootStage t.dev = 8 ∧
        (bootStatus t.dev = 1 ∨ bootStatus t.dev = 2))) ∧
      (stage = 8 → joinReady d r.numbers = false → Does (.stageEnd r) s (fun t => OnlyRegs s t [0x800] ∧ bootStatus t.dev = 2)) ∧
      (stage = 8 → joinReady d r.numbers = true → Does (.stageEnd r) s (fun t => t.mem = s.mem ∧ bootStage t.dev = 9 ∧ bootReady t.dev = true ∧
        (bootStatus t.dev = 3 ∨ bootStatus t.dev = 4))) ∧
      (∀ ms, stageBudget d stage = some ms →
        (ms * 1000000 < d.boot.aonNs - d.boot.stageStart → ∀ i ∈ [Instr.stageTimeout, .stageEnd r],
          (stage < 6 → Does i s (fun t => t.mem = s.mem ∧ bootStage t.dev = stage ∧ bootStatus t.dev = 5)) ∧
          (stage = 6 ∨ stage = 7 → Does i s (fun t => t.mem = s.mem ∧ bootStage t.dev = stage + 1 ∧
            ∀ q, q < 39 → (q < 7 ↔ stage = 6) → portSt t.dev q = if portSt d q = 1 then 0 else portSt d q))) ∧
        (d.boot.aonNs - d.boot.stageStart ≤ ms * 1000000 → Does .stageTimeout s (fun t => Unchanged s t))) ∧
      (port < 39 → portSt d port = 1 → stage = (if port < 7 then 6 else 7) →
        (if port < 7 then regField d 0x1000060 16 16 else regField d 0x3000004 16 16) * 1000000 ≤ d.boot.aonNs - d.boot.stageStart →
        Does (.trainWindowExpiry port) s (fun t => OnlyRegs s t [portOff port] ∧ portSt t.dev port = 0))) ∧
    (portSt d port ≠ 1 → Does (.trainWindowExpiry port) s (fun t => Unchanged s t))

/-- The sideband: reads and writes are answered with a status byte, 0x03 for a write that is dropped and 0x02 for an access that is
malformed; EPO and RESET act only within 100 ms of ARM; a claim's bytes reach the board controller's buffer; a device that is not
ready answers 0x01 (R489 to R491). -/
def Obligations.SidebandAnswers : Prop :=
  ∀ (off v code slot : Nat) (bs : List Byte) (s : State),
    let d := s.dev
    let o := d.own
    let ok := d.pwr.aonLost = false ∧ d.pwr.entering = false
    let quiet := fun (t : State) (b : Nat) => t.mem = s.mem ∧ SameRegs s t ∧ SameCores s t ∧ Answers d t.dev (leBytes 1 b) ∧
      t.dev.own = { o with armed := none }
    (∀ w r i, (w, r, i) ∈ [(4, Instr.i3cRead32 off, Instr.i3cWrite32 off v), (8, .i3cRead64 off, .i3cWrite64 off v)] →
      (ok → i3cReady d = true →
        (accessGood off w = true → Does r s (fun t => t.mem = s.mem ∧ SameCores s t ∧ t.dev.own = { o with armed := none } ∧
          Answers d t.dev (leBytes 1 0 ++ leBytes w (peekWidth (i3cDisarm d) s.mem off w)))) ∧
        (accessGood off w = false → Does r s (fun t => quiet t 2) ∧ Does i s (fun t => quiet t 2)) ∧
        (accessGood off w = true → isOwner d 2 = false → exemptWrite (i3cDisarm d) 2 off w v = none → Does i s (fun t =>
          t.mem = s.mem ∧ SameRegsBut s t [0x100080, 0x100088, 0x100098] ∧ Counts d t.dev 0x100080 ∧ Counts d t.dev 0x100088 ∧
          SameCores s t ∧ Answers d t.dev (leBytes 1 3))) ∧
        (isOwner d 2 = true → off = 0x9000 → Does i s (fun t => t.mem = s.mem ∧ Answers d t.dev (leBytes 1 0) ∧
          SameRegsBut s t (if w = 8 then [0x9000, 0x9004] else [0x9000]) ∧ regNat t.dev 0x9000 / 4096 = v % 2 ^ 32 / 4096 ∧
          (w = 8 → regNat t.dev 0x9004 = v / 2 ^ 32 % 2 ^ 32)))) ∧
      (ok → i3cReady d = false → d.pwr.st = 0 → Does i s (fun t => quiet t 1)) ∧
      (d.pwr.aonLost = true → Does i s (fun t => Unchanged s t))) ∧
    (ok → d.pwr.st = 0 →
      Does (.i3cArm 0xE5) s (fun t => Becomes s t { d with
        own := { o with armed := some (d.boot.aonNs + 100000000) }, out := d.out ++ [.i3cReply (leBytes 1 0)] }) ∧
      (code ≠ 0xE5 → Does (.i3cArm code) s (fun t => quiet t 2)) ∧
      (i3cArmed d = false → Does (.i3cEpo 0x5E) s (fun t => quiet t 1) ∧ Does (.i3cReset 0x5E slot) s (fun t => quiet t 1)) ∧
      (code ≠ 0x5E → Does (.i3cEpo code) s (fun t => quiet t 2) ∧ Does (.i3cReset code slot) s (fun t => quiet t 2)) ∧
      (code % 256 ∉ [0x01, 0x02, 0x03, 0x04, 0x10, 0x11, 0x12, 0x20] → Does (.i3cBadCommand code) s (fun t => quiet t 2))) ∧
    (d.pwr.aonLost = false → i3cArmed d = true →
      Does (.i3cEpo 0x5E) s (fun t => t.mem = s.mem ∧ SameCores s t ∧ Answers d t.dev (leBytes 1 0) ∧ t.dev.own.epo = true ∧
        t.dev.pwr.entering = false ∧ t.dev.own.owner = o.owner ∧ ∀ q, 7 ≤ q → q < 39 → portSt d q = 3 ∨ portSt t.dev q = 0) ∧
      (d.pwr.tripped = false → Does (.i3cReset 0x5E slot) s (fun t => Restarts s t 2 slot))) ∧
    (∀ x, o.armed = some x →
      (x ≤ d.boot.aonNs → Does .i3cArmExpiry s (fun t => Becomes s t { d with own := { o with armed := none } })) ∧
      (d.boot.aonNs < x → Does .i3cArmExpiry s (fun t => Unchanged s t))) ∧
    (ok → i3cReady d = true →
      (bs.length ≤ 240 → off + bs.length ≤ 0x4000 → Does (.i3cClaimChunk off bs) s (fun t => t.mem = s.mem ∧ SameRegs s t ∧
        Answers d t.dev (leBytes 1 0) ∧ claimBytes t.dev 2 off bs.length = bs)) ∧
      (240 < bs.length ∨ 0x4000 < off + bs.length → Does (.i3cClaimChunk off bs) s (fun t => quiet t 2))) ∧
    (d.pwr.aonLost = false → Does (.i3cAddrAssign v) s (fun t => Becomes s t { d with own := { o with i3cAddr := some (v % 128) } }))

/-- Management packets in the mailbox: a packet of a node not in FM_NODES is discarded and counted; a register access is answered with
its status; a claim's bytes reach the fabric manager's buffer; the owner's command runs; the bunting map and a shard's bytes are
sent; a fabric command is gathered from its chunks, and begins anew with one that comes too late (R309, R316, R493, R499, R517, R518). -/
def Obligations.ManagementPackets : Prop :=
  ∀ (p : Packet) (s : State),
    let d := s.dev
    let e : Dev := { d with fab := { d.fab with mailbox := d.fab.mailbox.erase p } }
    let off := payNat p 0 4
    let w := payNat p 4 1
    p ∈ d.fab.mailbox → routerOn d = true → p.typ = 8 →
    (∀ k i, (k, i) ∈ [(0, Instr.mgmtRegRead p), (1, .mgmtRegWrite p), (3, .mgmtClaimChunk p), (5, .mgmtCommand p),
        (8, .mgmtBuntingRead p), (9, .mgmtShardRead p)] → p.sub = k → fmNode d p.src = false →
      Does i s (fun t => Becomes s t (regBump e 0x1000A0 1))) ∧
    (fmNode d p.src = true →
      (p.sub = 0 → Does (.mgmtRegRead p) s (fun t => t.mem = s.mem ∧ SameCores s t ∧ t.dev.fab = e.fab ∧
        SendsMgmt d t.dev 2 p.src (leBytes 4 off ++ leBytes 1 (if accessGood off w = true then 0 else 2) ++ leBytes 3 0 ++
          leBytes 8 (if accessGood off w = true then peekWidth e s.mem off w else 0)))) ∧
      (p.sub = 1 → accessGood off w = true → isOwner d 3 = false → exemptWrite e 3 off w (payNat p 8 8) = none →
        Does (.mgmtRegWrite p) s (fun t => t.mem = s.mem ∧ SameCores s t ∧ SameRegsBut s t [0x100080, 0x10008C, 0x100098] ∧
          Counts d t.dev 0x100080 ∧ SendsMgmt d t.dev 2 p.src (leBytes 4 off ++ leBytes 1 3 ++ leBytes 3 0 ++ leBytes 8 0))) ∧
      (p.sub = 1 → accessGood off w = true → isOwner d 3 = true → off = 0x9000 → w = 4 →
        Does (.mgmtRegWrite p) s (fun t => t.mem = s.mem ∧ SameCores s t ∧ SameRegsBut s t [0x9000] ∧
          regNat t.dev 0x9000 / 4096 = payNat p 8 8 % 2 ^ 32 / 4096 ∧
          SendsMgmt d t.dev 2 p.src (leBytes 4 off ++ leBytes 1 0 ++ leBytes 3 0 ++ leBytes 8 0))) ∧
      (p.sub = 3 → (let k := 252 * payNat p 0 2
        let bs := (p.payload.drop 4).take (min 252 (p.len - 4))
        k + bs.length ≤ 0x4000 → Does (.mgmtClaimChunk p) s (fun t => t.mem = s.mem ∧ SameRegs s t ∧ SameCores s t ∧
          t.dev.own.claimSrc = smapSet d.own.claimSrc (payNat p 0 2) p.src ∧ claimBytes t.dev 3 k bs.length = bs))) ∧
      (p.sub = 5 → isOwner d 3 = true → p.len = 64 →
        Does (.mgmtCommand p) s (fun t => Becomes s t (cmdRun e s.mem (16 + p.src) (padTo 64 p.payload)))) ∧
      (p.sub = 5 → isOwner d 3 = false ∨ p.len ≠ 64 → Does (.mgmtCommand p) s (fun t => Becomes s t e)) ∧
      (p.sub = 8 → p.len ≠ 256 → Does (.mgmtBuntingRead p) s (fun t => t.mem = s.mem ∧ SameRegs s t ∧ SameCores s t ∧
        ∃ l, t.dev.ni.inject = d.ni.inject ++ l ∧ l.length = 8 ∧ (∀ q ∈ l, q.2.typ = 8 ∧ q.2.sub = 8 ∧ q.2.dst = p.src) ∧
          l.flatMap (fun q => q.2.payload) = padTo 2048 d.fab.lastMap)) ∧
      (p.sub = 9 → (let len := payNat p 12 2
        let x := shardRead e s.mem (payNat p 0 2) (payNat p 2 1) (payNat p 4 8) len
        Does (.mgmtShardRead p) s (fun t => t.mem = s.mem ∧ SameRegs s t ∧ SameCores s t ∧ SendsMgmt d t.dev 10 p.src
          (if len ≤ 240 ∧ x.1 = 0 then leBytes 4 0 ++ x.2 else leBytes 4 2 ++ (if len ≤ 240 then x.2 else [])))))) ∧
    (p.sub = 4 → (let k := payNat p 0 2
      let n := payNat p 2 2
      let bs := (p.payload.drop 4).take (min 252 (p.len - 4))
      let old := d.fab.cmds.find? (fun c => c.src == p.src && !fabWhole c && !c.verified && c.chunks == n)
      (k < n → n ≤ 47 → 5 ≤ p.len → (∀ c, old = some c → fabLate d c = false) → Does (.mgmtFabricCmd p) s (fun t =>
        t.mem = s.mem ∧ SameRegs s t ∧ SameCores s t ∧
        ∃ c ∈ t.dev.fab.cmds, c.src = p.src ∧ c.chunks = n ∧ c.last = d.boot.aonNs ∧ smapGet c.got k [] = bs)) ∧
      (∀ c, k < n → n ≤ 47 → 5 ≤ p.len → old = some c → fabLate d c = true → Does (.mgmtFabricCmd p) s (fun t =>
        t.mem = s.mem ∧ SameCores s t ∧ regField t.dev 0x1000030 0 4 = 6 ∧ Records d t.dev 0x0A22 0x0AFF ∧
        ⟨p.src, n, [(k, bs)], d.boot.aonNs, false⟩ ∈ t.dev.fab.cmds)) ∧
      (n ≤ k ∨ 47 < n ∨ p.len < 5 → Does (.mgmtFabricCmd p) s (fun t => t.mem = s.mem ∧ SameCores s t ∧
        t.dev.fab.cmds = d.fab.cmds ∧ regField t.dev 0x1000030 0 4 = 4 ∧ Records d t.dev 0x0A22 0x0AFF))))

/-- Fabric commands: the oldest complete one is verified, and is rejected with the first reason that applies, or waits for its
APPLY_TIME, a slice command while the members it excludes are drained; a slice command then sets the slice, its members and its ports, and a table command loads the other bank and exchanges
the banks; one whose chunks stop for 10 ms is dropped (R295, R309 to R311, R318). -/
def Obligations.FabricCommandsApply : Prop :=
  ∀ (c : FabCmd) (good : Bool) (s : State),
    let d := s.dev
    let b := fabBytes c
    let x := fabBody b
    let rejects := fun (t : State) (reason : Nat) => t.mem = s.mem ∧ SameCores s t ∧ t.dev.fab.cmds = d.fab.cmds.erase c ∧
      regField t.dev 0x1000030 0 4 = reason ∧ Records d t.dev 0x0A22 0x0AFF
    let slices := fun (t : State) => ∃ w, SettlesTo s t w ∧ w.ops = [] ∧ regNat w.dev 0x1000020 = bytesNat x 0 2 ∧
      regNat64 w.dev 0x1000028 = fabSerial b ∧ w.dev.fab.members = fabMembers b ∧
      ∀ q, q < 39 → regNat w.dev (0x1001000 + 4 * q) = bytesNat x (16 + 2 * q) 2
    let tables := fun (t : State) => t.mem = s.mem ∧ SameCores s t ∧ regField t.dev 0x1000008 0 1 = 1 - regField d 0x1000008 0 1 ∧
      regNat64 t.dev 0x1000010 = fabSerial b ∧ regNat t.dev 0x1000000 = bytesNat x 0 4 ∧ regNat t.dev 0x1000004 = bytesNat x 4 4
    (d.fab.cmds.find? (fun c => !c.verified && fabWhole c) = some c →
      let r := fabReason d b good
      (r ≠ 0 → Does (.fabricCmdVerified good) s (fun t => rejects t r)) ∧
      (r = 0 → fabTime b ≤ gtimeNs d → fabKind b = 1 → Does (.fabricCmdVerified good) s slices) ∧
      (r = 0 → fabTime b ≤ gtimeNs d → fabKind b = 2 → Does (.fabricCmdVerified good) s tables) ∧
      (r = 0 → gtimeNs d < fabTime b → fabKind b = 1 → Does (.fabricCmdVerified good) s (fun t => ∃ w, SettlesTo s t w ∧ w.ops = [] ∧
        { c with verified := true } ∈ w.dev.fab.cmds ∧ regField w.dev 0x1000030 4 1 = 1 ∧
        ∀ n, natBit (exclMask d b) n = true → natBit w.dev.ni.draining n = true)) ∧
      (r = 0 → gtimeNs d < fabTime b → fabKind b = 2 → Does (.fabricCmdVerified good) s (fun t => t.mem = s.mem ∧ SameCores s t ∧
        { c with verified := true } ∈ t.dev.fab.cmds ∧ regField t.dev 0x1000030 4 1 = 1))) ∧
    (d.fab.cmds.find? (fun c => !c.verified && fabWhole c) = none →
      Does (.fabricCmdVerified good) s (fun t => Unchanged s t)) ∧
    (fabDue d 1 = some c → (lastSerial d 1 < fabSerial b → Does .sliceCommand s slices) ∧
      (fabSerial b ≤ lastSerial d 1 → Does .sliceCommand s (fun t => rejects t 3))) ∧
    (fabDue d 2 = some c → (lastSerial d 2 < fabSerial b → Does .tableCommand s tables) ∧
      (fabSerial b ≤ lastSerial d 2 → Does .tableCommand s (fun t => rejects t 3))) ∧
    (fabDue d 1 = none → Does .sliceCommand s (fun t => Unchanged s t)) ∧
    (fabDue d 2 = none → Does .tableCommand s (fun t => Unchanged s t)) ∧
    (d.fab.cmds.find? (fun c => !c.verified && !fabWhole c && decide (c.last + 10000000 < d.boot.aonNs)) = some c →
      Does .fabricCmdTimeout s (fun t => rejects t 6)) ∧
    (d.fab.cmds.find? (fun c => !c.verified && !fabWhole c && decide (c.last + 10000000 < d.boot.aonNs)) = none →
      Does .fabricCmdTimeout s (fun t => Unchanged s t))

/-- A router cycle: an arrival waits for a slot of its own port, unless that port can take it no more; then a packet for this device is
ejected, one for another leaves by a productive slot with one hop more, or by its own port's slot where none is free; a golden
packet is held; one without a slot, too old, without a route, or outside the fence is dropped and counted; a waiting packet is
stamped and injected where a productive slot is left (R279, R280, R282, R286, R290, R297 to R307, R317). -/
def Obligations.RouterCycles : Prop :=
  ∀ (port q l : Nat) (p : Packet) (s : State),
    let d := s.dev
    let quiet := routerOn d = true ∧ (∀ k, k < 39 → (linkOf d k).held = none ∧ (linkOf d k).align = []) ∧ d.fab.copies = []
    let cycle := fun (arrivals : List (Nat × Packet)) (slots : List Nat) =>
      Instr.routerCycle arrivals (slots.filter (· < 7)) (slots.filter (7 ≤ ·))
    let one := cycle [(port, p)]
    let open_ := fun (k : Nat) => PortUp s k ∧ (linkOf d k).slots % 64 ≠ 0 ∧ rateOpen d k = true
    let young := ageNs d p < maxAgeNs d
    let through := p.dst ≠ ownNode d ∧ fenceBad d p = false ∧ (p.typ = 8 ∨ openTo d port p.slice = true)
    let shown := fun (slots : List Nat) => (portTakes d port p = false ∧ slots = []) ∨
      (portTakes d port p = true ∧ open_ port ∧ slots = [port])
    let gone := fun (t : State) (ev off : Nat) => KeepsCores s t ∧ t.dev.out = d.out ∧ (linkOf t.dev port).align = [] ∧
      (linkOf t.dev port).held = none ∧ Counts d t.dev off ∧ Records d t.dev ev (0x0A00 + port)
    (quiet → d.ni.inject = [] → PortUp s port →
      (portTakes d port p = true → Does (one []) s (fun t => KeepsCores s t ∧ SameRegs s t ∧ t.dev.out = d.out ∧
        (linkOf t.dev port).align = [p])) ∧
      (∀ slots, shown slots →
        (p.dst = ownNode d → packetCheck p = p.check → 1 ≤ p.typ → p.typ ≤ 9 → 1 ≤ p.len → p.len ≤ 256 →
          (p.typ ≠ 8 → p.slice = ownSlice d → sliceValid d = true → Does (one slots) s (fun t => KeepsCores s t ∧ SameRegs s t ∧
            t.dev.out = d.out ∧ t.dev.ni.ejected = d.ni.ejected ++ [p])) ∧
          (p.typ = 8 → d.fab.mailbox.length < 256 → Does (one slots) s (fun t => KeepsCores s t ∧ SameRegs s t ∧
            t.dev.out = d.out ∧ t.dev.fab.mailbox = d.fab.mailbox ++ [p]))) ∧
        (through → young → routeMask d p.dst = 0 → Does (one slots) s (fun t => gone t 0x0A20 0x1000048)) ∧
        (through → maxAgeNs d ≤ ageNs d p → Does (one slots) s (fun t => gone t 0x0A40 0x1000044)) ∧
        (p.dst ≠ ownNode d → p.mcast = false → fenceBad d p = true ∨ (p.typ ≠ 8 ∧ openTo d port p.slice = false) →
          Does (one slots) s (fun t => gone t 0x0A21 0x1000040))) ∧
      (through → young → portTakes d port p = true → open_ port →
        (natBit (routeMask d p.dst) q = true → natBit (routeMask d p.dst) port = false → open_ q → portTakes d q p = true →
          Does (one [port, q]) s (fun t => KeepsCores s t ∧ SameRegs s t ∧ Leaves s t q p) ∧
          (isGolden d p = true → Does (one [port]) s (fun t => KeepsCores s t ∧ SameRegs s t ∧ t.dev.out = d.out ∧
            (linkOf t.dev port).held = some p))) ∧
        (routeMask d p.dst ≠ 0 → isGolden d p = false →
          Does (one [port]) s (fun t => KeepsCores s t ∧ SameRegs s t ∧ Leaves s t port p))) ∧
      (through → young → portTakes d port p = false →
        (natBit (routeMask d p.dst) q = true → open_ q → portTakes d q p = true →
          Does (one [q]) s (fun t => KeepsCores s t ∧ SameRegs s t ∧ Leaves s t q p)) ∧
        (routeMask d p.dst ≠ 0 → isGolden d p = false → Does (one []) s (fun t => gone t 0x0A41 0x1000064)))) ∧
    (quiet → d.ni.inject = [(l, p)] → p.dst ≠ ownNode d → isMember d p.dst = true → injMay d p = true →
      natBit (routeMask d p.dst) q = true → open_ q → portTakes d q (stampPacket d p) = true →
      Does (cycle [] [q]) s (fun t => KeepsCores s t ∧ SameRegs s t ∧ Leaves s t q (stampPacket d p) ∧
        t.dev.ni.inject = [])) ∧
    (routerOn d = false → ∀ a k l, Does (.routerCycle a k l) s (fun t => Unchanged s t)) ∧
    (routerOn d = true → port < 39 → p.dst ≠ ownNode d → maxAgeNs d ≤ ageNs d p → Does (.ageDrop port p) s (fun t =>
      KeepsCores s t ∧ Counts d t.dev 0x1000044 ∧ Records d t.dev 0x0A40 (0x0A00 + port) ∧ (linkOf t.dev port).held ≠ some p ∧
      (linkOf t.dev port).align = (linkOf d port).align.erase p)) ∧
    (young → Does (.ageDrop port p) s (fun t => Unchanged s t))

/-- Links and time: lost slots are asked for again, each packet named is copied once, and a control slot acknowledges the rest; a
halyard message is called for on every trained port at each microsecond, leaves in the port's next control slot, and sets what is
heard of a neighbour; a device that hears no root for 100 µs goes into HOLDOVER; the round trip and the rate follow each measurement; an interval's bunting map is frozen (R254 to R257, R276 to R278, R282 to
R285, R312, R315). -/
def Obligations.LinksAndTime : Prop :=
  ∀ (port num lane : Nat) (ranges : List (Nat × Nat)) (slot : List Byte) (msg : BitVec 128) (corr : List Nat) (s : State),
    let d := s.dev
    let x := linkOf d port
    let len := max 1 (regNat d 0x1000004) * 1000
    (PortUp s port →
      Does (.codewordUncorrectable port none lane) s (fun t => KeepsCores s t ∧ Records d t.dev (portEv port 0x40) (portUnit port) ∧
        (linkOf t.dev port).waiting = x.waiting ∧ (linkOf t.dev port).ranges = x.ranges) ∧
      (∀ a b, x.ranges = [] → x.waiting = [] → Does (.codewordUncorrectable port (some (a, b)) lane) s (fun t => KeepsCores s t ∧
        Records d t.dev (portEv port 0x40) (portUnit port) ∧ (linkOf t.dev port).ranges = [(a % 65536, b % 65536)] ∧
        (linkOf t.dev port).reqNum = (x.reqNum + 1) % 256)) ∧
      (let far := (num % 256 + 256 - x.reqSeen) % 256
       (far = 0 ∨ 127 < far → Does (.replayRequest port num ranges) s (fun t => Unchanged s t)) ∧
       (1 ≤ far → far ≤ 127 → Does (.replayRequest port num ranges) s (fun t => KeepsCores s t ∧
          (linkOf t.dev port).reqSeen = num % 256 ∧ (linkOf t.dev port).store = x.store ∧
          ∀ e ∈ x.store, ranges.any (fun r => inRange16 r e.1) = true → ∃ c ∈ t.dev.fab.copies, c.1 = port ∧ c.2.1 = e.1))) ∧
      (bytesNat slot 24 1 = x.reqSeen → x.reqSeen < 256 → bytesNat slot 46 1 = x.opEcho → Does (.controlSlotReceive port slot) s (fun t =>
        KeepsCores s t ∧ SameRegs s t ∧ (linkOf t.dev port).rxNext = bytesNat slot 20 2 ∧
        (linkOf t.dev port).store = x.store.filter (fun e =>
          decide (32768 ≤ lseqDist e.1 (bytesNat slot 22 2)) || (copiedLseqs d port).contains e.1) ∧
        (bytesNat slot 25 1 = x.reqNum → x.waiting = [] → x.dark = false → (linkOf t.dev port).ranges = []) ∧
        (bytesNat slot 47 1 = x.opNum → x.req.isSome = true → x.opDone = false → x.ops = [] → (linkOf t.dev port).opDone = true))) ∧
      Does (.halyardReceive port msg) s (fun t => KeepsCores s t ∧
        smapFind t.dev.tm.heard port =
          some (halBits msg 68 16, halBits msg 84 6, halBits msg 90 2, halBits msg 108 10, halBits msg 92 16) ∧
        (linkOf t.dev port).echo = some (halBits msg 118 8, d.tm.gt) ∧ regField t.dev (portOff port + 4) 0 10 = halBits msg 108 10) ∧
      (x.trips.2 ≠ 0 → Does (.delayMeasurement port) s (fun t => KeepsCores s t ∧
        (linkOf t.dev port).rtt = nearDiv x.trips.1 x.trips.2 ∧ (linkOf t.dev port).trips = (0, 0) ∧
        regField t.dev (portOff port + 4) 10 16 = min (nearDiv (nearDiv x.trips.1 x.trips.2) 16) 0xFFFF ∧
        portRate t.dev port = rateFor (nearDiv x.trips.1 x.trips.2) (portLanes d port))) ∧
      (routerOn d = true → (∀ k, k < 39 → (linkOf d k).held = none ∧ (linkOf d k).align = []) → d.fab.copies = [] →
        d.ni.inject = [] → x.slots % 64 = 0 → Does (.routerCycle [] ([port].filter (· < 7)) ([port].filter (7 ≤ ·))) s (fun t => KeepsCores s t ∧ SameRegs s t ∧
          t.dev.out = d.out ++ [.markers port (laneMarkers d port), .control port (controlSlot d port)] ∧
          (linkOf t.dev port).nextLseq = x.nextLseq ∧ (linkOf t.dev port).slots = x.slots + 1 ∧
          (linkOf t.dev port).halDue = none))) ∧
    (portSt d port ≠ 2 → ∀ i ∈ [Instr.codewordUncorrectable port none lane, .replayRequest port num ranges,
      .controlSlotReceive port slot, .halyardReceive port msg, .delayMeasurement port], Does i s (fun t => Unchanged s t)) ∧
    (d.tm.tickUs = gtimeNs d / 1000 → Does .halyardSend s (fun t => Unchanged s t)) ∧
    (d.tm.tickUs ≠ gtimeNs d / 1000 → Does .halyardSend s (fun t => KeepsCores s t ∧ SameRegs s t ∧ t.dev.out = d.out ∧
      t.dev.tm = { d.tm with seq := (d.tm.seq + 1) % 256, tickUs := gtimeNs d / 1000 } ∧
      ∀ q, PortUp s q → (linkOf t.dev q).halDue = some (d.tm.seq % 256))) ∧
    (d.tm.st = 2 → d.tm.root = false → d.tm.heardAt + 100000 ≤ d.boot.aonNs → Does .timeHoldover s (fun t => Records d t.dev 0x0D04 0x0DFF ∧ Shows s t { d with
      tm := { d.tm with st := 3, parent := 63, heard := staleHeard d.tm.heard, good := 0, slew := 0 } })) ∧
    (d.tm.st ≠ 2 ∨ d.tm.root = true ∨ d.boot.aonNs < d.tm.heardAt + 100000 → Does .timeHoldover s (fun t => Unchanged s t)) ∧
    ((routerOn d = true → len ≤ gtimeNs d → gtimeNs d / len ≠ d.fab.mapStart / len → Does (.buntingInterval corr) s (fun t =>
        (mapBytes d corr).length = 2048 ∧ Becomes s t { dayBump d 7 (corr.foldl (fun a b => a + b) 0) with
          fab := { d.fab with lastMap := mapBytes d corr, map := [], mapStart := gtimeNs d }
          rcd := { d.rcd with bunting := [] } })) ∧
      (routerOn d = false ∨ gtimeNs d < len ∨ gtimeNs d / len = d.fab.mapStart / len →
        Does (.buntingInterval corr) s (fun t => Unchanged s t)))

/-- Lanes: a bad or missing marker is counted and a good one sets the far end's mask; a lane of two bad markers leaves; a pause that
lasts too long and a port that would fall below six lanes end in retirement; the exchange removes and adds a lane once for its
number, ACK acting and NAK leaving the lane in service (R312, R413 to R420). -/
def Obligations.LanesComeAndGo : Prop :=
  ∀ (port lane num : Nat) (s : State), PortUp s port → lane < 8 →
    let d := s.dev
    let x := linkOf d port
    let fresh := num % 256 ≠ x.opEcho
    (∀ mk, (∀ m, mk = some m → markerGood lane m = false) → Does (.laneMarkerReceive port lane mk) s (fun t => KeepsCores s t ∧
      SameRegs s t ∧ smapGet (linkOf t.dev port).badMarks lane 0 = smapGet x.badMarks lane 0 + 1 ∧
      (linkOf t.dev port).mask = x.mask ∧ (linkOf t.dev port).farMask = x.farMask)) ∧
    (∀ m, markerGood lane m = true → Does (.laneMarkerReceive port lane (some m)) s (fun t => KeepsCores s t ∧
      smapGet (linkOf t.dev port).badMarks lane 0 = 0 ∧ (linkOf t.dev port).farMask = bvBits m 8 8 ∧
      (linkOf t.dev port).farMode = bvBits m 24 8)) ∧
    (laneIn d port lane = true → 2 ≤ smapGet x.badMarks lane 0 → Does (.laneLost port lane) s (fun t => KeepsCores s t ∧
      laneIn t.dev port lane = false)) ∧
    (smapGet x.badMarks lane 0 < 2 → Does (.laneLost port lane) s (fun t => Unchanged s t)) ∧
    (∀ t0, x.paused = some t0 →
      (t0 + pauseMaxNs d < gtimeNs d → Does (.pauseTimeout port) s (fun t => KeepsCores s t ∧ portSt t.dev port = 3 ∧
        Records d t.dev (portEv port 0x42) (portUnit port))) ∧
      (gtimeNs d ≤ t0 + pauseMaxNs d → Does (.pauseTimeout port) s (fun t => Unchanged s t))) ∧
    (64 < (uncorrMs d port).length →
      (7 ≤ portLanes d port → Does (.portNarrowed port lane) s (fun t => KeepsCores s t ∧
        (linkOf t.dev port).asked = x.asked ++ [(1, lane, 0)] ∧ Records d t.dev (portEv port 0x41) (portUnit port))) ∧
      (portLanes d port = 6 → Does (.portNarrowed port lane) s (fun t => KeepsCores s t ∧ portSt t.dev port = 3))) ∧
    ((uncorrMs d port).length ≤ 64 → Does (.portNarrowed port lane) s (fun t => Unchanged s t)) ∧
    (fresh → ∀ reason, Does (.laneRemove port lane reason num) s (fun t => KeepsCores s t ∧
      AsksLane s t port (if removeMay d port lane reason = true then 3 else 5) lane reason ∧
      (linkOf t.dev port).opEcho = num % 256 ∧ (linkOf t.dev port).mask = x.mask)) ∧
    (num % 256 = x.opEcho → ∀ reason step eye, Does (.laneRemove port lane reason num) s (fun t => Unchanged s t) ∧
      Does (.laneAdd port lane reason num false) s (fun t => Unchanged s t) ∧ Does (.laneAck port lane num) s (fun t => Unchanged s t) ∧
      Does (.laneNak port lane num) s (fun t => Unchanged s t) ∧ Does (.laneCalStep port lane ⟨step, eye⟩ num) s (fun t => Unchanged s t)) ∧
    (fresh → natBit (retiredLanes d port) lane = false → ∀ reason,
      Does (.laneAdd port lane reason num true) s (fun t => KeepsCores s t ∧ SameRegs s t ∧ AsksLane s t port 3 lane reason ∧
        (portLane t.dev port lane).test = 2) ∧
      ((portLane d port lane).test = 2 → Does (.laneAdd port lane reason num false) s (fun t => KeepsCores s t ∧ SameRegs s t ∧
        AsksLane s t port 3 lane reason)) ∧
      ((portLane d port lane).test ≠ 2 → Does (.laneAdd port lane reason num false) s (fun t => KeepsCores s t ∧ SameRegs s t ∧
        linkOf t.dev port = { x with opEcho := num % 256, addDue := some (lane, reason) } ∧ t.dev.out = d.out))) ∧
    (fresh → ∀ reason,
      (laneAsked d port lane = some (1, lane, reason) → reason = 0 ∨ reason = 1 ∨ (reason = 2 ∧ isOptical port = true) →
        calBusy d port = false ∨ calLane d port = lane → Does (.laneAck port lane num) s (fun t => KeepsCores s t ∧
          laneIn t.dev port lane = false ∧ (linkOf t.dev port).asked = x.asked.erase (1, lane, reason) ∧
          (x.req = some (1, lane, reason) → x.ops = [] → (linkOf t.dev port).req = none))) ∧
      (∀ eye, port < 7 → laneAsked d port lane = some (1, lane, 2) → (portLane d port lane).saved = some (eye, 0) →
        Does (.laneAck port lane num) s (fun t => KeepsCores s t ∧ (portLane t.dev port lane).eye = eye ∧
          (portLane t.dev port lane).saved = none)) ∧
      (laneAsked d port lane = some (2, lane, reason) → calBusy d port = false → hoOf d port = none →
        Does (.laneAck port lane num) s (fun t => KeepsCores s t ∧ laneIn t.dev port lane = true ∧
          (linkOf t.dev port).asked = x.asked.erase (2, lane, reason) ∧ (portLane t.dev port lane).txLock = 3)) ∧
      (laneAsked d port lane = some (1, lane, reason) → x.req = some (1, lane, reason) → x.ops = [] →
        reason ≠ 2 ∨ calBusy d port = false → reason ≠ 3 ∨ hoOf d port = none → Does (.laneNak port lane num) s (fun t =>
          KeepsCores s t ∧ SameRegs s t ∧ linkOf t.dev port =
            { x with opEcho := num % 256, asked := x.asked.erase (1, lane, reason), req := none })) ∧
      (laneAsked d port lane = none →
        Does (.laneAck port lane num) s (fun t => KeepsCores s t ∧ linkOf t.dev port = { x with opEcho := num % 256 }) ∧
        Does (.laneNak port lane num) s (fun t => KeepsCores s t ∧ linkOf t.dev port = { x with opEcho := num % 256 }))) ∧
    (fresh → ∀ step eye, Does (.laneCalStep port lane ⟨step, eye⟩ num) s (fun t => KeepsCores s t ∧ SameRegs s t ∧
      AsksLane s t port 4 lane 2 ∧ (linkOf t.dev port).step = step % 256 ∧ (linkOf t.dev port).stepEye = eye % 65536))

/-- Rings, calibration and lasers: a ring in range stays locked, the third bad update loses lock and its lane, a relock that begins
once the engine's temperature is steady asks to return where it succeeds and the third that fails fails the lane; calibrations take the lanes in turn; a fading laser hands over to
its spare, one at end of life takes its lane out, and one that fails is replaced where it has a spare (R411, R412, R418 to R427, R461). -/
def Obligations.RingsAndLasers : Prop :=
  ∀ (port lane eye tx rx temp engine chan : Nat) (rate : Int) (s : State),
    let d := s.dev
    let q := portLane d port lane
    let x := linkOf d port
    let z := laserOf d engine chan
    let unit := 0x0900 + 4 * engine
    let sampled := engineSample d port temp rate
    (7 ≤ port → port < 39 → lane < 8 →
      (∀ (err : Int) monitor heater (pwr : Int), d.pwr.st ≠ 2 → x.farMode ≠ 2 →
        let h := slewed q.txHeater heater
        let g := slewed q.rxHeater heater
        (q.txLock = 3 → -400 ≤ err → err ≤ 400 → 10 ≤ monitor → q.hopTx = false → 2000 ≤ h → h ≤ 23000 →
          Does (.ringLoopUpdate port lane false err ⟨monitor, pwr⟩ heater) s (fun t => KeepsCores s t ∧ SameRegs s t ∧
            portLane t.dev port lane = { q with txDetune := wrapInt 16 err, txHeater := h, badTx := (0, 0) })) ∧
        (q.rxLock = 3 → -400 ≤ err → err ≤ 400 → 10 ≤ monitor → q.hopRx = false → 2000 ≤ g → g ≤ 23000 →
          Does (.ringLoopUpdate port lane true err ⟨monitor, pwr⟩ heater) s (fun t => KeepsCores s t ∧ SameRegs s t ∧
            portLane t.dev port lane = { q with
              rxDetune := wrapInt 16 err, rxHeater := g, badRx := (0, 0), rxPwr := wrapInt 16 pwr })) ∧
        (q.txLock = 3 → 23000 < h → h < 25000 → Does (.ringLoopUpdate port lane false err ⟨monitor, pwr⟩ heater) s (fun t =>
          KeepsCores s t ∧ SameRegs s t ∧ (portLane t.dev port lane).hopTx = true)) ∧
        (q.txLock = 3 → 400 < err ∧ 2 ≤ q.badTx.1 ∨ h = 0 ∨ h = 25000 →
          Does (.ringLoopUpdate port lane false err ⟨monitor, pwr⟩ heater) s (fun t => KeepsCores s t ∧
            SameRegs s t ∧ (portLane t.dev port lane).txLock = 5))) ∧
      (q.txLock = 5 ∨ q.rxLock = 5 → Does (.ringUnlock port lane) s (fun t => KeepsCores s t ∧ laneIn t.dev port lane = false ∧
        (portLane t.dev port lane).unlocks = min 255 (q.unlocks + 1) ∧ Counts d t.dev 0x3000010 ∧
        Records d t.dev 0x0944 (portUnit port))) ∧
      (q.txLock ≠ 5 → q.rxLock ≠ 5 → Does (.ringUnlock port lane) s (fun t => Unchanged s t))) ∧
    (laneAway d port lane = true → rateCalm d port lane rate = false → ∀ ok, Does (.ringRelock port lane ok ⟨tx, rx⟩ ⟨temp, rate⟩) s (fun t =>
      Becomes s t sampled)) ∧
    (laneAway d port lane = true → rateCalm d port lane rate = true → natBit (failedLanes d port) lane = false →
      (x.addDue = none → laneCount x ≠ 0 → tx ≤ 25000 → rx ≤ 25000 → Does (.ringRelock port lane true ⟨tx, rx⟩ ⟨temp, rate⟩) s (fun t =>
        KeepsCores s t ∧ AsksLane s t port 2 lane 1 ∧ portLane t.dev port lane = { q with
          txLock := 3, rxLock := 3, txHeater := tx, rxHeater := rx, attempts := 0, test := 2 })) ∧
      (∀ ok, ok = false ∨ 25000 < tx ∨ 25000 < rx →
        (q.attempts < 2 → Does (.ringRelock port lane ok ⟨tx, rx⟩ ⟨temp, rate⟩) s (fun t => KeepsCores s t ∧ SameRegs { s with dev := sampled } t ∧
          portLane t.dev port lane = { q with attempts := q.attempts + 1, test := 3 })) ∧
        (2 ≤ q.attempts → Does (.ringRelock port lane ok ⟨tx, rx⟩ ⟨temp, rate⟩) s (fun t => KeepsCores s t ∧
          natBit (failedLanes t.dev port) lane = true ∧
          Records d t.dev (if port < 7 then 0x0844 else 0x0945) (portUnit port))))) ∧
    (laneAway d port lane = true → rateCalm d port lane rate = true → natBit (failedLanes d port) lane = true →
      (q.txLock ≠ 1 → ∀ ok, Does (.ringRelock port lane ok ⟨tx, rx⟩ ⟨temp, rate⟩) s (fun t => Becomes s t sampled)) ∧
      (q.txLock = 1 → q.retries < 7 → Does (.ringRelock port lane false ⟨tx, rx⟩ ⟨temp, rate⟩) s (fun t => KeepsCores s t ∧
        SameRegs { s with dev := sampled } t ∧
        portLane t.dev port lane = { q with retries := q.retries + 1, test := 3, txLock := 0, rxLock := 0 })) ∧
      (q.txLock = 1 → 7 ≤ q.retries → Does (.ringRelock port lane false ⟨tx, rx⟩ ⟨temp, rate⟩) s (fun t => KeepsCores s t ∧
        natBit (retiredLanes t.dev port) lane = true ∧
        Records d t.dev (if port < 7 then 0x0845 else 0x0946) (portUnit port)))) ∧
    (laneAway d port lane = false → ∀ ok, Does (.ringRelock port lane ok ⟨tx, rx⟩ ⟨temp, rate⟩) s (fun t => Unchanged s t)) ∧
    (7 ≤ port → PortUp s port →
      (turnNow d port = false → Does (.calibrationTurn port) s (fun t => Unchanged s t)) ∧
      (turnNow d port = true → leads d port = true → failedLanes d port = 0 → retiredLanes d port = 0 →
        (optPortOf d (port - 7)).calNext = lane → lane < 8 → 7 ≤ portLanes d port → laneIn d port lane = true →
        calBusy d port = false → hoHolds d port = false → x.asked = [] →
        Does (.calibrationTurn port) s (fun t => KeepsCores s t ∧ AsksLane s t port 1 lane 2 ∧ calBusy t.dev port = true ∧
          calLane t.dev port = lane ∧ (optPortOf t.dev (port - 7)).calNext = (lane + 1) % 8 ∧
          (portLane t.dev port lane).saved = some (q.txHeater, q.rxHeater))) ∧
      (turnNow d port = true → leads d port = false → Does (.calibrationTurn port) s (fun t =>
        Becomes s t (nextTurn (retryFailed d port) port))) ∧
      (calBusy d port = true → calLane d port = lane → laneIn d port lane = false → x.addDue = none → laneCount x ≠ 0 →
        Does (.calibrationDone port eye tx rx) s (fun t => KeepsCores s t ∧ AsksLane s t port 2 lane 2 ∧ Counts d t.dev 0x3000014 ∧
          (portLane t.dev port lane).eye = eye ∧ (portLane t.dev port lane).txHeater = calHeater q.hopTx q.txHeater tx ∧
          (portLane t.dev port lane).calRx = calHeater q.hopRx q.rxHeater rx ∧ (portLane t.dev port lane).hopTx = false ∧
          (portLane t.dev port lane).txLock = 3))) ∧
    (port < 7 → PortUp s port →
      (turnNow d port = false → Does (.boardAdaptTurn port eye) s (fun t => Unchanged s t)) ∧
      (turnNow d port = true → x.failed = 0 → x.retired = 0 → x.adaptNext = lane → lane < 8 → 7 ≤ portLanes d port →
        laneIn d port lane = true → x.asked = [] → Does (.boardAdaptTurn port eye) s (fun t => KeepsCores s t ∧ SameRegs s t ∧
          AsksLane s t port 1 lane 2 ∧ (portLane t.dev port lane).saved = some (eye, 0) ∧
          (linkOf t.dev port).adaptNext = (lane + 1) % 8))) ∧
    (engine < 8 → chan < 8 →
      (∀ (power : Int) bias (freq : Int), Does (.laserPowerSample engine chan power bias freq) s (fun t => KeepsCores s t ∧ SameRegs s t ∧
        laserOf t.dev engine chan = { z with power := wrapInt 16 power, bias := min z.biasLimit bias, freqOfs := wrapInt 16 freq
                                             fadeRun := if power ≤ -(10 * Int.ofNat (spareEff d z)) then z.fadeRun + 1 else 0
                                             eolRun := if power ≤ -(10 * Int.ofNat (eolDb d)) then z.eolRun + 1 else 0 })) ∧
      (z.st = 0 → 1000 ≤ z.fadeRun →
        (z.spareOk = false → Does (.laserFade engine chan) s (fun t => KeepsCores s t ∧ (laserOf t.dev engine chan).st = 3 ∧
          Records d t.dev 0x0948 unit ∧ Records d t.dev 0x094A unit)) ∧
        (z.spareOk = true → d.pwr.st ≤ 1 → (∀ p ∈ enginePorts engine, calBusy d p = false ∧ hoOf d p = none) →
          Does (.laserFade engine chan) s (fun t => KeepsCores s t ∧ (laserOf t.dev engine chan).st = 2 ∧
            ∀ p ∈ enginePorts engine, (optPortOf t.dev (p - 7)).handover = some (chan, true))) ∧
        (z.spareOk = true → (∃ p ∈ enginePorts engine, calBusy d p = true ∨ hoOf d p ≠ none) → Does (.laserFade engine chan) s (fun t =>
          KeepsCores s t ∧ (laserOf t.dev engine chan).st = 1))) ∧
      (z.fadeRun < 1000 → Does (.laserFade engine chan) s (fun t => Unchanged s t)) ∧
      (z.st < 4 → z.spareOk = false → 1000 ≤ z.eolRun → Does (.laserEol engine chan) s (fun t => KeepsCores s t ∧
        (laserOf t.dev engine chan).st = 4 ∧ natBit (laserOf t.dev engine chan).retired z.active.toNat = true ∧
        Records d t.dev 0x094C unit ∧ ∀ p ∈ enginePorts engine, natBit (retiredLanes t.dev p) chan = true)) ∧
      (z.eolRun < 1000 ∨ z.spareOk = true → Does (.laserEol engine chan) s (fun t => Unchanged s t)) ∧
      (z.st < 4 → Does (.laserFail engine chan) s (fun t => KeepsCores s t ∧ Records d t.dev 0x094B unit ∧
        (laserOf t.dev engine chan).st = (if z.spareOk = true then 2 else 5) ∧
        natBit (laserOf t.dev engine chan).retired z.active.toNat = true ∧
        ∀ p ∈ enginePorts engine, laneIn t.dev p chan = false)) ∧
      (z.st = 2 → z.spareOk = true → natBit z.retired z.active.toNat = false → (∃ p ∈ enginePorts engine, hoClear d p chan = false) →
        ∀ ok, Does (.laserHandover engine chan ok) s (fun t => KeepsCores s t ∧ laserOf t.dev engine chan = z)) ∧
      (z.st = 2 → z.spareOk = true → natBit z.retired z.active.toNat = false → (∀ p ∈ enginePorts engine, hoClear d p chan = true) →
        Does (.laserHandover engine chan true) s (fun t => KeepsCores s t ∧ (laserOf t.dev engine chan).st = 0 ∧
          (laserOf t.dev engine chan).active = !z.active ∧ (laserOf t.dev engine chan).spareOk = false ∧
          Counts d t.dev 0x3000018 ∧ Records d t.dev 0x0949 unit) ∧
        Does (.laserHandover engine chan false) s (fun t => KeepsCores s t ∧ (laserOf t.dev engine chan).st = 3 ∧
          (laserOf t.dev engine chan).spareOk = false ∧ Records d t.dev 0x094F unit)) ∧
      (z.st ≠ 2 → ∀ ok, Does (.laserHandover engine chan ok) s (fun t => Unchanged s t)))

/-- Eye safety and retraining: a launch above 10.5 dBm, or a lit port whose input is below -18 dBm, puts the port into safe pulse mode,
down to the router until its partner's pulses are seen; a fourth entry, or a second trip of the cap, within an hour retires it
(R292, R429, R431 to R433). -/
def Obligations.EyeSafety : Prop :=
  ∀ (port : Nat) (v : Int) (r : TrainResult) (s : State), 7 ≤ port → port < 39 →
    let d := s.dev
    let o := optPortOf d (port - 7)
    let mode := regField d (optOff port) 0 4
    let safes := (lastHour d o.safeAt).length
    let safe := fun (t : State) (ev : Nat) => KeepsCores s t ∧ Counts d t.dev 0x3000020 ∧ Records d t.dev ev (portUnit port) ∧
      portSt t.dev port = (if portSt d port = 4 then 4 else 1) ∧ portLanes t.dev port = 0 ∧ regField t.dev (optOff port) 0 4 = 1 ∧ (linkOf t.dev port).mask = 0
    let retired := fun (t : State) => KeepsCores s t ∧ Counts d t.dev 0x3000020 ∧ portSt t.dev port = 3
    (v ≤ 1050 ∨ portSt d port = 3 ∨ optEnabled d (port - 7) = false → Does (.launchCap port v) s (fun t => OnlyRegs s t [optOff port + 4] ∧
      regField t.dev (optOff port + 4) 0 16 = wrapInt 16 v)) ∧
    (1050 < v → portSt d port ≠ 3 → optEnabled d (port - 7) = true →
      (safes < 3 → lastHour d o.capAt = [] → Does (.launchCap port v) s (fun t => safe t 0x094E)) ∧
      (3 ≤ safes ∨ lastHour d o.capAt ≠ [] → Does (.launchCap port v) s retired)) ∧
    (-1800 ≤ v ∨ mode ≤ 1 ∨ 4 < mode ∨ optEnabled d (port - 7) = false → Does (.openFibre port v) s (fun t => OnlyRegs s t [optOff port + 4] ∧
      regField t.dev (optOff port + 4) 16 16 = wrapInt 16 v)) ∧
    (v < -1800 → 2 ≤ mode → mode ≤ 4 → optEnabled d (port - 7) = true → portSt d port ≠ 3 → (lastHour d o.capAt).length < 2 →
      (safes < 3 → Does (.openFibre port v) s (fun t => safe t 0x094D)) ∧
      (3 ≤ safes → Does (.openFibre port v) s retired)) ∧
    (r.port = port → optEnabled d (port - 7) = true → portSt d port = 1 ∨ (portSt d port = 0 ∧ o.tries < 2) → mode = 1 →
      (6 ≤ popcount8 (r.mask % 256) → fibreWrong d port r.node = false → Does (.partnerPulsesSeen r) s (fun t => KeepsCores s t ∧
        portSt t.dev port = 2 ∧ portLanes t.dev port = popcount8 (r.mask % 256) ∧ (linkOf t.dev port).mask = r.mask % 256 ∧
        regField t.dev (optOff port) 0 4 = 3)) ∧
      (6 ≤ popcount8 (r.mask % 256) → fibreWrong d port r.node = true → Does (.partnerPulsesSeen r) s (fun t => KeepsCores s t ∧
        portSt t.dev port = 4)) ∧
      (popcount8 (r.mask % 256) < 6 → o.tries = 0 → Does (.partnerPulsesSeen r) s (fun t => KeepsCores s t ∧ SameRegs s t ∧
        (optPortOf t.dev (port - 7)).tries = 1)) ∧
      (popcount8 (r.mask % 256) < 6 → 1 ≤ o.tries → Does (.partnerPulsesSeen r) s (fun t => KeepsCores s t ∧
        portSt t.dev port = 0))) ∧
    (r.port = port → optEnabled d (port - 7) = false ∨ 2 ≤ portSt d port ∨ (portSt d port = 0 ∧ 2 ≤ o.tries) ∨ mode ≠ 1 → Does (.partnerPulsesSeen r) s (fun t => Unchanged s t))

/-- Ageing: a die link's retries are counted, past 16 in a millisecond a lane is replaced, and without a spare the link fails with
every context; droops are recorded and the fourth, or a long one, retires the core; low path margin raises a core's voltage by
STEP_MV, at its limit retires it; a day of operation ends in a 4,096-byte record and new setpoints (R473, R474, R477 to R481). -/
def Obligations.UnitsAge : Prop :=
  ∀ (n lane lanes mv setp phys : Nat) (margin : Int) (s : State),
    let d := s.dev
    let key := 64 * n + lane % 64
    let tries := gtimeNs d :: (smapGet d.boot.linkRetry key []).filter (fun t => decide (gtimeNs d < t + 1000000))
    let a := ageOf d phys
    let least := match a.least with | some x => min x margin | none => margin
    (n < 8 → ∀ spare,
      (tries.length ≤ 16 ∨ natBit d.boot.linksDown n = true → Does (.dieLinkRetry n lane spare lanes) s (fun t => Records d t.dev 0x0740 (0x0700 + n) ∧
        Shows s t { d with boot := { d.boot with linkRetry := smapSet d.boot.linkRetry key tries } })) ∧
      (16 < tries.length → natBit d.boot.linksDown n = false → Does (.dieLinkRetry n lane spare lanes) s (fun t => t.mem = s.mem ∧
        Records d t.dev 0x0740 (0x0700 + n) ∧
        (spare = true → Records d t.dev 0x0741 (0x0700 + n) ∧ t.dev.cores = d.cores ∧ t.dev.boot.linkDead = d.boot.linkDead ∧
          smapGet t.dev.boot.linkSpares n 0 = smapGet d.boot.linkSpares n 0 + 1 ∧ t.dev.boot.due = d.boot.due ++ [⟨8, 1, 0x0741, n + 8 * (lane % 64), 0, 0, true⟩]) ∧
        (spare = false → t.dev.boot.linkDead = true ∧ natBit t.dev.boot.linksDown n = true ∧ Records d t.dev 0x0742 (0x0700 + n) ∧ t.dev.boot.due = d.boot.due ∧
          ∀ k c, k < coresTotal d → c < 8 → (ctxIn t k c).st = if ctxLive (ctxIn s k c) = true then 6 else (ctxIn s k c).st)))) ∧
    (coreInService d n = true → physOf d n < 208 → 30 < natGap mv setp →
      ((coreOf d n).health.droops < 3 → Does (.vrDroop n false mv setp) s (fun t =>
        Records d t.dev 0x0E41 (0x0E00 + physOf d n) ∧
        Shows s t (modCore d n (fun k => { k with health := { k.health with droops := k.health.droops + 1 } })))) ∧
      (commitEnabled d = true → ∀ long, long = true ∨ 3 ≤ (coreOf d n).health.droops → Does (.vrDroop n long mv setp) s (fun t =>
        t.mem = s.mem ∧ Retired s t n ∧ Records d t.dev 0x0E40 (0x0E00 + physOf d n)))) ∧
    (coreInService d n = false ∨ natGap mv setp ≤ 30 → ∀ long, Does (.vrDroop n long mv setp) s (fun t => Unchanged s t)) ∧
    (physInUse d phys = true →
      let recent := ∃ x, a.lastRaise = some x ∧ gtimeNs d < x + 100000000
      (10 ≤ margin ∨ a.rise < maxRise d ∧ recent → Does (.pathDelaySample phys margin) s (fun t =>
        Becomes s t (modAge d phys (fun a => { a with margin := margin, least := some least })))) ∧
      (margin < 10 → a.rise < maxRise d → ¬recent → Does (.pathDelaySample phys margin) s (fun t => KeepsCores s t ∧
        SameRegsBut s t reportOffs ∧ Records d t.dev 0x1031 0x10FF ∧ ageOf t.dev phys = { a with
          margin := margin, least := some least, rise := min (maxRise d) (a.rise + stepMv d), lastRaise := some (gtimeNs d) })) ∧
      (margin < 10 → maxRise d ≤ a.rise → commitEnabled d = true → Does (.pathDelaySample phys margin) s (fun t => t.mem = s.mem ∧
        phys ∈ t.dev.boot.retired ∧ t.dev.boot.due = d.boot.due ++ [⟨1, 1, 0x1032, phys / 52 + 4 * (phys % 52), 0, 0, true⟩] ∧
        Records d t.dev 0x1032 0x10FF ∧
        ∀ k, coreOf t.dev k = if logicalOf d phys = some k then { coreOf d k with mapState := 1 } else coreOf d k)) ∧
      ∀ shift, Does (.ringOscillatorSample phys shift) s (fun t => Becomes s t (modAge d phys (fun a => { a with shift := shift })))) ∧
    (physInUse d phys = false → Does (.pathDelaySample phys margin) s (fun t => Unchanged s t)) ∧
    (∀ margins drifts trends,
      (d.boot.opSeconds / 86400 ≤ d.boot.daysDone ∨ d.boot.dayHeld ≠ none → Does (.ageingRecord margins drifts trends) s (fun t => Unchanged s t)) ∧
      (d.boot.daysDone < d.boot.opSeconds / 86400 → d.boot.dayHeld = none →
        (d.pwr.st = 3 → Does (.ageingRecord margins drifts trends) s (fun t =>
          Becomes s t { d with boot := { d.boot with dayHeld := some (ageRecord d drifts, trends) } })) ∧
        (d.pwr.st ≠ 3 → Does (.ageingRecord margins drifts trends) s (fun t => t.mem = s.mem ∧ t.dev.boot.day = [] ∧
          t.dev.boot.daysDone = d.boot.opSeconds / 86400 % 2 ^ 32 ∧ (∀ k, (coreOf t.dev k).health.droops = 0) ∧
          (∃ b, b.length = 4096 ∧ bytesNat b 0 2 = 1 ∧ bytesNat b 4 4 = d.boot.opSeconds / 86400 % 2 ^ 32 ∧
            t.dev.boot.ageLog = (b :: d.boot.ageLog).take 4096) ∧
          (∀ x, a.least = some x →
            (x < Int.ofNat (raisePs d) → a.rise + stepMv d ≤ maxRise d → (ageOf t.dev phys).rise = a.rise + stepMv d) ∧
            (Int.ofNat (lowerPs d) ≤ x → (ageOf t.dev phys).rise = if 6 ≤ a.above then a.rise - stepMv d else a.rise))))))

/-- Stacks and scrubs: a stack at WARM or above is throttled one step, further after each DWELL, and back after a DWELL below WARM -
HYST; at 105 °C the package trips; a window serves reserved lines first; a scrub reads the next line, corrects one or two symbols and counts it, finds three
uncorrectable and poisons the line, and a scratchpad's meets the errors of its row alone; a channel with eight bad lines in a day is retired (R217, R220, R237 to R240, R245 to R248, R547). -/
def Obligations.StacksThrottleAndScrub : Prop :=
  ∀ (k temp reserved general core w bits pc : Nat) (syms : List (Nat × Nat)) (errs : List MemErr) (s : State),
    let d := s.dev
    let x := stackOf d k
    let per := linesPerPc d
    let at_ := 64 * k + x.scrubLine / per
    let mark := at_ * 0x30000000 + x.scrubLine % per * 64
    let wrong := changedPlaces (codeWord (memBytes s.mem mark 64) (s.mem.poison.contains mark)) (smapGet s.mem.flaws mark [] ++ syms)
    let row := (coreOf d core).health.scrubRow
    (k < 20 → d.pwr.resetHeld = none →
      (temp < 105 → Does (.stackTempSample k temp) s (fun t => KeepsCores s t ∧ SameRegsBut s t reportOffs ∧
        (stackOf t.dev k).temp = temp ∧ (stackOf t.dev k).maxTemp = max x.maxTemp temp ∧
        (stackOf t.dev k).step = (if x.step = 0 ∧ stackWarm d ≤ temp then 1 else x.step) ∧
        (x.step = 0 → stackWarm d ≤ temp → Records d t.dev 0x0540 (0x0500 + k)))) ∧
      (105 ≤ temp → x.step ≠ 0 → d.pwr.tripped = false → Does (.stackTempSample k temp) s (fun t =>
        Trips s t (2 + 16 * k + 4096 * min temp 4095)))) ∧
    (k < 20 →
      (x.step = 1 ∨ x.step = 2 → stackWarm d ≤ x.temp → x.since + stackDwell d ≤ gtimeNs d → Does (.stackThrottleDwell k) s (fun t =>
        Becomes s t (putStep d k (x.step + 1)))) ∧
      (∀ c, x.coolSince = some c → c + stackDwell d ≤ gtimeNs d → x.temp < stackWarm d → 1 ≤ x.step →
        Does (.stackThrottleDwell k) s (fun t => Becomes s t (putStep d k (x.step - 1)))) ∧
      (gtimeNs d < x.since + stackDwell d → (∀ c, x.coolSince = some c → gtimeNs d < c + stackDwell d) →
        Does (.stackThrottleDwell k) s (fun t => Unchanged s t)) ∧
      (let b := (if x.classB = true then 5600 else 6400) * (4 - x.step) / 4
       Does (.throttleWindow k reserved general) s (fun t => Becomes s t (modStack d k (fun x =>
          { x with reserved := min reserved b, general := min general (b - min reserved b) }))))) ∧
    (k < 20 → x.step < 2 → d.pwr.st ≤ 1 → x.failed = false → 0 < per →
      (wrong = [] ∨ mark ∈ s.mem.poison ∨ Machine.pcRetired d at_ = true → Does (.stackScrub k syms) s (fun t =>
        Becomes s t (modStack d k (fun x => { x with
          scrubLine := if x.scrubLine + 1 = 64 * per then 0 else x.scrubLine + 1
          passes := if x.scrubLine + 1 = 64 * per then satAdd32 x.passes 1 else x.passes })))) ∧
      (mark ∉ s.mem.poison → Machine.pcRetired d at_ = false → x.scrubLine < 64 * per →
        (wrong.length = 1 ∨ wrong.length = 2 → Does (.stackScrub k syms) s (fun t => t.dev.cores = d.cores ∧ SameMem s t ∧
          smapGet t.mem.flaws mark [] = [] ∧ Counts d t.dev (stackOff k + 4))) ∧
        (wrong.length = 3 → Does (.stackScrub k syms) s (fun t => t.dev.cores = d.cores ∧ Counts d t.dev (stackOff k + 8) ∧
          mark ∈ t.mem.poison ∧ SameMemBut s t mark 64 ∧ Records d t.dev 0x0641 (0x0600 + k))) ∧
        (4 ≤ wrong.length → Does (.stackScrub k syms) s (fun t => t.dev.cores = d.cores ∧
          (Counts d t.dev (stackOff k + 4) ∨ Counts d t.dev (stackOff k + 8)))))) ∧
    (2 ≤ x.step ∨ 2 ≤ d.pwr.st ∨ x.failed = true → Does (.stackScrub k syms) s (fun t => Unchanged s t)) ∧
    (coreInService d core = true → d.pwr.st ≤ 1 →
      ((∀ e ∈ errs, inRow core row e = false) → Does (.spadScrub core errs) s (fun t => Becomes s t (modCore d core (fun k =>
        { k with health := { k.health with scrubRow := (row + 1) % 2048 } })))) ∧
      (w / 384 = row → Does (.spadScrub core [.spad core w 1]) s (fun t => t.mem = s.mem ∧
        Counts d t.dev (coreOff core 0x680) ∧ regNat t.dev (coreOff core 0x688) = w % 2 ^ 20)) ∧
      (w / 384 = row → 2 ≤ bits → spadBase core + 8 * w ∉ s.mem.poison → Does (.spadScrub core [.spad core w bits]) s (fun t =>
        Counts d t.dev (coreOff core 0x684) ∧ Records d t.dev 0x0441 (0x0400 + core) ∧
        ∀ y, y ∈ t.mem.poison ↔ y = spadBase core + 8 * w ∨ y ∈ s.mem.poison))) ∧
    (coreInService d core = false ∨ 2 ≤ d.pwr.st → Does (.spadScrub core errs) s (fun t => Unchanged s t)) ∧
    (pc < 1280 → Machine.pcRetired d pc = false →
      (8 ≤ ueWithinDay d pc ∨ 100000 < ceLastHour d pc → Does (.pcRetired pc) s (fun t => KeepsCores s t ∧
        Machine.pcRetired t.dev pc = true ∧ Records d t.dev 0x0643 (0x0600 + pc / 64) ∧
        t.dev.boot.due = d.boot.due ++ [⟨3, 1, 0x0643, pc, 0, 0, true⟩])) ∧
      (ueWithinDay d pc < 8 → ceLastHour d pc ≤ 100000 → Does (.pcRetired pc) s (fun t => Unchanged s t)))

/-- The monitor: each command is answered with its lines and OK, or with one error, in the order length, characters, check code, word;
what it reads changes nothing, and what it writes needs the burgee and a check code; claims, quotes and updates wait for their
verification; a line received meanwhile is kept; BAUD sets the rate, which changes 1 ms later and goes back after 5 s without a valid
line (R553 to R564). -/
def Obligations.MonitorCommands : Prop :=
  ∀ (line : List Byte) (chk : Bool) (args : List (List Nat)) (s : State),
    let d := s.dev
    let o := d.own
    let v := { d with mon := { d.mon with revert := none } }
    let due := fun (e : Dev) (kind : Nat) => { e with mon := { e.mon with due := some (kind, chk) } }
    let cs := editLine line
    let wide := cs.length ≤ 512
    let plain := cs.all (fun x => decide (32 ≤ x ∧ x ≤ 126)) = true
    let right := (monParse cs).right = true
    let drops := fun (t : State) => t.mem = s.mem ∧ t.dev.cores = d.cores ∧ t.dev.own = o ∧
      SameRegsBut s t [0x100080, 0x100090, 0x100098, 0xA004] ∧ Counts d t.dev 0x100080 ∧ Counts d t.dev 0x100090 ∧
      Counts d t.dev 0xA004
    (∀ e ∈ [("HELP", "", Instr.monHelp line), ("ID", "", .monId line), ("PEN", "", .monPen line), ("RD", "", .monRd line),
        ("WR", "", .monWr line), ("DUMP", "", .monDump line), ("SHARD", "", .monShard line), ("BUNT", "", .monBunt line),
        ("LEDGER", "", .monLedger line), ("BEAT", "", .monBeat line), ("TEMP", "", .monTemp line), ("FAULTS", "", .monFaults line),
        ("CLAIM", "GO", .monClaimGo line), ("BURGEE", "RENEW", .monBurgeeRenew line), ("QUOTE", "", .monQuote line),
        ("STAGE", "", .monStage line), ("FWUPD", "", .monFwupd line), ("VARIANT", "", .monVariant line),
        ("KEYUPD", "", .monKeyupd line), ("BAUD", "", .monBaud line)],
      (MonHears s line e.1 e.2.1 chk →
        (¬wide → Does e.2.2 s (fun t => Errs s t d false "08" "LONG")) ∧
        (wide → ¬plain → Does e.2.2 s (fun t => Errs s t d chk "01" "SYNTAX")) ∧
        (wide → plain → ¬right → Does e.2.2 s (fun t => Errs s t d chk "02" "CHECK"))) ∧
      (cs ≠ [] → monMine cs (monParse cs) e.1 e.2.1 = true → d.mon.due ≠ none ∨ d.mon.buf ≠ [] → d.pwr.aonLost = false →
        d.pwr.st = 0 → d.pwr.entering = false → monRuns d = true → Does e.2.2 s (fun t => Becomes s t (monKeep line d))) ∧
      (monMine cs (monParse cs) e.1 e.2.1 = false → Does e.2.2 s (fun t => Unchanged s t))) ∧
    (∀ e ∈ [("WR", Instr.monWr line), ("STAGE", .monStage line), ("FWUPD", .monFwupd line), ("VARIANT", .monVariant line),
        ("KEYUPD", .monKeyupd line)], MonHears s line e.1 "" chk → wide → plain → right → chk = false →
      Does e.2 s (fun t => Errs s t d false "07" "NEEDCHECK")) ∧
    (∀ e ∈ [("WR", Instr.monWr line), ("DUMP", .monDump line), ("SHARD", .monShard line), ("BUNT", .monBunt line),
        ("LEDGER", .monLedger line), ("BEAT", .monBeat line), ("TEMP", .monTemp line), ("FAULTS", .monFaults line),
        ("KEYUPD", .monKeyupd line)], MonHears s line e.1 "" chk → wide → plain → right → chk = true → d.mon.mode = 0 →
      Does e.2 s (fun t => Errs s t d true "04" "ROM")) ∧
    (∀ e ∈ [("HELP", Instr.monHelp line, monWords.map (fun r => [.txt "=", .txt r.word])), ("ID", .monId line, [idLine d]),
        ("BEAT", .monBeat line, beatLines d), ("TEMP", .monTemp line, tempLines d)], MonTakes s line e.1 "" chk args →
      (args = [] → Does e.2.1 s (fun t => Says s t v chk e.2.2)) ∧
      (args ≠ [] → Does e.2.1 s (fun t => Errs s t d chk "01" "SYNTAX"))) ∧
    (MonTakes s line "PEN" "" chk args →
      (args = [] → Does (.monPen line) s (fun t => Says s t v chk ((rangeFrom 0 10).map (penLine d)))) ∧
      (∀ i, numArgs 0 1 args = some [i] →
        (i ≤ 9 → Does (.monPen line) s (fun t =>
          Says s t v chk [[.txt "=P", .dec i, .raw (padTo 64 (smapGet d.boot.pennants i []))]])) ∧
        (9 < i → Does (.monPen line) s (fun t => Errs s t v chk "06" "RANGE")))) ∧
    (MonTakes s line "RD" "" chk args → ∀ off, numArgs 1 2 args = some [off] →
      (accessGood off 4 = false → Does (.monRd line) s (fun t => Errs s t v chk "06" "RANGE")) ∧
      (accessGood off 4 = true → d.mon.mode ≠ 0 ∨ bar0Region off ∈ [0, 1, 8] → Does (.monRd line) s (fun t =>
        Says s t v chk [[.txt "=", .hex 7 off, .hex 8 (peekWidth v s.mem off 4)]])) ∧
      (accessGood off 4 = true → d.mon.mode = 0 → bar0Region off ∉ [0, 1, 8] →
        Does (.monRd line) s (fun t => Errs s t v chk "04" "ROM"))) ∧
    (∀ e ∈ [("DUMP", Instr.monDump line, (numArgs 2 2 args).map (fun a => dumpRead v s.mem (listGet a 0 0) (listGet a 1 0))),
        ("SHARD", .monShard line, (numArgs 4 4 args).map (fun a => if 256 < listGet a 3 0 then (6, [])
          else shardRead v s.mem (listGet a 0 0) (listGet a 1 0) (listGet a 2 0) (listGet a 3 0)))],
      MonTakes s line e.1 "" chk args → ∀ r, e.2.2 = some r →
      (r.1 = 0 → Does e.2.1 s (fun t => Says s t v chk [[.txt "=", .raw r.2]])) ∧
      (r.1 = 6 → Does e.2.1 s (fun t => Errs s t v chk "06" "RANGE")) ∧
      (r.1 = 9 → Does e.2.1 s (fun t => Errs s t v chk "09" "POISON"))) ∧
    (MonTakes s line "BUNT" "" chk args →
      (args = [] → Does (.monBunt line) s (fun t => Says s t v chk (buntLines (padTo 2048 d.fab.lastMap)))) ∧
      (∀ w, args = [w] → isWord w "HEX" = true → Does (.monBunt line) s (fun t => Says s t v chk
        ((rangeFrom 0 16).map (fun i => [.txt "=", .raw (((padTo 2048 d.fab.lastMap).drop (128 * i)).take 128)]))))) ∧
    (MonTakes s line "LEDGER" "" chk args → ∀ a, numArgs 0 2 args = some a →
      (listGet a 1 16 ≤ 64 → Does (.monLedger line) s (fun t => Says s t v chk
        ([.txt "=LEDGER", .dec d.boot.ledger.length, .dec (decide (8192 ≤ d.boot.ledger.length)).toNat,
            .dec (d.boot.ledger.any (fun e => !e.good)).toNat] ::
          ((d.boot.ledger.zipIdx.drop (listGet a 0 0)).take (listGet a 1 16)).map (fun e => ledgerLine e.2 e.1)))) ∧
      (64 < listGet a 1 16 → Does (.monLedger line) s (fun t => Errs s t v chk "06" "RANGE"))) ∧
    (MonTakes s line "FAULTS" "" chk args → ∀ a, numArgs 0 1 args = some a →
      (1 ≤ listGet a 0 8 → listGet a 0 8 ≤ 64 → Does (.monFaults line) s (fun t => Says s t v chk (faultLines d (listGet a 0 8)))) ∧
      (64 < listGet a 0 8 → Does (.monFaults line) s (fun t => Errs s t v chk "06" "RANGE"))) ∧
    (MonTakes s line "CLAIM" "" chk args → monMine cs (monParse cs) "CLAIM" "GO" = false → ∀ off bs, numBytes args = some (off, bs) →
      (bs.length ≤ 200 → off + bs.length ≤ 0x4000 → Does (.monClaimChunk line) s (fun t => Says s t
        { v with own := { o with claimBuf := putBytes o.claimBuf (0xC000 + off) bs } } chk [])) ∧
      (200 < bs.length ∨ 0x4000 < off + bs.length → Does (.monClaimChunk line) s (fun t => Errs s t v chk "06" "RANGE"))) ∧
    (MonTakes s line "CLAIM" "GO" chk args → args.length = 1 →
      (4 ∉ o.verifying → Does (.monClaimGo line) s (fun t => Becomes s t (due { v with
        own := { o with verifying := o.verifying ++ [4], claims := smapSet o.claims 4 (1, 0) } } 1))) ∧
      (4 ∈ o.verifying → Does (.monClaimGo line) s (fun t => Errs s t v chk "10" "BUSY"))) ∧
    (MonTakes s line "BURGEE" "RENEW" chk args → args.length = 1 →
      (isOwner d 4 = true → Does (.monBurgeeRenew line) s (fun t => Says s t { v with own := { o with leaseLeft := leaseMs d } } chk [])) ∧
      (isOwner d 4 = false → Does (.monBurgeeRenew line) s drops)) ∧
    (MonTakes s line "BURGEE" "" chk args → ∀ w, args = [w] → isWord w "RELEASE" = true →
      (isOwner d 4 = true → Does (.monBurgeeRelease line) s (fun t => Shows s t
        { d with own := { o with owner := 0, st := 0, successor := 0, succNode := 0, ownerNode := 0, leaseLeft := 0 } })) ∧
      (isOwner d 4 = false → Does (.monBurgeeRelease line) s drops)) ∧
    (MonTakes s line "QUOTE" "" chk args → ∀ w bs, args = [w] → hexBytesOf w = some bs →
      (bs.length = 32 → 4 ∉ o.attestQueue → Does (.monQuote line) s (fun t => Becomes s t (due { v with own := { o with
        attest := putBytes o.attest 0x6000 bs, attestQueue := o.attestQueue ++ [4], attestSt := smapSet o.attestSt 4 1 } } 2))) ∧
      (bs.length = 32 → 4 ∈ o.attestQueue → Does (.monQuote line) s (fun t => Errs s t v chk "10" "BUSY")) ∧
      (bs.length ≠ 32 → Does (.monQuote line) s (fun t => Errs s t v chk "06" "RANGE"))) ∧
    (MonTakes s line "WR" "" chk args → ∀ off x, numArgs 2 3 args = some [off, x] →
      (accessGood off 4 = false ∨ 2 ^ 32 ≤ x → Does (.monWr line) s (fun t => Errs s t v chk "06" "RANGE")) ∧
      (accessGood off 4 = true → x < 2 ^ 32 → exemptWrite v 4 off 4 x = none →
        (isOwner d 4 = false → Does (.monWr line) s drops) ∧
        (isOwner d 4 = true → off ∈ [0x9000, 0x9300, 0x100008, 0x2000018, 0x3000004, 0x3800008, 0x3E00004, 0x3E00008] →
          ∀ r, regRow off = some r → Does (.monWr line) s (fun t => SameMem s t ∧ t.dev.cores = d.cores ∧ SameRegsBut s t [off] ∧
            t.dev.out = d.out ++ [.monLine [.txt "OK"] (if chk = true then some 0x9A else none)] ∧
            ∀ i, i < 32 → regBit t.dev off i =
              (if natBit r.rw i then natBit x i else regBit d off i && !(natBit r.w1c i && natBit x i)))))) ∧
    (MonTakes s line "STAGE" "" chk args → ∀ a bs, numBytes args = some (a, bs) →
      (stageCode v a bs.length = 6 → Does (.monStage line) s (fun t => Errs s t v chk "06" "RANGE")) ∧
      (stageCode v a bs.length = 0 → isOwner d 4 = false → Does (.monStage line) s drops) ∧
      (stageCode v a bs.length = 0 → isOwner d 4 = true → Does (.monStage line) s (fun t => t.dev = monSaid v chk [[.txt "OK"]] ∧
        (∀ k, k ∉ (rangeFrom a bs.length).map memKey → memByte t.mem k = memByte s.mem k) ∧
        (rangeBad d s.mem a bs.length = false → readAt t.mem a bs.length = bs)))) ∧
    (∀ e ∈ [("FWUPD", Instr.monFwupd line, 0x3C00020, 3, o.fwUpd, { o with fwUpd := 1 }),
        ("VARIANT", .monVariant line, 0x3C00070, 4, o.varUpd, { o with varUpd := 1 }),
        ("KEYUPD", .monKeyupd line, 0x3C00040, 5, o.keyUpd, { o with keyUpd := 1 })],
      MonTakes s line e.1 "" chk args → ∀ a, numArgs 1 1 args = some [a] →
      (2 ^ 42 ≤ a → Does e.2.1 s (fun t => Errs s t v chk "06" "RANGE")) ∧
      (a < 2 ^ 42 → isOwner d 4 = false → Does e.2.1 s drops) ∧
      (a < 2 ^ 42 → isOwner d 4 = true → e.2.2.2.2.1 = 1 → Does e.2.1 s (fun t => Errs s t v chk "10" "BUSY")) ∧
      (a < 2 ^ 42 → isOwner d 4 = true → e.2.2.2.2.1 ≠ 1 → Does e.2.1 s (fun t => t.mem = s.mem ∧ t.dev.cores = d.cores ∧
        t.dev.out = d.out ∧ SameRegsBut s t [e.2.2.1, e.2.2.1 + 4] ∧ regNat64 t.dev e.2.2.1 = a ∧
        t.dev.own = e.2.2.2.2.2 ∧ t.dev.mon.due = some (e.2.2.2.1, chk)))) ∧
    (MonTakes s line "BAUD" "" chk args → ∀ n, numArgs 1 1 args = some [n] →
      (n ≤ 7 → Does (.monBaud line) s (fun t => Says s t { v with
        mon := { v.mon with baudNext := some (n, d.boot.aonNs + 1000000) } } chk [])) ∧
      (7 < n → Does (.monBaud line) s (fun t => Errs s t v chk "06" "RANGE"))) ∧
    (∀ t0, d.mon.revert = some t0 →
      (t0 + 5000000000 ≤ d.boot.aonNs → Does .monBaudRevert s (fun t =>
        Becomes s t { d with mon := { d.mon with baud := 0, revert := none } })) ∧
      (d.boot.aonNs < t0 + 5000000000 → Does .monBaudRevert s (fun t => Unchanged s t))) ∧
    (d.mon.revert = none → Does .monBaudRevert s (fun t => Unchanged s t)) ∧
    (∀ w, (monParse cs).toks = w :: args → monRow w = none → wide → plain → right → (monParse cs).check = chk → d.mon.due = none →
      d.mon.buf = [] → d.mon.queue = [] → d.pwr.aonLost = false → d.pwr.st = 0 → d.pwr.entering = false → monRuns d = true →
      Does (.monUnknown line) s (fun t => Errs s t d chk "03" "UNKNOWN"))

/-- What reset leaves: no command waits; every byte of memory reads 0 (assumption log 2, DESIGN CHOICE) and none is poisoned; START_COUNT reads 1
(assumption log 3, DESIGN CHOICE), and any other register word its value at reset; the burgee is VACANT; the measurement log is empty, from 64 zero
bytes; no context is started, descriptor registers and codebook entries read 0 and scale entries 1.0, and both accumulator sets are
finite zeros with tag NONE; the ROM monitor runs at 115,200 baud; the device is in P0 at stage 0, with time FREE (R39, R87, R149, R257,
R440, R492, R524, R551, R553). -/
def Obligations.ResetValues : Prop :=
  let d := State.reset.dev
  State.reset.pending = [] ∧ (∀ a, memByte State.reset.mem a = 0#8) ∧ State.reset.mem.poison = [] ∧
    (∀ off, regNat d off = if off = 0x804 then 1 else ((regRow off).map (fun r => r.reset)).getD 0) ∧
    d.own.owner = 0 ∧ d.own.st = 0 ∧ d.own.verifying = [] ∧ d.own.log = [] ∧ d.own.logCount = 0 ∧
    d.own.logAcc = List.replicate 64 0#8 ∧
    (∀ n, let k := coreOf d n
      (∀ i, descOf k i = 0#512) ∧ (∀ c, (ctxOf k c).st = 0) ∧ (∀ g b e, bookEntry k g b e = 0) ∧
      (∀ b e, scaleEntry k b e = 0x3F800000#32) ∧ k.ops = [] ∧ k.shadowHeld = false ∧
      ∀ a ∈ [activeOf k, shadowOf k], a.tag = 0 ∧ ∀ i j, cellAt a i j = .int 0) ∧
    d.mon.mode = 0 ∧ d.mon.baud = 0 ∧ d.mon.queue = [] ∧ d.pwr.st = 0 ∧ d.pwr.tripped = false ∧ bootStage d = 0 ∧ bootReady d = false ∧
    d.tm.st = 0 ∧ d.tm.gt = 0 ∧ d.ni.inject = [] ∧ d.ni.streams = [] ∧ d.ni.colls = [] ∧ d.upd.shards = [] ∧ d.out = []
end

