-- ==== Sys2Proof/Laws/Maps.lean ====
section
/-! SUPPORT. What the sparse maps read after a write, and the lengths of byte lists. -/

namespace Sys2Proof.Machine

@[simp] theorem smapGet_smapSet_same {α : Type} (m : SMap α) (k : Nat) (v d : α) :
    smapGet (smapSet m k v) k d = v := by
  induction m with
  | nil => simp [smapSet, smapGet]
  | cons e t ih =>
    obtain ⟨k', v'⟩ := e
    unfold smapSet
    split
    · simp [smapGet]
    · split
      · simp [smapGet]
      · rename_i h2
        simp [smapGet, Ne.symm h2, ih]

theorem smapGet_smapSet_other {α : Type} (m : SMap α) (k j : Nat) (v d : α) (h : j ≠ k) :
    smapGet (smapSet m k v) j d = smapGet m j d := by
  induction m with
  | nil => simp [smapSet, smapGet, Ne.symm h]
  | cons e t ih =>
    obtain ⟨k', v'⟩ := e
    unfold smapSet
    split
    · simp [smapGet, Ne.symm h]
    · split
      · rename_i h2
        subst h2
        simp [smapGet, Ne.symm h]
      · simp only [smapGet, ih]

theorem smapGet_smapSet {α : Type} (m : SMap α) (k j : Nat) (v d : α) :
    smapGet (smapSet m k v) j d = if j = k then v else smapGet m j d := by
  split
  · rename_i h; subst h; simp
  · rename_i h; exact smapGet_smapSet_other m k j v d h

theorem smapSet_smapSet {α : Type} (m : SMap α) (k : Nat) (a b : α) :
    smapSet (smapSet m k a) k b = smapSet m k b := by
  induction m with
  | nil => simp [smapSet]
  | cons e t ih =>
    obtain ⟨k', v⟩ := e
    by_cases h1 : k < k'
    · simp [smapSet, h1]
    · by_cases h2 : k = k'
      · simp [smapSet, h2]
      · simp [smapSet, h1, h2, ih]

theorem smapGet_smapDrop {α : Type} (m : SMap α) (p : Nat → Bool) (j : Nat) (d : α) :
    smapGet (smapDrop m p) j d = if p j then d else smapGet m j d := by
  induction m with
  | nil => simp [smapDrop, smapGet]
  | cons e t ih =>
    obtain ⟨k', v'⟩ := e
    simp only [smapDrop, List.filter_cons] at ih ⊢
    by_cases hk : k' = j
    · subst hk
      by_cases hp : p k' <;> simp_all [smapGet]
    · by_cases hp : p k' <;> simp_all [smapGet]

@[simp] theorem leBytes_length (k x : Nat) : (leBytes k x).length = k := by
  induction k generalizing x with
  | zero => rfl
  | succ k ih => simp [leBytes, ih]

@[simp] theorem leNat_leBytes (k x : Nat) : leNat (leBytes k x) = x % 256 ^ k := by
  induction k generalizing x with
  | zero => simp [leBytes, leNat, Nat.mod_one]
  | succ k ih =>
    have h1 : x % 256 ^ (k + 1) = x % 256 + 256 * (x / 256 % 256 ^ k) := by
      rw [Nat.pow_succ, Nat.mul_comm, Nat.mod_mul]
    simp only [leBytes, leNat, ih, h1, BitVec.toNat_ofNat]

@[simp] theorem rangeFrom_length (lo k : Nat) : (rangeFrom lo k).length = k := by
  induction k generalizing lo with
  | zero => rfl
  | succ k ih => simp [rangeFrom, ih]

theorem mem_rangeFrom (lo k x : Nat) : x ∈ rangeFrom lo k ↔ lo ≤ x ∧ x < lo + k := by
  induction k generalizing lo with
  | zero => simp [rangeFrom]
  | succ k ih => simp only [rangeFrom, List.mem_cons, ih]; omega

end Sys2Proof.Machine
end

