-- ==== Sys2Proof/Laws/State.lean ====
section
/-! SUPPORT. One lemma per field and named update of the state. -/

namespace Sys2Proof.Machine

@[simp] theorem finish_eq (s : State) (d : Dev) (ops : List MemOp) :
    finish s (d, ops) = .next { pending := s.pending, dev := d, mem := memApplyAll s.mem ops } := rfl
@[simp] theorem finishDev_eq (s : State) (d : Dev) :
    finishDev s d = .next { pending := s.pending, dev := d, mem := s.mem } := rfl
@[simp] theorem memApplyAll_nil (m : Mem) : memApplyAll m [] = m := rfl
@[simp] theorem memApplyAll_cons (m : Mem) (op : MemOp) (t : List MemOp) :
    memApplyAll m (op :: t) = memApplyAll (memApply m op) t := rfl

theorem memApplyAll_append (m : Mem) (a b : List MemOp) :
    memApplyAll m (a ++ b) = memApplyAll (memApplyAll m a) b := by
  induction a generalizing m with
  | nil => rfl
  | cons x t ih => simp [ih]

/-- Every command that ends in `finish` answers a next state and leaves the queue alone. -/
theorem finish_next (s : State) (r : Dev × List MemOp) :
    finish s r = .next { pending := s.pending, dev := r.1, mem := memApplyAll s.mem r.2 } := rfl

/-! ### Register words -/

@[simp] theorem regPut_cores (d : Dev) (off : Nat) (v : W32) : (regPut d off v).cores = d.cores := rfl
@[simp] theorem regPut_boot (d : Dev) (off : Nat) (v : W32) : (regPut d off v).boot = d.boot := rfl
@[simp] theorem regPut_tm (d : Dev) (off : Nat) (v : W32) : (regPut d off v).tm = d.tm := rfl
@[simp] theorem regPut_stk (d : Dev) (off : Nat) (v : W32) : (regPut d off v).stk = d.stk := rfl
@[simp] theorem regPut_mm (d : Dev) (off : Nat) (v : W32) : (regPut d off v).mm = d.mm := rfl
@[simp] theorem regPut_fab (d : Dev) (off : Nat) (v : W32) : (regPut d off v).fab = d.fab := rfl
@[simp] theorem regPut_ni (d : Dev) (off : Nat) (v : W32) : (regPut d off v).ni = d.ni := rfl
@[simp] theorem regPut_upd (d : Dev) (off : Nat) (v : W32) : (regPut d off v).upd = d.upd := rfl
@[simp] theorem regPut_opt (d : Dev) (off : Nat) (v : W32) : (regPut d off v).opt = d.opt := rfl
@[simp] theorem regPut_own (d : Dev) (off : Nat) (v : W32) : (regPut d off v).own = d.own := rfl
@[simp] theorem regPut_host (d : Dev) (off : Nat) (v : W32) : (regPut d off v).host = d.host := rfl
@[simp] theorem regPut_pwr (d : Dev) (off : Nat) (v : W32) : (regPut d off v).pwr = d.pwr := rfl
@[simp] theorem regPut_mon (d : Dev) (off : Nat) (v : W32) : (regPut d off v).mon = d.mon := rfl
@[simp] theorem regPut_rcd (d : Dev) (off : Nat) (v : W32) : (regPut d off v).rcd = d.rcd := rfl
@[simp] theorem regPut_out (d : Dev) (off : Nat) (v : W32) : (regPut d off v).out = d.out := rfl
@[simp] theorem regPut_free (d : Dev) (off : Nat) (v : W32) : (regPut d off v).free = d.free := rfl

@[simp] theorem regGet_regPut_same (d : Dev) (off : Nat) (v : W32) : regGet (regPut d off v) off = v := by
  simp [regGet, regPut]

theorem regGet_regPut_other (d : Dev) (off j : Nat) (v : W32) (h : j ≠ off) :
    regGet (regPut d off v) j = regGet d j := by
  simp [regGet, regPut, smapGet_smapSet_other _ _ _ _ _ h]

theorem regNat_regPutNat_same (d : Dev) (off v : Nat) : regNat (regPutNat d off v) off = v % 2 ^ 32 := by
  simp [regNat, regPutNat]

theorem regNat_regPutNat_other (d : Dev) (off j v : Nat) (h : j ≠ off) :
    regNat (regPutNat d off v) j = regNat d j := by
  simp [regNat, regPutNat, regGet_regPut_other _ _ _ _ h]

@[simp] theorem regPutNat_cores (d : Dev) (off v : Nat) : (regPutNat d off v).cores = d.cores := rfl
@[simp] theorem regBump_cores (d : Dev) (off k : Nat) : (regBump d off k).cores = d.cores := rfl
@[simp] theorem regPutNat_boot (d : Dev) (off v : Nat) : (regPutNat d off v).boot = d.boot := rfl
@[simp] theorem regBump_boot (d : Dev) (off k : Nat) : (regBump d off k).boot = d.boot := rfl
@[simp] theorem regPutNat_tm (d : Dev) (off v : Nat) : (regPutNat d off v).tm = d.tm := rfl
@[simp] theorem regBump_tm (d : Dev) (off k : Nat) : (regBump d off k).tm = d.tm := rfl
@[simp] theorem regPutNat_stk (d : Dev) (off v : Nat) : (regPutNat d off v).stk = d.stk := rfl
@[simp] theorem regBump_stk (d : Dev) (off k : Nat) : (regBump d off k).stk = d.stk := rfl
@[simp] theorem regPutNat_mm (d : Dev) (off v : Nat) : (regPutNat d off v).mm = d.mm := rfl
@[simp] theorem regBump_mm (d : Dev) (off k : Nat) : (regBump d off k).mm = d.mm := rfl
@[simp] theorem regPutNat_fab (d : Dev) (off v : Nat) : (regPutNat d off v).fab = d.fab := rfl
@[simp] theorem regBump_fab (d : Dev) (off k : Nat) : (regBump d off k).fab = d.fab := rfl
@[simp] theorem regPutNat_ni (d : Dev) (off v : Nat) : (regPutNat d off v).ni = d.ni := rfl
@[simp] theorem regBump_ni (d : Dev) (off k : Nat) : (regBump d off k).ni = d.ni := rfl
@[simp] theorem regPutNat_upd (d : Dev) (off v : Nat) : (regPutNat d off v).upd = d.upd := rfl
@[simp] theorem regBump_upd (d : Dev) (off k : Nat) : (regBump d off k).upd = d.upd := rfl
@[simp] theorem regPutNat_opt (d : Dev) (off v : Nat) : (regPutNat d off v).opt = d.opt := rfl
@[simp] theorem regBump_opt (d : Dev) (off k : Nat) : (regBump d off k).opt = d.opt := rfl
@[simp] theorem regPutNat_own (d : Dev) (off v : Nat) : (regPutNat d off v).own = d.own := rfl
@[simp] theorem regBump_own (d : Dev) (off k : Nat) : (regBump d off k).own = d.own := rfl
@[simp] theorem regPutNat_host (d : Dev) (off v : Nat) : (regPutNat d off v).host = d.host := rfl
@[simp] theorem regBump_host (d : Dev) (off k : Nat) : (regBump d off k).host = d.host := rfl
@[simp] theorem regPutNat_pwr (d : Dev) (off v : Nat) : (regPutNat d off v).pwr = d.pwr := rfl
@[simp] theorem regBump_pwr (d : Dev) (off k : Nat) : (regBump d off k).pwr = d.pwr := rfl
@[simp] theorem regPutNat_mon (d : Dev) (off v : Nat) : (regPutNat d off v).mon = d.mon := rfl
@[simp] theorem regBump_mon (d : Dev) (off k : Nat) : (regBump d off k).mon = d.mon := rfl
@[simp] theorem regPutNat_rcd (d : Dev) (off v : Nat) : (regPutNat d off v).rcd = d.rcd := rfl
@[simp] theorem regBump_rcd (d : Dev) (off k : Nat) : (regBump d off k).rcd = d.rcd := rfl
@[simp] theorem regPutNat_out (d : Dev) (off v : Nat) : (regPutNat d off v).out = d.out := rfl
@[simp] theorem regBump_out (d : Dev) (off k : Nat) : (regBump d off k).out = d.out := rfl
@[simp] theorem regPutNat_free (d : Dev) (off v : Nat) : (regPutNat d off v).free = d.free := rfl
@[simp] theorem regBump_free (d : Dev) (off k : Nat) : (regBump d off k).free = d.free := rfl

/-! ### Cores -/

@[simp] theorem setCore_regs (d : Dev) (n : Nat) (k : Core) : (setCore d n k).regs = d.regs := rfl
@[simp] theorem modCore_regs (d : Dev) (n : Nat) (g : Core → Core) : (modCore d n g).regs = d.regs := rfl
@[simp] theorem modCtx_regs (d : Dev) (n c : Nat) (g : Ctx → Ctx) : (modCtx d n c g).regs = d.regs := rfl
@[simp] theorem setCore_boot (d : Dev) (n : Nat) (k : Core) : (setCore d n k).boot = d.boot := rfl
@[simp] theorem modCore_boot (d : Dev) (n : Nat) (g : Core → Core) : (modCore d n g).boot = d.boot := rfl
@[simp] theorem modCtx_boot (d : Dev) (n c : Nat) (g : Ctx → Ctx) : (modCtx d n c g).boot = d.boot := rfl
@[simp] theorem setCore_tm (d : Dev) (n : Nat) (k : Core) : (setCore d n k).tm = d.tm := rfl
@[simp] theorem modCore_tm (d : Dev) (n : Nat) (g : Core → Core) : (modCore d n g).tm = d.tm := rfl
@[simp] theorem modCtx_tm (d : Dev) (n c : Nat) (g : Ctx → Ctx) : (modCtx d n c g).tm = d.tm := rfl
@[simp] theorem setCore_stk (d : Dev) (n : Nat) (k : Core) : (setCore d n k).stk = d.stk := rfl
@[simp] theorem modCore_stk (d : Dev) (n : Nat) (g : Core → Core) : (modCore d n g).stk = d.stk := rfl
@[simp] theorem modCtx_stk (d : Dev) (n c : Nat) (g : Ctx → Ctx) : (modCtx d n c g).stk = d.stk := rfl
@[simp] theorem setCore_mm (d : Dev) (n : Nat) (k : Core) : (setCore d n k).mm = d.mm := rfl
@[simp] theorem modCore_mm (d : Dev) (n : Nat) (g : Core → Core) : (modCore d n g).mm = d.mm := rfl
@[simp] theorem modCtx_mm (d : Dev) (n c : Nat) (g : Ctx → Ctx) : (modCtx d n c g).mm = d.mm := rfl
@[simp] theorem setCore_fab (d : Dev) (n : Nat) (k : Core) : (setCore d n k).fab = d.fab := rfl
@[simp] theorem modCore_fab (d : Dev) (n : Nat) (g : Core → Core) : (modCore d n g).fab = d.fab := rfl
@[simp] theorem modCtx_fab (d : Dev) (n c : Nat) (g : Ctx → Ctx) : (modCtx d n c g).fab = d.fab := rfl
@[simp] theorem setCore_ni (d : Dev) (n : Nat) (k : Core) : (setCore d n k).ni = d.ni := rfl
@[simp] theorem modCore_ni (d : Dev) (n : Nat) (g : Core → Core) : (modCore d n g).ni = d.ni := rfl
@[simp] theorem modCtx_ni (d : Dev) (n c : Nat) (g : Ctx → Ctx) : (modCtx d n c g).ni = d.ni := rfl
@[simp] theorem setCore_upd (d : Dev) (n : Nat) (k : Core) : (setCore d n k).upd = d.upd := rfl
@[simp] theorem modCore_upd (d : Dev) (n : Nat) (g : Core → Core) : (modCore d n g).upd = d.upd := rfl
@[simp] theorem modCtx_upd (d : Dev) (n c : Nat) (g : Ctx → Ctx) : (modCtx d n c g).upd = d.upd := rfl
@[simp] theorem setCore_opt (d : Dev) (n : Nat) (k : Core) : (setCore d n k).opt = d.opt := rfl
@[simp] theorem modCore_opt (d : Dev) (n : Nat) (g : Core → Core) : (modCore d n g).opt = d.opt := rfl
@[simp] theorem modCtx_opt (d : Dev) (n c : Nat) (g : Ctx → Ctx) : (modCtx d n c g).opt = d.opt := rfl
@[simp] theorem setCore_own (d : Dev) (n : Nat) (k : Core) : (setCore d n k).own = d.own := rfl
@[simp] theorem modCore_own (d : Dev) (n : Nat) (g : Core → Core) : (modCore d n g).own = d.own := rfl
@[simp] theorem modCtx_own (d : Dev) (n c : Nat) (g : Ctx → Ctx) : (modCtx d n c g).own = d.own := rfl
@[simp] theorem setCore_host (d : Dev) (n : Nat) (k : Core) : (setCore d n k).host = d.host := rfl
@[simp] theorem modCore_host (d : Dev) (n : Nat) (g : Core → Core) : (modCore d n g).host = d.host := rfl
@[simp] theorem modCtx_host (d : Dev) (n c : Nat) (g : Ctx → Ctx) : (modCtx d n c g).host = d.host := rfl
@[simp] theorem setCore_pwr (d : Dev) (n : Nat) (k : Core) : (setCore d n k).pwr = d.pwr := rfl
@[simp] theorem modCore_pwr (d : Dev) (n : Nat) (g : Core → Core) : (modCore d n g).pwr = d.pwr := rfl
@[simp] theorem modCtx_pwr (d : Dev) (n c : Nat) (g : Ctx → Ctx) : (modCtx d n c g).pwr = d.pwr := rfl
@[simp] theorem setCore_mon (d : Dev) (n : Nat) (k : Core) : (setCore d n k).mon = d.mon := rfl
@[simp] theorem modCore_mon (d : Dev) (n : Nat) (g : Core → Core) : (modCore d n g).mon = d.mon := rfl
@[simp] theorem modCtx_mon (d : Dev) (n c : Nat) (g : Ctx → Ctx) : (modCtx d n c g).mon = d.mon := rfl
@[simp] theorem setCore_rcd (d : Dev) (n : Nat) (k : Core) : (setCore d n k).rcd = d.rcd := rfl
@[simp] theorem modCore_rcd (d : Dev) (n : Nat) (g : Core → Core) : (modCore d n g).rcd = d.rcd := rfl
@[simp] theorem modCtx_rcd (d : Dev) (n c : Nat) (g : Ctx → Ctx) : (modCtx d n c g).rcd = d.rcd := rfl
@[simp] theorem setCore_out (d : Dev) (n : Nat) (k : Core) : (setCore d n k).out = d.out := rfl
@[simp] theorem modCore_out (d : Dev) (n : Nat) (g : Core → Core) : (modCore d n g).out = d.out := rfl
@[simp] theorem modCtx_out (d : Dev) (n c : Nat) (g : Ctx → Ctx) : (modCtx d n c g).out = d.out := rfl
@[simp] theorem setCore_free (d : Dev) (n : Nat) (k : Core) : (setCore d n k).free = d.free := rfl
@[simp] theorem modCore_free (d : Dev) (n : Nat) (g : Core → Core) : (modCore d n g).free = d.free := rfl
@[simp] theorem modCtx_free (d : Dev) (n c : Nat) (g : Ctx → Ctx) : (modCtx d n c g).free = d.free := rfl

@[simp] theorem coreOf_setCore_same (d : Dev) (n : Nat) (k : Core) : coreOf (setCore d n k) n = k := by
  simp [coreOf, setCore]

theorem coreOf_setCore_other (d : Dev) (n m : Nat) (k : Core) (h : m ≠ n) :
    coreOf (setCore d n k) m = coreOf d m := by
  simp [coreOf, setCore, smapGet_smapSet_other _ _ _ _ _ h]

@[simp] theorem coreOf_modCore_same (d : Dev) (n : Nat) (g : Core → Core) :
    coreOf (modCore d n g) n = g (coreOf d n) := by
  simp [modCore]

theorem coreOf_modCore_other (d : Dev) (n m : Nat) (g : Core → Core) (h : m ≠ n) :
    coreOf (modCore d n g) m = coreOf d m := by
  simp [modCore, coreOf_setCore_other _ _ _ _ h]

@[simp] theorem coreOf_regPut (d : Dev) (off : Nat) (v : W32) (n : Nat) : coreOf (regPut d off v) n = coreOf d n := rfl
@[simp] theorem coreOf_regPutNat (d : Dev) (off v n : Nat) : coreOf (regPutNat d off v) n = coreOf d n := rfl
@[simp] theorem regGet_setCore (d : Dev) (n : Nat) (k : Core) (j : Nat) : regGet (setCore d n k) j = regGet d j := rfl
@[simp] theorem regNat_setCore (d : Dev) (n : Nat) (k : Core) (j : Nat) : regNat (setCore d n k) j = regNat d j := rfl
@[simp] theorem regNat_modCore (d : Dev) (n : Nat) (g : Core → Core) (j : Nat) : regNat (modCore d n g) j = regNat d j := rfl
@[simp] theorem regNat_modCtx (d : Dev) (n c : Nat) (g : Ctx → Ctx) (j : Nat) : regNat (modCtx d n c g) j = regNat d j := rfl

@[simp] theorem ctxOf_setCtx_same (k : Core) (c : Nat) (x : Ctx) : ctxOf (setCtx k c x) c = x := by
  simp [ctxOf, setCtx]

theorem ctxOf_setCtx_other (k : Core) (c e : Nat) (x : Ctx) (h : e ≠ c) : ctxOf (setCtx k c x) e = ctxOf k e := by
  simp [ctxOf, setCtx, smapGet_smapSet_other _ _ _ _ _ h]

theorem coreOf_modCtx_same (d : Dev) (n c : Nat) (g : Ctx → Ctx) :
    coreOf (modCtx d n c g) n = setCtx (coreOf d n) c (g (ctxOf (coreOf d n) c)) := by
  simp [modCtx]

theorem coreOf_modCtx_other (d : Dev) (n m c : Nat) (g : Ctx → Ctx) (h : m ≠ n) :
    coreOf (modCtx d n c g) m = coreOf d m := by
  simp [modCtx, coreOf_modCore_other _ _ _ _ h]

/-! ### Scalar registers -/

@[simp] theorem sreg_zero (x : Ctx) : sreg x 0 = 0#64 := rfl
@[simp] theorem setSreg_zero (x : Ctx) (v : W64) : setSreg x 0 v = x := rfl

theorem sreg_setSreg (x : Ctx) (i j : Nat) (v : W64) :
    sreg (setSreg x i v) j = if j = i ∧ i ≠ 0 then v else sreg x j := by
  unfold setSreg
  split
  · rename_i h; simp [h]
  · rename_i h
    unfold sreg
    by_cases hj : j = 0
    · simp [hj, Ne.symm h]
    · simp [hj, h, smapGet_smapSet]

/-! ### Outputs -/

@[simp] theorem emit_cores (d : Dev) (o : Out) : (emit d o).cores = d.cores := rfl
@[simp] theorem emit_boot (d : Dev) (o : Out) : (emit d o).boot = d.boot := rfl
@[simp] theorem emit_tm (d : Dev) (o : Out) : (emit d o).tm = d.tm := rfl
@[simp] theorem emit_stk (d : Dev) (o : Out) : (emit d o).stk = d.stk := rfl
@[simp] theorem emit_mm (d : Dev) (o : Out) : (emit d o).mm = d.mm := rfl
@[simp] theorem emit_fab (d : Dev) (o : Out) : (emit d o).fab = d.fab := rfl
@[simp] theorem emit_ni (d : Dev) (o : Out) : (emit d o).ni = d.ni := rfl
@[simp] theorem emit_upd (d : Dev) (o : Out) : (emit d o).upd = d.upd := rfl
@[simp] theorem emit_opt (d : Dev) (o : Out) : (emit d o).opt = d.opt := rfl
@[simp] theorem emit_own (d : Dev) (o : Out) : (emit d o).own = d.own := rfl
@[simp] theorem emit_host (d : Dev) (o : Out) : (emit d o).host = d.host := rfl
@[simp] theorem emit_pwr (d : Dev) (o : Out) : (emit d o).pwr = d.pwr := rfl
@[simp] theorem emit_mon (d : Dev) (o : Out) : (emit d o).mon = d.mon := rfl
@[simp] theorem emit_rcd (d : Dev) (o : Out) : (emit d o).rcd = d.rcd := rfl
@[simp] theorem emit_free (d : Dev) (o : Out) : (emit d o).free = d.free := rfl
@[simp] theorem emit_regs (d : Dev) (o : Out) : (emit d o).regs = d.regs := rfl
@[simp] theorem emit_out (d : Dev) (o : Out) : (emit d o).out = d.out ++ [o] := rfl

end Sys2Proof.Machine
end

