-- ==== Sys2Proof/Laws/Issue.lean ====
section
/-! SUPPORT. What the sequencer's shared operations do, said once: an instruction that nothing fetches changes nothing,
and one that issues goes on, jumps, waits, is held or faults. -/

namespace Sys2Proof.Machine

/-! ### Contexts -/

@[simp] theorem switchCtx_ctxs (k : Core) : (switchCtx k).ctxs = k.ctxs := by
  unfold switchCtx; split <;> rfl
@[simp] theorem settleCtx_ctxs (k : Core) : (settleCtx k).ctxs = k.ctxs := by
  unfold settleCtx; split <;> simp
@[simp] theorem ctxOf_switchCtx (k : Core) (c : Nat) : ctxOf (switchCtx k) c = ctxOf k c := by simp [ctxOf]
@[simp] theorem ctxOf_settleCtx (k : Core) (c : Nat) : ctxOf (settleCtx k) c = ctxOf k c := by simp [ctxOf]

theorem switchCtx_body (k : Core) (cs : SMap Ctx) (u : Nat) :
    { switchCtx k with ctxs := cs, cur := u } = { k with ctxs := cs, cur := u } := by
  unfold switchCtx; split <;> rfl
theorem settleCtx_body (k : Core) (cs : SMap Ctx) (u : Nat) :
    { settleCtx k with ctxs := cs, cur := u } = { k with ctxs := cs, cur := u } := by
  unfold settleCtx; split
  · rfl
  · exact switchCtx_body k cs u

@[simp] theorem settleCtx_istore (k : Core) : (settleCtx k).istore = k.istore := by
  unfold settleCtx switchCtx; repeat' split
  all_goals rfl
@[simp] theorem settleCtx_ops (k : Core) : (settleCtx k).ops = k.ops := by
  unfold settleCtx switchCtx; repeat' split
  all_goals rfl
@[simp] theorem settleCtx_descs (k : Core) : (settleCtx k).descs = k.descs := by
  unfold settleCtx switchCtx; repeat' split
  all_goals rfl

@[simp] theorem issueCore_ctxs (k : Core) : (issueCore k).ctxs = k.ctxs := by simp [issueCore]
@[simp] theorem ctxOf_issueCore (k : Core) (c : Nat) : ctxOf (issueCore k) c = ctxOf k c := by simp [ctxOf]
@[simp] theorem issueCore_istore (k : Core) : (issueCore k).istore = k.istore := by simp [issueCore]
@[simp] theorem issueCore_ops (k : Core) : (issueCore k).ops = k.ops := by simp [issueCore]
@[simp] theorem issueCore_descs (k : Core) : (issueCore k).descs = k.descs := by simp [issueCore]
@[simp] theorem issueCore_swap (k : Core) : (issueCore k).swap = none := rfl
theorem issueCore_body (k : Core) (cs : SMap Ctx) (u : Nat) (w : Option Nat) :
    { issueCore k with ctxs := cs, cur := u, swap := w } = { k with ctxs := cs, cur := u, swap := w } := by
  unfold issueCore settleCtx switchCtx; repeat' split
  all_goals rfl

theorem setCtx_setCtx (k : Core) (c : Nat) (x y : Ctx) : setCtx (setCtx k c x) c y = setCtx k c y := by
  simp [setCtx, smapSet_smapSet]
theorem modCore_modCore (d : Dev) (n : Nat) (g h : Core → Core) :
    modCore (modCore d n g) n h = modCore d n (fun k => h (g k)) := by
  simp [modCore, setCore, coreOf, smapSet_smapSet]
theorem modCtx_modCtx (d : Dev) (n c : Nat) (g h : Ctx → Ctx) :
    modCtx (modCtx d n c g) n c h = modCtx d n c (fun x => h (g x)) := by
  simp [modCtx, modCore_modCore, setCtx_setCtx]

/-! ### Passing an index -/

/-- `passFrom` changes the program counter and the loop levels alone. -/
theorem passFrom_eq (x : Ctx) (ls : List LoopLevel) (p : Nat) :
    passFrom x ls p = { x with pc := (passFrom x ls p).pc, loops := (passFrom x ls p).loops } := rfl

/-- Where control goes depends on the call depth alone. -/
theorem passFrom_calls (x y : Ctx) (ls : List LoopLevel) (p : Nat) (h : x.calls = y.calls) :
    (passFrom x ls p).pc = (passFrom y ls p).pc ∧ (passFrom x ls p).loops = (passFrom y ls p).loops := by
  simp [passFrom, h]

/-- No level ends at the index: control goes to the next one, and the levels stay. -/
theorem passLevels_none (depth p : Nat) (ls : List LoopLevel) (h : ∀ l ∈ ls, ¬(l.last = p ∧ l.depth = depth)) :
    passLevels depth p ls = (ls, none) := by
  induction ls with
  | nil => rfl
  | cons l t ih => simp [passLevels, h l (by simp), ih (fun e he => h e (by simp [he]))]

theorem goesOn_eq (x : Ctx) : goesOn x =
    { x with pc := (goesOn x).pc, loops := (goesOn x).loops, st := 1, hold := 0, wait := .none } := by
  rfl

/-- A context that stays in the store goes on. -/
theorem advanceCtx_inStore (d : Dev) (n c : Nat) (h : InStore (ctxOf (coreOf d n) c)) :
    advanceCtx d n c = modCtx d n c (fun _ => goesOn (ctxOf (coreOf d n) c)) := by
  unfold InStore goesOn at h
  unfold advanceCtx
  simp only [] at h ⊢
  rw [if_pos h]
  rfl

/-- So does one that stood in no wait, through `goOn`. -/
theorem goOn_inStore (d : Dev) (n c : Nat) (h : InStore (ctxOf (coreOf d n) c)) (hw : (ctxOf (coreOf d n) c).st ≠ 5) :
    goOn d n c = modCtx d n c (fun _ => goesOn (ctxOf (coreOf d n) c)) := by
  unfold goOn
  simp only []
  rw [advanceCtx_inStore d n c h, if_neg (by simp [coreOf_modCtx_same, goesOn]), if_neg hw]

/-! ### Issue -/

theorem issue_none (d : Dev) (n : Nat) (w : W128) (body : Dev → Nat → Ctx → IssueRes) (h : issuer d n w = none) :
    issue d n w body = (d, []) := by
  simp [issue, h]

/-- What follows once the body has said what comes of the instruction. -/
theorem issue_held (d : Dev) (n c : Nat) (w : W128) (body : Dev → Nat → Ctx → IssueRes) (h : issuer d n w = some c)
    (hb : body (modCore d n issueCore) c (ctxOf (coreOf d n) c) = .held) :
    issue d n w body = (modCtx (modCore d n issueCore) n c (fun x => { x with st := 2 }), []) := by
  simp [issue, h, hb]

theorem issue_fault (d : Dev) (n c ev : Nat) (w : W128) (body : Dev → Nat → Ctx → IssueRes) (h : issuer d n w = some c)
    (hb : body (modCore d n issueCore) c (ctxOf (coreOf d n) c) = .fault ev) :
    issue d n w body =
      (afterWork (faultCtx (modCore d n issueCore) n c (ctxOf (coreOf d n) c).pc ev 2 (wordDetail w)) n, []) := by
  simp [issue, h, hb]

theorem issue_next (d d1 : Dev) (n c : Nat) (w : W128) (ops : List MemOp) (body : Dev → Nat → Ctx → IssueRes)
    (h : issuer d n w = some c)
    (hb : body (modCore d n issueCore) c (ctxOf (coreOf d n) c) = .next d1 ops) :
    issue d n w body = (goOn d1 n c, ops) := by
  simp [issue, h, hb]

theorem issue_placed (d d1 : Dev) (n c : Nat) (w : W128) (ops : List MemOp) (body : Dev → Nat → Ctx → IssueRes)
    (h : issuer d n w = some c)
    (hb : body (modCore d n issueCore) c (ctxOf (coreOf d n) c) = .placed d1 ops) :
    issue d n w body = (modCtx d1 n c (fun x => { x with st := 1, hold := 0 }), ops) := by
  simp [issue, h, hb]

theorem issue_done (d d1 : Dev) (n c : Nat) (w : W128) (ops : List MemOp) (body : Dev → Nat → Ctx → IssueRes)
    (h : issuer d n w = some c)
    (hb : body (modCore d n issueCore) c (ctxOf (coreOf d n) c) = .done d1 ops) :
    issue d n w body = (d1, ops) := by
  simp [issue, h, hb]

theorem issue_away (d d1 : Dev) (n c : Nat) (w : W128) (ops : List MemOp) (body : Dev → Nat → Ctx → IssueRes)
    (h : issuer d n w = some c)
    (hb : body (modCore d n issueCore) c (ctxOf (coreOf d n) c) = .away d1 ops) :
    issue d n w body =
      (modCore (modCtx d1 n c (fun x => { x with hold := 0 })) n (fun k => if k.cur = c then switchCtx k else k), ops) := by
  simp [issue, h, hb]

/-- Conditions of which none holds let the instruction issue. -/
theorem guarded_ok (cs : List Cond) (go : IssueRes) (h : ∀ c ∈ cs, c.2 = false) : guarded cs go = go := by
  have : firstFault cs = none := by
    unfold firstFault
    induction cs with
    | nil => rfl
    | cons c t ih =>
      have hc := h c (by simp)
      simp only [List.foldl_cons, hc]
      exact ih (fun e he => h e (by simp [he]))
  simp [guarded, this]

theorem issuer_inService (d : Dev) (n c : Nat) (w : W128) (h : issuer d n w = some c) :
    coresRun d = true ∧ coreInService d n = true ∧ ctxRunnable (ctxOf (coreOf d n) c) = true ∧
      smapGet (coreOf d n).istore (ctxOf (coreOf d n) c).pc 0#128 = w := by
  unfold issuer at h
  simp only [] at h
  split at h
  · rename_i hc
    simp only [Bool.and_eq_true, beq_iff_eq, ctxOf_settleCtx, settleCtx_istore] at hc
    injection h with h
    subst h
    exact ⟨hc.1.1.1, hc.1.1.2, hc.1.2, hc.2⟩
  · cases h

/-- A context that issues stands in no wait. -/
theorem issuer_st {d : Dev} {n c : Nat} {w : W128} (h : issuer d n w = some c) : (ctxOf (coreOf d n) c).st ≠ 5 := by
  have hr := (issuer_inService d n c w h).2.2.1
  intro h5
  simp [ctxRunnable, h5] at hr

/-- A command that changes one context of a core alone. -/
theorem onlyCtx_modCtx (s : State) (n c : Nat) (g : Ctx → Ctx) :
    OnlyCtx s { s with dev := modCtx (modCore s.dev n issueCore) n c g } n c := by
  refine ⟨⟨fun _ => rfl, rfl⟩, fun _ => rfl, rfl, ?_, ?_, ?_⟩
  · intro m hm
    simp [coreOf_modCtx_other _ _ _ _ _ hm, coreOf_modCore_other _ _ _ _ hm]
  · simp only [SameCoreBody, coreOf_modCtx_same, coreOf_modCore_same, setCtx]
    exact issueCore_body (coreOf s.dev n) _ _ _
  · intro e he
    simp [ctxIn, coreOf_modCtx_same, ctxOf_setCtx_other _ _ _ _ he]

/-! ### Instructions of one context -/

/-- An instruction that sets its context's program counter, call stack and loop levels. -/
theorem does_goesTo (s : State) (n c pc : Nat) (cl : List Nat) (ls : List LoopLevel) (i : Instr) (w : W128)
    (body : Dev → Nat → Ctx → IssueRes) (g : Ctx → Ctx) (h : issuer s.dev n w = some c)
    (hi : exec i s = finish s (issue s.dev n w body))
    (hb : body (modCore s.dev n issueCore) c (ctxIn s n c) = .placed (modCtx (modCore s.dev n issueCore) n c g) [])
    (hg : g (ctxIn s n c) = { ctxIn s n c with pc := pc, calls := cl, loops := ls }) :
    Does i s (fun t => GoesTo s t n c pc cl ls) := by
  refine ⟨_, hi, rfl, ?_⟩
  rw [issue_placed _ _ n c _ _ _ h hb, modCtx_modCtx]
  refine ⟨onlyCtx_modCtx s n c _, ?_⟩
  simp only [ctxIn, coreOf_modCtx_same, coreOf_modCore_same, ctxOf_issueCore, ctxOf_setCtx_same] at hg ⊢
  rw [hg]

/-- An instruction that changes its context alone and goes on. -/
theorem does_goesOn (s : State) (n c : Nat) (i : Instr) (w : W128) (body : Dev → Nat → Ctx → IssueRes) (g : Ctx → Ctx)
    (h : issuer s.dev n w = some c) (hi : exec i s = finish s (issue s.dev n w body))
    (hs : InStore (g (ctxIn s n c))) (hg : (g (ctxIn s n c)).st = (ctxIn s n c).st)
    (hb : body (modCore s.dev n issueCore) c (ctxIn s n c) = .next (modCtx (modCore s.dev n issueCore) n c g) []) :
    Does i s (fun t => OnlyCtx s t n c ∧ ctxIn t n c = goesOn (g (ctxIn s n c))) := by
  refine ⟨_, hi, rfl, ?_⟩
  rw [issue_next _ _ n c _ _ _ h hb, goOn_inStore _ _ _ (by simpa [coreOf_modCtx_same] using hs)
    (by simpa [coreOf_modCtx_same, hg] using issuer_st h), modCtx_modCtx]
  refine ⟨onlyCtx_modCtx s n c _, ?_⟩
  simp [ctxIn, coreOf_modCtx_same]

/-- An instruction that changes nothing and goes on. -/
theorem does_pass (s : State) (n c : Nat) (i : Instr) (w : W128) (body : Dev → Nat → Ctx → IssueRes)
    (h : issuer s.dev n w = some c) (hi : exec i s = finish s (issue s.dev n w body)) (hs : InStore (ctxIn s n c))
    (hb : body (modCore s.dev n issueCore) c (ctxIn s n c) = .next (modCore s.dev n issueCore) []) :
    Does i s (fun t => OnlyCtx s t n c ∧ ctxIn t n c = goesOn (ctxIn s n c)) := by
  refine ⟨_, hi, rfl, ?_⟩
  rw [issue_next _ _ n c _ _ _ h hb, goOn_inStore _ _ _ (by simpa using hs) (by simpa using issuer_st h)]
  refine ⟨onlyCtx_modCtx s n c _, ?_⟩
  simp [ctxIn, coreOf_modCtx_same]

/-- An instruction that cannot issue yet. -/
theorem does_held (s : State) (n c : Nat) (i : Instr) (w : W128) (body : Dev → Nat → Ctx → IssueRes)
    (h : issuer s.dev n w = some c) (hi : exec i s = finish s (issue s.dev n w body))
    (hb : body (modCore s.dev n issueCore) c (ctxIn s n c) = .held) :
    Does i s (fun t => StaysHeld s t n c) := by
  refine ⟨_, hi, rfl, ?_⟩
  rw [issue_held _ n c _ _ h hb]
  refine ⟨onlyCtx_modCtx s n c _, ?_⟩
  simp [ctxIn, coreOf_modCtx_same]

end Sys2Proof.Machine
end

