-- ==== Sys2Proof/Laws/Memory.lean ====
section
/-! SUPPORT. Memory: what a byte reads as after a write, and that every memory operation keeps the canonical form. -/

namespace Sys2Proof.Machine

/-! ### Reading after writing -/

theorem smapGet_cellsDel_other (c : List Host.Cell) (a j : Nat) (d : Byte) (h : j ≠ a) :
    smapGet (cellsDel c a) j d = smapGet c j d := by
  induction c with
  | nil => rfl
  | cons e t ih =>
    obtain ⟨a', b⟩ := e
    unfold cellsDel
    split
    · rename_i h1; subst h1; simp [smapGet, Ne.symm h]
    · simp only [smapGet, ih]

theorem memByte_memWrite_other (m : Mem) (a j : Nat) (b : Byte) (h : j ≠ a) :
    memByte (memWrite m a b) j = memByte m j := by
  unfold memWrite
  split
  · exact smapGet_smapSet_other _ _ _ _ _ h
  · exact smapGet_cellsDel_other _ _ _ _ h

@[simp] theorem memByte_setFlaws (m : Mem) (k a : Nat) (l : List (Nat × Nat)) : memByte (setFlaws m k l) a = memByte m a := rfl

theorem memByte_wr_other (m : Mem) (a j : Nat) (b : Byte) (h : j ≠ a) : memByte (memApply m (.wr a b)) j = memByte m j :=
  memByte_memWrite_other m a j b h

@[simp] theorem memByte_poison (m : Mem) (k a : Nat) : memByte (memApply m (.poison k)) a = memByte m a := rfl

@[simp] theorem memByte_unpoison (m : Mem) (k t a : Nat) : memByte (memApply m (.unpoison k t)) a = memByte m a := by
  unfold memApply
  dsimp only
  split <;> rfl

/-! ### The canonical form -/

/-- Every key of a list is above a bound. -/
def AllAbove (l : List Nat) (b : Nat) : Prop := ∀ x ∈ l, b < x

theorem rising_cons (a : Nat) (l : List Nat) : rising (a :: l) = true ↔ AllAbove l a ∧ rising l = true := by
  induction l generalizing a with
  | nil => simp [rising, AllAbove]
  | cons b t ih =>
    simp only [rising, Bool.and_eq_true, decide_eq_true_eq]
    constructor
    · rintro ⟨h1, h2⟩
      refine ⟨?_, h2⟩
      intro x hx
      rcases List.mem_cons.1 hx with rfl | hx
      · exact h1
      · exact Nat.lt_trans h1 (((ih b).1 h2).1 x hx)
    · rintro ⟨h1, h2⟩
      exact ⟨h1 b (by simp), h2⟩

theorem keys_smapSet {α : Type} (m : SMap α) (k : Nat) (v : α) (x : Nat)
    (h : x ∈ (smapSet m k v).map (fun e => e.1)) : x = k ∨ x ∈ m.map (fun e => e.1) := by
  induction m with
  | nil => simp [smapSet] at h; exact Or.inl h
  | cons e t ih =>
    obtain ⟨k', v'⟩ := e
    unfold smapSet at h
    split at h
    · simp at h ⊢; grind
    · split at h
      · simp at h ⊢; grind
      · simp only [List.map_cons, List.mem_cons] at h ⊢
        rcases h with h | h
        · exact Or.inr (Or.inl h)
        · rcases ih h with h | h <;> grind

theorem rising_smapSet {α : Type} (m : SMap α) (k : Nat) (v : α) (h : rising (m.map (fun e => e.1)) = true) :
    rising ((smapSet m k v).map (fun e => e.1)) = true := by
  induction m with
  | nil => rfl
  | cons e t ih =>
    obtain ⟨k', v'⟩ := e
    have h' := (rising_cons k' _).1 h
    unfold smapSet
    split
    · rename_i hk
      simp only [List.map_cons]
      refine (rising_cons _ _).2 ⟨?_, h⟩
      intro x hx
      rcases List.mem_cons.1 hx with rfl | hx
      · exact hk
      · exact Nat.lt_trans hk (h'.1 x hx)
    · split
      · rename_i hk; subst hk; exact h
      · rename_i h1 h2
        simp only [List.map_cons]
        refine (rising_cons _ _).2 ⟨?_, ih h'.2⟩
        intro x hx
        rcases keys_smapSet t k v x hx with rfl | hx
        · omega
        · exact h'.1 x hx

theorem keys_cellsDel (c : List Host.Cell) (a x : Nat) (h : x ∈ (cellsDel c a).map (fun e => e.1)) :
    x ∈ c.map (fun e => e.1) := by
  induction c with
  | nil => simp [cellsDel] at h
  | cons e t ih =>
    obtain ⟨a', b⟩ := e
    unfold cellsDel at h
    split at h
    · simp only [List.map_cons, List.mem_cons]; exact Or.inr h
    · simp only [List.map_cons, List.mem_cons] at h ⊢
      exact h.imp id ih

theorem rising_cellsDel (c : List Host.Cell) (a : Nat) (h : rising (c.map (fun e => e.1)) = true) :
    rising ((cellsDel c a).map (fun e => e.1)) = true := by
  induction c with
  | nil => rfl
  | cons e t ih =>
    obtain ⟨a', b⟩ := e
    have h' := (rising_cons a' _).1 h
    unfold cellsDel
    split
    · exact h'.2
    · simp only [List.map_cons]
      exact (rising_cons _ _).2 ⟨fun x hx => h'.1 x (keys_cellsDel t a x hx), ih h'.2⟩

theorem rising_filter {α : Type} (l : List (Nat × α)) (p : Nat × α → Bool)
    (h : rising (l.map (fun e => e.1)) = true) : rising ((l.filter p).map (fun e => e.1)) = true := by
  induction l with
  | nil => rfl
  | cons e t ih =>
    have h' := (rising_cons e.1 _).1 h
    by_cases hp : p e
    · simp only [List.filter_cons, hp, if_true, List.map_cons]
      refine (rising_cons _ _).2 ⟨?_, ih h'.2⟩
      intro x hx
      obtain ⟨y, hy, rfl⟩ := List.mem_map.1 hx
      exact h'.1 y.1 (List.mem_map.2 ⟨y, (List.mem_filter.1 hy).1, rfl⟩)
    · simp only [List.filter_cons, hp]
      exact ih h'.2

theorem rising_filterNat (l : List Nat) (p : Nat → Bool) (h : rising l = true) : rising (l.filter p) = true := by
  induction l with
  | nil => rfl
  | cons e t ih =>
    have h' := (rising_cons e _).1 h
    by_cases hp : p e
    · simp only [List.filter_cons, hp, if_true]
      exact (rising_cons _ _).2 ⟨fun x hx => h'.1 x (List.mem_filter.1 hx).1, ih h'.2⟩
    · simp only [List.filter_cons, hp]
      exact ih h'.2

theorem mem_keyInsert (l : List Nat) (k x : Nat) (h : x ∈ keyInsert l k) : x = k ∨ x ∈ l := by
  induction l with
  | nil => simp [keyInsert] at h; exact Or.inl h
  | cons y t ih =>
    unfold keyInsert at h
    split at h
    · simp at h ⊢; grind
    · split at h
      · exact Or.inr h
      · rcases List.mem_cons.1 h with h | h
        · exact Or.inr (by simp [h])
        · rcases ih h with h | h
          · exact Or.inl h
          · exact Or.inr (by simp [h])

theorem rising_keyInsert (l : List Nat) (k : Nat) (h : rising l = true) : rising (keyInsert l k) = true := by
  induction l with
  | nil => rfl
  | cons y t ih =>
    have h' := (rising_cons y _).1 h
    unfold keyInsert
    split
    · rename_i hk
      refine (rising_cons _ _).2 ⟨?_, h⟩
      intro x hx
      rcases List.mem_cons.1 hx with rfl | hx
      · exact hk
      · exact Nat.lt_trans hk (h'.1 x hx)
    · split
      · exact h
      · refine (rising_cons _ _).2 ⟨?_, ih h'.2⟩
        intro x hx
        rcases mem_keyInsert t k x hx with rfl | hx
        · omega
        · exact h'.1 x hx

theorem mem_smapSet {α : Type} (m : SMap α) (k : Nat) (v : α) (e : Nat × α) (h : e ∈ smapSet m k v) :
    e = (k, v) ∨ e ∈ m := by
  induction m with
  | nil => simp [smapSet] at h; exact Or.inl h
  | cons y t ih =>
    obtain ⟨k', v'⟩ := y
    unfold smapSet at h
    split at h
    · simp at h ⊢; grind
    · split at h
      · simp at h ⊢; grind
      · rcases List.mem_cons.1 h with h | h
        · exact Or.inr (by simp [h])
        · rcases ih h with h | h
          · exact Or.inl h
          · exact Or.inr (by simp [h])

theorem mem_cellsDel (c : List Host.Cell) (a : Nat) (e : Host.Cell) (h : e ∈ cellsDel c a) : e ∈ c := by
  induction c with
  | nil => simp [cellsDel] at h
  | cons y t ih =>
    obtain ⟨a', b⟩ := y
    unfold cellsDel at h
    split at h
    · exact List.mem_cons_of_mem _ h
    · rcases List.mem_cons.1 h with h | h
      · simp [h]
      · exact List.mem_cons_of_mem _ (ih h)

/-- The canonical form, as a proposition over each listed byte and line. -/
theorem Mem.wf_iff (m : Mem) : m.wf = true ↔
    rising (m.cells.map (fun c => c.1)) = true ∧ rising m.poison = true ∧
      (∀ c ∈ m.cells, (undefAt m.undef c.1).isSome = true ∨ c.2 ≠ 0#8) ∧ rising (m.cleared.map (fun c => c.1)) = true ∧
      rising (m.flaws.map (fun c => c.1)) = true ∧ ∀ c ∈ m.flaws, c.2.isEmpty = false := by
  simp [Mem.wf, and_assoc]

theorem setFlaws_wf (m : Mem) (k : Nat) (l : List (Nat × Nat)) (h : m.wf = true) : (setFlaws m k l).wf = true := by
  obtain ⟨h1, h2, h3, h4, h5, h6⟩ := (Mem.wf_iff m).1 h
  unfold setFlaws
  split
  · exact (Mem.wf_iff _).2 ⟨h1, h2, h3, h4, rising_filter _ _ h5, fun c hc => h6 c (List.mem_filter.1 hc).1⟩
  · rename_i hl
    refine (Mem.wf_iff _).2 ⟨h1, h2, h3, h4, rising_smapSet _ _ _ h5, ?_⟩
    intro c hc
    rcases mem_smapSet _ _ _ _ hc with rfl | hc
    · simpa using hl
    · exact h6 c hc

theorem memWrite_wf (m : Mem) (a : Nat) (b : Byte) (h : m.wf = true) : (memWrite m a b).wf = true := by
  obtain ⟨h1, h2, h3, hr⟩ := (Mem.wf_iff m).1 h
  unfold memWrite
  split
  · rename_i hc
    refine (Mem.wf_iff _).2 ⟨rising_smapSet _ _ _ h1, h2, ?_, hr⟩
    intro c hcm
    rcases mem_smapSet _ _ _ _ hcm with rfl | hcm
    · simpa [Bool.or_eq_true] using hc
    · exact h3 c hcm
  · exact (Mem.wf_iff _).2 ⟨rising_cellsDel _ _ h1, h2, fun c hcm => h3 c (mem_cellsDel _ _ _ hcm), hr⟩

theorem memApply_wf (m : Mem) (op : MemOp) (h : m.wf = true) : (memApply m op).wf = true := by
  obtain ⟨h1, h2, h3, h4, h5, h6⟩ := (Mem.wf_iff m).1 h
  cases op with
  | wr a b => exact setFlaws_wf _ _ _ (memWrite_wf m a b h)
  | flaw k l => exact setFlaws_wf m k l h
  | poison k => exact (Mem.wf_iff _).2 ⟨h1, rising_keyInsert _ _ h2, h3, h4, h5, h6⟩
  | unpoison k t =>
    unfold memApply
    dsimp only
    split
    · exact (Mem.wf_iff _).2 ⟨h1, rising_filterNat _ _ h2, h3, rising_smapSet _ _ _ h4, h5, h6⟩
    · exact h
  | undef r =>
    refine (Mem.wf_iff _).2 ⟨rising_filter _ _ h1, rising_filterNat _ _ h2, ?_, rising_filter _ _ h4,
      rising_filter _ _ h5, fun c hc => h6 c (List.mem_filter.1 hc).1⟩
    intro c hcm
    obtain ⟨hc, hn⟩ := List.mem_filter.1 hcm
    have hn' : inUndef r c.1 = false := by simpa using hn
    simpa [memApply, undefAt, hn'] using h3 c hc

/-- Every list of memory operations keeps the canonical form. -/
theorem memApplyAll_wf (m : Mem) (ops : List MemOp) (h : m.wf = true) : (memApplyAll m ops).wf = true := by
  induction ops generalizing m with
  | nil => exact h
  | cons op t ih => exact ih _ (memApply_wf m op h)

end Sys2Proof.Machine
end

