-- ==== Sys2Proof/Laws/Packet.lean ====
section
/-! SUPPORT. Packets: the end-to-end check leaves its own field out, so a sealed packet passes it. -/

namespace Sys2Proof.Machine

/-- The bytes of a number depend on its low bits alone. -/
theorem leBytes_low (k a c : Nat) : leBytes k (a + 256 ^ k * c) = leBytes k a := by
  induction k generalizing a with
  | zero => rfl
  | succ k ih =>
    have h : a + 256 ^ (k + 1) * c = a + 256 * (256 ^ k * c) := by rw [Nat.pow_succ, Nat.mul_comm (256 ^ k) 256, Nat.mul_assoc]
    simp only [leBytes, h]
    congr 1
    · apply BitVec.eq_of_toNat_eq; simp [Nat.add_mul_mod_self_left]
    · rw [Nat.add_mul_div_left _ _ (by decide), ih]

/-- The header bytes under the check leave the check field out (R289). -/
theorem header_take (p : Packet) (c : Nat) : (headerBytes { p with check := c }).take 28 = (headerBytes p).take 28 := by
  have h : ∀ x : Packet, (headerBytes x).take 28 =
      leBytes 8 (x.typ % 16 + x.len % 512 * 2 ^ 4 + x.dst % 65536 * 2 ^ 16 + x.src % 65536 * 2 ^ 32
        + x.slice % 1024 * 2 ^ 48 + x.hops % 64 * 2 ^ 58) ++
      leBytes 8 (x.injTime % 2 ^ 32 + x.seq % 2 ^ 32 * 2 ^ 32) ++
      leBytes 8 (x.offset % 2 ^ 42 + x.sub % 256 * 2 ^ 42 + x.mcast.toNat * 2 ^ 50 + x.last.toNat * 2 ^ 51
        + x.replayed.toNat * 2 ^ 52) ++
      leBytes 4 (x.epoch % 65536 + x.dctx % 4096 * 2 ^ 16 + x.check % 2 ^ 32 * 2 ^ 32) := fun x => rfl
  have g : ∀ a b, leBytes 4 (a + b * 2 ^ 32) = leBytes 4 a := fun a b => by
    rw [Nat.mul_comm]
    exact leBytes_low 4 a b
  simp only [h, g]

/-- The end-to-end check does not depend on the CHECK field (R289). -/
theorem packetCheck_check (p : Packet) (c : Nat) : packetCheck { p with check := c } = packetCheck p := by
  have h := header_take { p with hops := 0, replayed := false } c
  unfold packetCheck
  exact congrArg (fun l => crc32 (l ++ padTo 256 p.payload)) h

/-- A sealed packet passes its check. -/
theorem packetCheck_sealPacket (p : Packet) : packetCheck (sealPacket p) = (sealPacket p).check := packetCheck_check p _

end Sys2Proof.Machine
end

