-- ==== Sys2Proof/WellFormed.lean ====
section
/-! DEFINITION. Which commands the block's paths can carry: every operand within the range its field or its unit has. -/

namespace Sys2Proof

/-- A number below `k`. -/
def ltOk (x k : Nat) : Bool := decide (x < k)
/-- A number of at most `w` bits. -/
def bitsOk (x w : Nat) : Bool := decide (x < 2 ^ w)
/-- A number from `lo` to `hi`. -/
def between (x lo hi : Nat) : Bool := decide (lo ≤ x) && decide (x ≤ hi)
/-- A master code (R489). -/
def masterOk (m : Nat) : Bool := between m 1 4
/-- A register access of 4 or 8 bytes (R30). -/
def widthOk (w : Nat) : Bool := w == 4 || w == 8
/-- A byte string of `lo` to `hi` bytes. -/
def lenOk (b : List Byte) (lo hi : Nat) : Bool := between b.length lo hi
/-- Changes of a codeword's symbols: places among its 72 and differences that are bytes other than 0 (R236). -/
def symsOk (l : List (Nat × Nat)) : Bool := l.all (fun e => ltOk e.1 72 && between e.2 1 255)
/-- A memory error at a unit that exists (R216, R236). -/
def errOk (e : MemErr) : Bool :=
  match e with
  | .spad core w bits => ltOk core 192 && ltOk w 786432 && between bits 1 2
  | .line pc line syms => ltOk pc 1280 && ltOk line 12582912 && symsOk syms
  | .acc w bits => ltOk w 16777216 && between bits 1 2
  | .stream peer bits => bitsOk peer 16 && between bits 1 2
/-- A packet whose header fields fit their widths, with 256 payload bytes (R286, R288). -/
def packetOk (p : Packet) : Bool :=
  bitsOk p.typ 4 && bitsOk p.len 9 && bitsOk p.dst 16 && bitsOk p.src 16 && bitsOk p.slice 10 && bitsOk p.hops 6 &&
    bitsOk p.injTime 32 && bitsOk p.seq 32 && bitsOk p.offset 42 && bitsOk p.sub 8 && bitsOk p.epoch 16 &&
    bitsOk p.dctx 12 && bitsOk p.check 32 && lenOk p.payload 256 256
/-- Ranges of a replay request: at most four, of 16-bit numbers (R277, R284). -/
def rangesOk (l : List (Nat × Nat)) : Bool := decide (l.length ≤ 4) && l.all (fun x => bitsOk x.1 16 && bitsOk x.2 16)
/-- A training result of a port that exists (R428, R462). -/
def trainOk (r : TrainResult) : Bool := ltOk r.port 39 && bitsOk r.mask 8 && bitsOk r.node 16 && ltOk r.farPort 39
/-- The measurements of a stage (R447). -/
def stageOk (r : StageResult) : Bool :=
  bitsOk r.rails 16 && bitsOk r.linksBad 8 && r.stackRes.all (fun t => ltOk t.1 20 && ltOk t.2.1 3) &&
    r.pcsBad.all (fun c => ltOk c 1280) && bitsOk r.enginesBad 16 && r.ports.all trainOk && r.numbers.all (fun e => ltOk e.1 39 && bitsOk e.2 16) && r.sparesBad.all (fun i => ltOk i 64)

/-- Whether every operand of a command is in range. -/
def Instr.wf (i : Instr) : Bool :=
  match i with
  | .nop core _ _ => ltOk core 192
  | .loop core _ _ => ltOk core 192
  | .br core _ _ => ltOk core 192
  | .brw core _ _ => ltOk core 192
  | .call core _ _ => ltOk core 192
  | .ret core _ _ => ltOk core 192
  | .yield core _ _ => ltOk core 192
  | .halt core _ _ => ltOk core 192
  | .issueHoldSwitch core => ltOk core 192
  | .sbeat core _ _ => ltOk core 192
  | .sfenc core _ _ => ltOk core 192
  | .swait core _ _ => ltOk core 192
  | .ssig core _ _ => ltOk core 192
  | .mopa core _ _ errs => ltOk core 192 && errs.all errOk
  | .mswp core _ _ => ltOk core 192
  | .mdrn core _ _ => ltOk core 192
  | .mlds core _ _ errs => ltOk core 192 && errs.all errOk
  | .mopaComplete core => ltOk core 192
  | .mdrnComplete core => ltOk core 192
  | .mldsComplete core => ltOk core 192
  | .matrixResidueMismatch core unit cell others =>
    ltOk core 192 && ltOk unit 4 && (cell :: others).all (fun c => ltOk c.1 128 && ltOk c.2 128)
  | .vop core _ _ errs => ltOk core 192 && errs.all errOk
  | .vred core _ _ errs => ltOk core 192 && errs.all errOk
  | .vlut core _ _ errs => ltOk core 192 && errs.all errOk
  | .vperm core _ _ errs => ltOk core 192 && errs.all errOk
  | .vgath core _ _ errs => ltOk core 192 && errs.all errOk
  | .vscat core _ _ errs => ltOk core 192 && errs.all errOk
  | .vrng core _ _ errs => ltOk core 192 && errs.all errOk
  | .venc core _ _ errs => ltOk core 192 && errs.all errOk
  | .vdec core _ _ errs => ltOk core 192 && errs.all errOk
  | .vecComplete core => ltOk core 192
  | .vectorResidueRetry core _ lanes => ltOk core 192 && lanes.all (fun l => ltOk l 128)
  | .dmovCopy core _ _ errs => ltOk core 192 && errs.all errOk
  | .dmovTableLoad core _ _ errs => ltOk core 192 && errs.all errOk
  | .dacc core _ _ errs => ltOk core 192 && errs.all errOk
  | .dpool core _ _ errs => ltOk core 192 && errs.all errOk
  | .dmaComplete core _ => ltOk core 192
  | .spadWordFail core word => ltOk core 192 && ltOk word 786432
  | .cgath core _ _ => ltOk core 192
  | .crsc core _ _ => ltOk core 192
  | .ca2a core _ _ => ltOk core 192
  | .cperm core _ _ => ltOk core 192
  | .cmcst core _ _ => ltOk core 192
  | .cred core _ _ => ltOk core 192
  | .cbar core _ _ => ltOk core 192
  | .csend core _ _ => ltOk core 192
  | .crecv core _ _ => ltOk core 192
  | .collectiveDequeue => true
  | .collectiveComplete _ => true
  | .collectiveTimeout _ => true
  | .epochAdvance => true
  | .dld core _ _ errs => ltOk core 192 && errs.all errOk
  | .dsav core _ _ errs => ltOk core 192 && errs.all errOk
  | .dset core _ _ => ltOk core 192
  | .dins core _ _ => ltOk core 192
  | .dadd core _ _ => ltOk core 192
  | .dcpy core _ _ => ltOk core 192
  | .sclAdd core _ _ => ltOk core 192
  | .sclSub core _ _ => ltOk core 192
  | .sclMul core _ _ => ltOk core 192
  | .sclAnd core _ _ => ltOk core 192
  | .sclOr core _ _ => ltOk core 192
  | .sclXor core _ _ => ltOk core 192
  | .sclShl core _ _ => ltOk core 192
  | .sclShr core _ _ => ltOk core 192
  | .sclSar core _ _ => ltOk core 192
  | .sclMin core _ _ => ltOk core 192
  | .sclMax core _ _ => ltOk core 192
  | .sclSlt core _ _ => ltOk core 192
  | .sclSltu core _ _ => ltOk core 192
  | .sclLi core _ _ => ltOk core 192
  | .sclLd core _ _ errs => ltOk core 192 && errs.all errOk
  | .sclSt core _ _ => ltOk core 192
  | .sclSrd core _ _ => ltOk core 192
  | .sclSrw core _ _ => ltOk core 192
  | .sclSrc core _ _ => ltOk core 192
  | .waitm core _ _ => ltOk core 192
  | .waitmTimeout core ctx => ltOk core 192 && ltOk ctx 8
  | .istoreReload core index => ltOk core 192 && ltOk index 16384
  | .cmdNop q cmd => ltOk q 16 && lenOk cmd 64 64
  | .progLoad q cmd => ltOk q 16 && lenOk cmd 64 64
  | .coreStart q cmd => ltOk q 16 && lenOk cmd 64 64
  | .coreStop q cmd => ltOk q 16 && lenOk cmd 64 64
  | .eventAdd q cmd => ltOk q 16 && lenOk cmd 64 64
  | .cmdFence q cmd => ltOk q 16 && lenOk cmd 64 64
  | .sqTailDoorbell master queue tail => masterOk master && ltOk queue 16 && bitsOk tail 16
  | .qcfgEnableWrite master queue value => masterOk master && ltOk queue 16 && bitsOk value 32
  | .cqHeadWrite master queue head => masterOk master && ltOk queue 16 && bitsOk head 16
  | .frHeadWrite master head => masterOk master && bitsOk head 17
  | .regWrite master offset width value => masterOk master && bitsOk offset 26 && widthOk width && bitsOk value (8 * width)
  | .rcFieldRead master offset width => masterOk master && bitsOk offset 26 && widthOk width
  | .gtimeRead master width => masterOk master && widthOk width
  | .nodeIdWrite master value => masterOk master && bitsOk value 32
  | .bandViewWrite master word value => masterOk master && ltOk word 24 && bitsOk value 32
  | .clipLimitWrite master core value => masterOk master && ltOk core 192 && bitsOk value 32
  | .clipcntWrite master core bank value => masterOk master && ltOk core 192 && ltOk bank 32 && bitsOk value 32
  | .numStatusClear master core value => masterOk master && ltOk core 192 && bitsOk value 32
  | .ctxFlaggedClear master slot => masterOk master && ltOk slot 4096
  | .retireAck master seq => masterOk master && bitsOk seq 32
  | .ledgerAppend => true
  | .timeSetWrite master ns => masterOk master && bitsOk ns 64
  | .rootEnableWrite master value => masterOk master && bitsOk value 32
  | .beatCfgWrite master field value => masterOk master && ltOk field 4 && bitsOk value 64
  | .beatEnableWrite master value => masterOk master && bitsOk value 32
  | .pinCfgWrite master slot value => masterOk master && (match slot with | some c => ltOk c 1024 | none => true) && bitsOk value 32
  | .progValidate master slot => masterOk master && ltOk slot 256
  | .shardValidate master entry => masterOk master && ltOk entry 4096
  | .commitAbort master => masterOk master
  | .forceCommit master => masterOk master
  | .forceAbort master => masterOk master
  | .commitGroupWrite master _ value => masterOk master && bitsOk value 64
  | .burgeeRenew master => masterOk master
  | .burgeeRelease master => masterOk master
  | .burgeeHandover master succ node => masterOk master && ltOk succ 8 && bitsOk node 16
  | .claimGo master => masterOk master
  | .claimVerified _ _ => true
  | .burgeeExpired => true
  | .handoverExpiry => true
  | .fwUpdateGo master => masterOk master
  | .fwUpdateDone _ => true
  | .fwMinVersionWrite master svn => masterOk master && bitsOk svn 32
  | .keyUpdateGo master => masterOk master
  | .keyUpdateDone _ => true
  | .variantUpdateGo master => masterOk master
  | .variantUpdateDone _ => true
  | .attestGo master => masterOk master
  | .quoteDone sig => lenOk sig 3309 3309
  | .watchdogKick => true
  | .watchdogRestart => true
  | .pwrEnterP1 master => masterOk master
  | .pwrEnterP2 master => masterOk master
  | .pwrEnterP3 master => masterOk master
  | .entryReask => true
  | .entryDelayExpired => true
  | .entryComplete => true
  | .powerExitDone r => stageOk r
  | .corePwrWake master core => masterOk master && ltOk core 192
  | .wakeSend master ports => masterOk master && bitsOk ports 39
  | .monRxdWake => true
  | .wakeNRelease => true
  | .pkgPowerSample watts => bitsOk watts 16
  | .dieTempSample die temp => ltOk die 4 && bitsOk temp 8
  | .resetN slot => ltOk slot 8
  | .perstN => true
  | .hostLinkDown => true
  | .flr => true
  | .aonPowerLoss => true
  | .bar2Read offset len errs => bitsOk offset 36 && between len 1 4096 && errs.all errOk
  | .bar2Write offset bytes => bitsOk offset 36 && lenOk bytes 1 4096
  | .i3cRead32 offset => bitsOk offset 26
  | .i3cRead64 offset => bitsOk offset 26
  | .i3cWrite32 offset value => bitsOk offset 26 && bitsOk value 32
  | .i3cWrite64 offset value => bitsOk offset 26 && bitsOk value 64
  | .i3cArm code => bitsOk code 8
  | .i3cArmExpiry => true
  | .i3cEpo code => bitsOk code 8
  | .i3cReset code slot => bitsOk code 8 && ltOk slot 8
  | .i3cClaimChunk offset bytes => bitsOk offset 16 && lenOk bytes 1 240
  | .i3cAddrAssign addr => bitsOk addr 7
  | .mgmtRegRead p => packetOk p
  | .mgmtRegWrite p => packetOk p
  | .mgmtClaimChunk p => packetOk p
  | .mgmtFabricCmd p => packetOk p
  | .mgmtCommand p => packetOk p
  | .mgmtBuntingRead p => packetOk p
  | .mgmtShardRead p => packetOk p
  | .fabricCmdVerified _ => true
  | .fabricCmdTimeout => true
  | .sliceCommand => true
  | .tableCommand => true
  | .routerCycle arrivals board optical => arrivals.all (fun x => ltOk x.1 39 && packetOk x.2) &&
    board.all (fun x => ltOk x 7) && optical.all (fun x => between x 7 38)
  | .ageDrop port p => ltOk port 39 && packetOk p
  | .buntingInterval corr => corr.all (fun x => bitsOk x 32)
  | .codewordUncorrectable port lost lane => ltOk port 39 && (match lost with | some x => bitsOk x.1 16 && bitsOk x.2 16 | none => true) && ltOk lane 8
  | .replayRequest port num ranges => ltOk port 39 && bitsOk num 8 && rangesOk ranges
  | .controlSlotReceive port slot => ltOk port 39 && lenOk slot 288 288
  | .halyardSend => true
  | .halyardReceive port _ => ltOk port 39
  | .timeHoldover => true
  | .delayMeasurement port => ltOk port 39
  | .portNarrowed port lane => ltOk port 39 && ltOk lane 8
  | .laneMarkerReceive port lane _ => ltOk port 39 && ltOk lane 8
  | .laneLost port lane => ltOk port 39 && ltOk lane 8
  | .pauseTimeout port => ltOk port 39
  | .laneRemove port lane reason num => ltOk port 39 && ltOk lane 8 && ltOk reason 32 && bitsOk num 8
  | .laneAdd port lane reason num _ => ltOk port 39 && ltOk lane 8 && ltOk reason 32 && bitsOk num 8
  | .laneAck port lane num => ltOk port 39 && ltOk lane 8 && bitsOk num 8
  | .laneNak port lane num => ltOk port 39 && ltOk lane 8 && bitsOk num 8
  | .laneCalStep port lane ⟨step, eye⟩ num =>
    ltOk port 39 && ltOk lane 8 && bitsOk step 8 && bitsOk num 8 && bitsOk eye 16
  | .ringLoopUpdate port lane _ _ ⟨monitor, _⟩ heater => ltOk port 39 && ltOk lane 8 && bitsOk monitor 16 && bitsOk heater 16
  | .ringUnlock port lane => ltOk port 39 && ltOk lane 8
  | .ringRelock port lane _ ⟨tx, rx⟩ ⟨temp, _⟩ => ltOk port 39 && ltOk lane 8 && bitsOk tx 16 && bitsOk rx 16 && bitsOk temp 8
  | .calibrationTurn port => ltOk port 39
  | .calibrationDone port eye tx rx => ltOk port 39 && bitsOk eye 16 && bitsOk tx 16 && bitsOk rx 16
  | .boardAdaptTurn port eye => ltOk port 39 && bitsOk eye 16
  | .laserPowerSample engine chan _ bias _ => ltOk engine 8 && ltOk chan 8 && bitsOk bias 12
  | .laserFade engine chan => ltOk engine 8 && ltOk chan 8
  | .laserEol engine chan => ltOk engine 8 && ltOk chan 8
  | .laserFail engine chan => ltOk engine 8 && ltOk chan 8
  | .laserHandover engine chan _ => ltOk engine 8 && ltOk chan 8
  | .launchCap port _ => ltOk port 39
  | .openFibre port _ => ltOk port 39
  | .partnerPulsesSeen r => trainOk r
  | .opticalWakePattern port => ltOk port 39
  | .boardWakePattern port => ltOk port 39
  | .trainWindowExpiry port => ltOk port 39
  | .dieLinkRetry link lane _ lanes => ltOk link 8 && ltOk lane 64 && ltOk lanes 256
  | .vrDroop core _ mv setpoint => ltOk core 192 && bitsOk mv 16 && bitsOk setpoint 16
  | .pathDelaySample phys _ => ltOk phys 208
  | .ringOscillatorSample phys _ => ltOk phys 208
  | .ageingRecord margins drifts trends => margins.all (fun x => ltOk x.1 20) && drifts.all (fun x => ltOk x.1 32) && trends.all (fun x => ltOk x.1 64)
  | .stackTempSample stack temp => ltOk stack 20 && bitsOk temp 8
  | .stackThrottleDwell stack => ltOk stack 20
  | .throttleWindow stack _ _ => ltOk stack 20
  | .stackScrub stack syms => ltOk stack 20 && symsOk syms
  | .spadScrub core errs => ltOk core 192 && errs.all errOk
  | .pcRetired pc => ltOk pc 1280
  | .data p => packetOk p
  | .landing p => packetOk p
  | .share p => packetOk p
  | .gatherReq p => packetOk p
  | .permOffer p => packetOk p
  | .adopt p => packetOk p
  | .partialUp p => packetOk p
  | .resultDown p => packetOk p
  | .barArrive p => packetOk p
  | .barRelease p => packetOk p
  | .subtreeDone p => packetOk p
  | .grant ⟨p, errs⟩ => packetOk p && errs.all errOk
  | .grantReturn p => packetOk p
  | .noticePrune p => packetOk p
  | .noticeVersionGone p => packetOk p
  | .noticeEpochStale p => packetOk p
  | .noticePermConflict p => packetOk p
  | .noticeFlagged p => packetOk p
  | .noticeClosed p => packetOk p
  | .lsRead p errs => packetOk p && errs.all errOk
  | .lsWrite ⟨p, errs⟩ => packetOk p && errs.all errOk
  | .signal p => packetOk p
  | .lsReplyData p => packetOk p
  | .writeAck p => packetOk p
  | .signalAck p => packetOk p
  | .dataPoison p => packetOk p
  | .lsReplyFault p => packetOk p
  | .e2eRetransmit _ peer bind ⟨seq, errs⟩ => bitsOk peer 16 && ltOk bind 16 && bitsOk seq 32 && errs.all errOk
  | .grantResend peer bind => bitsOk peer 16 && ltOk bind 16
  | .ackGrantSend peer => bitsOk peer 16
  | .swapWindow => true
  | .beatBoundary core => ltOk core 192
  | .slip core => ltOk core 192
  | .stepLate core => ltOk core 192
  | .updatePassStart engine _ errs => ltOk engine 16 && errs.all errOk
  | .updatePassDone engine => ltOk engine 16
  | .foldAndExchange ⟨entry, errs⟩ => ltOk entry 4096 && errs.all errOk
  | .updResidueRetry engine lane => ltOk engine 16 && ltOk lane 16
  | .sparseUpdate ⟨entry, errs⟩ => ltOk entry 4096 && errs.all errOk
  | .commitVote => true
  | .commitResult => true
  | .commitFlip => true
  | .commitUndecided _ => true
  | .stageEnd r => stageOk r
  | .stageTimeout => true
  | .monHelp line => lenOk line 1 513
  | .monId line => lenOk line 1 513
  | .monPen line => lenOk line 1 513
  | .monRd line => lenOk line 1 513
  | .monWr line => lenOk line 1 513
  | .monDump line => lenOk line 1 513
  | .monShard line => lenOk line 1 513
  | .monBunt line => lenOk line 1 513
  | .monLedger line => lenOk line 1 513
  | .monBeat line => lenOk line 1 513
  | .monTemp line => lenOk line 1 513
  | .monFaults line => lenOk line 1 513
  | .monClaimChunk line => lenOk line 1 513
  | .monClaimGo line => lenOk line 1 513
  | .monBurgeeRenew line => lenOk line 1 513
  | .monBurgeeRelease line => lenOk line 1 513
  | .monQuote line => lenOk line 1 513
  | .monStage line => lenOk line 1 513
  | .monFwupd line => lenOk line 1 513
  | .monVariant line => lenOk line 1 513
  | .monKeyupd line => lenOk line 1 513
  | .monBaud line => lenOk line 1 513
  | .monBaudRevert => true
  | .illegalClass core _ => ltOk core 192
  | .illegalOp core _ => ltOk core 192
  | .badCommand q cmd => ltOk q 16 && lenOk cmd 64 64
  | .monUnknown line => lenOk line 1 513
  | .i3cBadCommand command => bitsOk command 8
  | .factoryCommand _ revokes key => revokes.all (fun x => ltOk x 8192) && (match key with | some x => lenOk x 1952 1952 | none => true)
  | .pcieL1Exit => true
  | .railTrip rail mv => ltOk rail 6 && bitsOk mv 16

end Sys2Proof
end

