-- ==== Sys2Proof/Tests/Slice0.lean ====
section
/-! SUPPORT. Tests: well-formedness, words of the opcode table, small results the spec works out, and for each statement a state and
operands that meet its hypotheses. -/

namespace Sys2Proof.Tests

open Sys2Proof Sys2Proof.Machine
set_option Elab.async false

/-! ### Small states -/

/-- The block at reset, with the cores of a JX2-960. -/
def d960 : Dev := { devReset with boot := { bootReset with part := 960 } }
/-- The state of a device. -/
def st (d : Dev) : State := { State.reset with dev := d }
/-- A core whose context 0 is runnable at index `pc`, where the store holds `w`. -/
def coreAt (pc : Nat) (w : W128) : Core :=
  { coreReset with mapState := 0, istore := [(pc, w)], ctxs := [(0, { ctxReset with st := 1, pc := pc })] }
/-- Core 0 of a JX2-960 with its context 0 at `w`, index `pc`, changed by `g`. -/
def onCore (pc : Nat) (w : W128) (g : Core → Core) : State := st (setCore d960 0 (g (coreAt pc w)))
/-- The same at index 0. -/
def stand (w : W128) : State := onCore 0 w id
/-- Context 0 changed. -/
def ctx0 (g : Ctx → Ctx) (k : Core) : Core := { k with ctxs := [(0, g (ctxOf k 0))] }
/-- A long operation of context 0 with word `w`. -/
def opOf (w : W128) : LongOp :=
  { id := 0, ctx := 0, pc := 0, word := w, srcs := [], dsts := [], booksRead := [], bookWritten := none, fault := none,
    awaiting := 0, dd := 0#512, ds := 0#512, aux := 0#512, buf := [], bufPoison := [], skip := [], vals := [] }
/-- A core with that operation outstanding. -/
def withOp (w : W128) (k : Core) : Core := { k with ops := [opOf w], nextOp := 1 }
/-- A register word at reset changed. -/
def withReg (off v : Nat) (s : State) : State := { s with dev := regPutNat s.dev off v }

/-- No context waits in SWAIT where each waits for nothing. -/
theorem noSwait_of_none (d : Dev) (n : Nat) (h : ∀ e, e < 8 → (ctxOf (coreOf d n) e).wait = .none) : NoSwait d n := by
  intro e he k v dec hw
  rw [h e he] at hw
  exact nomatch hw

/-! ### Well-formedness: each check accepts a term in range and refuses one that is not -/

/-- A packet of a type for a node, its check right. -/
def pk0 : Packet :=
  { typ := 1, len := 256, dst := 1, src := 0, slice := 0, hops := 0, injTime := 0, seq := 0, offset := 0, sub := 0, mcast := false
    last := false, replayed := false, epoch := 0, dctx := 0, check := 0, payload := List.replicate 256 0#8 }
/-- A training result of port `p` with eight lanes. -/
def tr0 (p : Nat) : TrainResult := { port := p, mask := 255, node := 0, part := 960, farPort := 0, rtt := 0, asym := 0 }
/-- A stage that measured nothing wrong. -/
def sr0 : StageResult :=
  { rails := 63, romVersion := 1, failedTest := 0, keyBad := false, linksBad := 0, linkSpares := [], stackRes := [], pcsBad := []
    enginesBad := 0, storeBad := false, ports := [], numbers := [], sparesBad := [], mapBad := false }

theorem test_wf_core : (Instr.nop 191 0#4 0#112).wf = true ∧ (Instr.nop 192 0#4 0#112).wf = false := by decide
theorem test_wf_error : (Instr.sclLd 0 0#4 0#112 [.spad 0 786431 1]).wf = true ∧
    (Instr.sclLd 0 0#4 0#112 [.spad 0 786432 1]).wf = false ∧ (Instr.sclLd 0 0#4 0#112 [.line 1280 0 [(0, 1)]]).wf = false := by
  decide
theorem test_wf_bytes : (Instr.cmdNop 0 (List.replicate 64 0#8)).wf = true ∧ (Instr.cmdNop 0 (List.replicate 63 0#8)).wf = false ∧
    (Instr.cmdNop 16 (List.replicate 64 0#8)).wf = false := by decide +kernel
theorem test_wf_master : (Instr.burgeeRenew 4).wf = true ∧ (Instr.burgeeRenew 0).wf = false ∧ (Instr.burgeeRenew 5).wf = false := by
  decide
theorem test_wf_register : (Instr.regWrite 1 0x9000 8 0).wf = true ∧ (Instr.regWrite 1 0x9000 2 0).wf = false ∧
    (Instr.regWrite 1 (2 ^ 26) 4 0).wf = false ∧ (Instr.regWrite 1 0 4 (2 ^ 32)).wf = false := by decide
theorem test_wf_packet : packetOk pk0 = true ∧ packetOk { pk0 with typ := 16 } = false ∧
    packetOk { pk0 with payload := [] } = false := by decide +kernel
theorem test_wf_ranges : rangesOk [(0, 65535)] = true ∧ rangesOk [(0, 65536)] = false ∧
    rangesOk [(0, 0), (0, 0), (0, 0), (0, 0), (0, 0)] = false := by decide
theorem test_wf_training : trainOk (tr0 38) = true ∧ trainOk (tr0 39) = false := by decide
theorem test_wf_stage : stageOk sr0 = true ∧ stageOk { sr0 with pcsBad := [1280] } = false ∧
    stageOk { sr0 with stackRes := [(20, 0, 0)] } = false := by decide
/-- The table gives no row bits, so no word spells a command and a fetch word leaves the state as it is. -/
theorem test_no_table_word : decodeTableWord 32 0 = none ∧ State.withFetchWord State.reset 32 0 = State.reset := ⟨rfl, rfl⟩

/-! ### Words written out from the spec's encodings (R83, R92, R94, R99, R124, R128), run as they stand -/

/-- What a command leaves of the device, where it answers. -/
def after (i : Instr) (s : State) : State := match exec i s with | .next t => t | _ => s

/-- SCL.ADD S3 := S1 + S2: class 7, operation 0x01, SD 3, SA 1, SB 2. -/
theorem test_word_add : mkWord 7 1 0#4 (BitVec.ofNat 112 (3 * 2 ^ 107 + 1 * 2 ^ 102 + 2 * 2 ^ 97)) =
    0x7010184400000000000000000000000#128 <<< 4 := by decide
/-- SCL.ADD wraps modulo 2^64 (R86). -/
theorem test_add_wraps :
    sreg (ctxIn (after (.sclAdd 0 0#4 (BitVec.ofNat 112 (3 * 2 ^ 107 + 1 * 2 ^ 102 + 2 * 2 ^ 97)))
      (onCore 0 (mkWord 7 1 0#4 (BitVec.ofNat 112 (3 * 2 ^ 107 + 1 * 2 ^ 102 + 2 * 2 ^ 97)))
        (ctx0 (fun x => { x with sregs := [(1, 0xFFFFFFFFFFFFFFFF#64), (2, 2#64)] })))) 0 0) 3 = 1#64 := by decide +kernel
/-- S0 reads 0 and keeps nothing (R86). -/
theorem test_s0_discards :
    sreg (ctxIn (after (.sclLi 0 0#4 (BitVec.ofNat 112 (5 * 2 ^ 32)))
      (stand (mkWord 7 0x0E 0#4 (BitVec.ofNat 112 (5 * 2 ^ 32))))) 0 0) 0 = 0#64 := by decide +kernel
/-- BR with COND 1 on S0 goes back by 2 (R93, R94). -/
theorem test_branch_back :
    (ctxIn (after (.br 0 1#4 (BitVec.ofNat 112 0xFFFFFFFE)) (onCore 7 (mkWord 0 2 1#4 (BitVec.ofNat 112 0xFFFFFFFE)) id)) 0 0).pc =
      5 := by decide +kernel
/-- A branch below index 0 faults the context (R93). -/
theorem test_branch_range :
    (ctxIn (after (.br 0 0#4 (BitVec.ofNat 112 0xFFFFFFFE)) (onCore 1 (mkWord 0 2 0#4 (BitVec.ofNat 112 0xFFFFFFFE)) id)) 0 0).st =
      6 := by decide +kernel
/-- SWAIT with IMM and DEC subtracts V (R102): counter 2 at 9, V 4. -/
theorem test_swait_dec :
    regNat (after (.swait 0 3#4 (BitVec.ofNat 112 (2 * 2 ^ 106 + 4)))
      (withReg (coreOff 0 0x408) 9 (stand (mkWord 1 3 3#4 (BitVec.ofNat 112 (2 * 2 ^ 106 + 4)))))).dev (coreOff 0 0x408) = 5 := by
  decide +kernel
/-- DADD of IMM32 −1 to word 3 of D2 (R126). -/
theorem test_dadd :
    getWord (descOf (coreOf (after (.dadd 0 1#4 (BitVec.ofNat 112 (2 * 2 ^ 104 + 3 * 2 ^ 101 + 0xFFFFFFFF)))
      (stand (mkWord 6 5 1#4 (BitVec.ofNat 112 (2 * 2 ^ 104 + 3 * 2 ^ 101 + 0xFFFFFFFF))))).dev 0) 2) 3 = 0xFFFFFFFFFFFFFFFF#64 := by
  decide +kernel

/-! ### Results the spec works out -/

/-- The largest CB4 sums stay finite; one more product beyond 2^39 − 1 is +∞ (R48, R49). -/
theorem test_accumulator_edge : accAdd (.int 549755813886) 1 = .int 549755813887 ∧ accAdd (.int 549755813887) 1 = .inf false ∧
    accAdd (.int (-549755813888)) (-1) = .inf true := by decide
/-- The check codes of the manual's session (R557, R558, R562). -/
theorem test_check_codes : lineCheck [.txt "OK"] = 0x9A ∧ lineCheck [.txt "!P", .dec 8, .dec 3] = 0x1C := by decide +kernel
/-- The manual's write of TIME_CTL parses with its check code right, underscores ignored (R556, R557). -/
theorem test_line_parse :
    let l := "WR 0x020_0020 1*75".toList.map (fun c => BitVec.ofNat 8 c.toNat)
    (monParse (editLine l)).check = true ∧ (monParse (editLine l)).right = true ∧
      ((monParse (editLine l)).toks.map numOf).drop 1 = [some 0x200020, some 1] := by
  decide +kernel
/-- A stack at step 2 serves half its nominal lines, the reserved class first (R246): class A, 6,400 lines. -/
theorem test_throttle_window :
    let t := after (.throttleWindow 0 2000 9000) (st { d960 with stk := [(0, { stackOf d960 0 with step := 2 })] })
    ((stackOf t.dev 0).reserved, (stackOf t.dev 0).general) = (2000, 1200) := by decide +kernel

/-! ### States that meet the statements' hypotheses: core instructions

Each theorem is named for the statement it serves; a statement with several clauses has one part for each. -/

/-- Operand bits. -/
abbrev ob (v : Nat) : BitVec 112 := BitVec.ofNat 112 v

theorem witness_StepRunsFront : ∃ s : State, s.pending = [.nop 0 0#4 0#112] := ⟨{ State.reset with pending := _ }, rfl⟩
theorem witness_IdleStepPassesNanosecond : State.reset.pending = [] := rfl
theorem witness_StepKeepsMemoryForm : State.reset.Safe ∧ ∃ t, step State.reset = .next t :=
  ⟨by decide +kernel, _, rfl⟩

theorem witness_NopAndHandOver :
    StandsAt (stand 0#128) 0 (mkWord 0 0 0#4 0#112) 0 ∧ InStore (ctxIn (stand 0#128) 0 0) ∧
    StandsAt (onCore 16383 0#128 id) 0 (mkWord 0 0 0#4 0#112) 0 ∧ ¬ InStore (ctxIn (onCore 16383 0#128 id) 0 0) ∧
    (let w := mkWord 0 6 0#4 0#112
     StandsAt (stand w) 0 w 0 ∧ InStore (ctxIn (stand w) 0 0)) ∧
    (let w := mkWord 0 7 0#4 (ob 5)
     StandsAt (stand w) 0 w 0 ∧ onlyFields (ob 5) [(0, 16)] = true ∧ ctxBusy (coreOf (stand w).dev 0) 0 = false ∧
       StandsAt (onCore 0 w (withOp w)) 0 w 0 ∧ ctxBusy (coreOf (onCore 0 w (withOp w)).dev 0) 0 = true) ∧
    (let s := onCore 0 0#128 (ctx0 (fun x => { x with st := 2, hold := 16 }))
     coreInService s.dev 0 = true ∧ (coreOf s.dev 0).cur = 0 ∧ (ctxIn s 0 0).st = 2 ∧ 16 ≤ (ctxIn s 0 0).hold ∧
       nextRunnable (coreOf s.dev 0) 0 7 = none) ∧
    (let s := onCore 0 0#128 (fun k => { k with ctxs := [(0, { ctxReset with st := 2, hold := 16 }), (7, { ctxReset with st := 1 })] })
     coreInService s.dev 0 = true ∧ (ctxIn s 0 0).st = 2 ∧ 16 ≤ (ctxIn s 0 0).hold ∧ nextRunnable (coreOf s.dev 0) 0 7 = some 7) := by
  decide +kernel

/-- BR at index `pc` with COND `f`, operand bits `o`, S1 holding `a` and S2 `b`. -/
def brAt (pc : Nat) (f : BitVec 4) (o : BitVec 112) (a b : W64) : State :=
  onCore pc (mkWord 0 2 f o) (ctx0 (fun x => { x with sregs := [(1, a), (2, b)] }))

theorem witness_BranchesTestConditions :
    StandsAt (brAt 0 8#4 0#112 0#64 0#64) 0 (mkWord 0 2 8#4 0#112) 0 ∧
    (StandsAt (brAt 16383 0#4 0#112 0#64 0#64) 0 (mkWord 0 2 0#4 0#112) 0 ∧ onlyFields 0#112 [(0, 32)] = true ∧
      branchTarget 16383 0#112 = 16383) ∧
    (StandsAt (brAt 16383 0#4 (ob 1) 0#64 0#64) 0 (mkWord 0 2 0#4 (ob 1)) 0 ∧ branchTarget 16383 (ob 1) = 16384) ∧
    (StandsAt (brAt 0 0#4 (ob 0xFFFFFFFF) 0#64 0#64) 0 (mkWord 0 2 0#4 (ob 0xFFFFFFFF)) 0 ∧ branchTarget 0 (ob 0xFFFFFFFF) = -1) ∧
    (∀ e ∈ [(1, 0, 0, 1), (2, 1, 0, 0), (3, 2 ^ 64 - 1, 0, 0), (4, 0, 0, 2 ^ 64 - 1), (5, 2 ^ 64 - 1, 0, 0), (6, 0, 0, 2 ^ 64 - 1),
        (7, 0, 1, 2 ^ 64 - 1)],
      let f := BitVec.ofNat 4 e.1
      let o := ob (1 * 2 ^ 91 + (if 5 ≤ e.1 then 2 * 2 ^ 86 else 0))
      let x := BitVec.ofNat 64 e.2.1
      let y := BitVec.ofNat 64 e.2.2.1
      StandsAt (brAt 0 f o x y) 0 (mkWord 0 2 f o) 0 ∧
        onlyFields o ((0, 32) :: (if e.1 < 5 then [(91, 5)] else [(91, 5), (86, 5)])) = true ∧
        sreg (ctxIn (brAt 0 f o x y) 0 0) 1 = x ∧ sreg (ctxIn (brAt 0 f o x y) 0 0) 2 = y ∧
        InStore (ctxIn (brAt 0 f o (BitVec.ofNat 64 e.2.2.2) y) 0 0)) ∧
    (let w := mkWord 0 3 1#4 0#112
     let v := mkWord 3 8 0#4 0#112
     StandsAt (stand w) 0 w 0 ∧ onlyFields 0#112 [(0, 32)] = true ∧ vencBusy (coreOf (stand w).dev 0) 0 = false ∧
       natBit (regNat (stand w).dev (coreOff 0 0x304)) 0 ≠ natBit (1#4).toNat 0 ∧
       vencBusy (coreOf (onCore 0 w (withOp v)).dev 0) 0 = true ∧
       natBit (regNat (withReg (coreOff 0 0x304) 1 (stand w)).dev (coreOff 0 0x304)) 0 = natBit (1#4).toNat 0) := by
  decide +kernel

theorem witness_LoopsIterate :
    (∀ e ∈ [(0, ob 0, 0), (0, ob (16383 * 2 ^ 96), 1), (0, ob (16384 * 2 ^ 96), 0), (0, ob (2 * 2 ^ 96 + 3), 3)],
      StandsAt (onCore e.1 (mkWord 0 1 1#4 e.2.1) id) 0 (mkWord 0 1 1#4 e.2.1) 0 ∧
        onlyFields e.2.1 [(96, 16), (0, 32)] = true) ∧
    (let w := mkWord 0 1 0#4 (ob (2 * 2 ^ 96 + 1 * 2 ^ 91))
     let s := onCore 0 w (ctx0 (fun x => { x with sregs := [(1, 5#64)], loops := List.replicate 4 ⟨0, 9, 0, 0, 2⟩ }))
     StandsAt s 0 w 0 ∧ onlyFields (ob (2 * 2 ^ 96 + 1 * 2 ^ 91)) [(96, 16), (91, 5)] = true ∧ 4 ≤ (ctxIn s 0 0).loops.length) ∧
    (∀ i ∈ [0, 1, 2], let l : LoopLevel := ⟨3, 9, 0, i, 3⟩
     let x := { ctxReset with pc := 9, loops := [(⟨4, 8, 0, 0, 2⟩ : LoopLevel)] ++ l :: [⟨0, 9, 0, 0, 2⟩] }
     x.loops = [⟨4, 8, 0, 0, 2⟩] ++ l :: [⟨0, 9, 0, 0, 2⟩] ∧ (l.last = x.pc ∧ l.depth = x.calls.length) ∧
       (l.iter + 1 < l.count ∨ l.count ≤ l.iter + 1)) ∧
    InStore { ctxIn (stand 0#128) 0 0 with pc := 2 } := by
  decide +kernel

theorem witness_CallReturnAndSwitch :
    (let w := mkWord 0 4 0#4 (ob 3)
     let full := onCore 0 w (ctx0 (fun x => { x with calls := List.replicate 16 1 }))
     StandsAt (stand w) 0 w 0 ∧ onlyFields (ob 3) [(0, 32)] = true ∧ (ctxIn (stand w) 0 0).calls.length < 16 ∧
       branchTarget 0 (ob 3) = 3 ∧ StandsAt full 0 w 0 ∧ 16 ≤ (ctxIn full 0 0).calls.length) ∧
    (let w := mkWord 0 4 0#4 (ob 0xFFFFFFFF)
     StandsAt (stand w) 0 w 0 ∧ branchTarget 0 (ob 0xFFFFFFFF) < 0) ∧
    (let w := mkWord 0 5 0#4 0#112
     let r := onCore 0 w (ctx0 (fun x => { x with calls := [16383] }))
     let r2 := onCore 0 w (ctx0 (fun x => { x with calls := [16384] }))
     StandsAt (stand w) 0 w 0 ∧ (ctxIn (stand w) 0 0).calls = [] ∧ StandsAt r 0 w 0 ∧ (ctxIn r 0 0).calls = [16383] ∧
       (returnTo (ctxIn r 0 0) 16383).pc ≤ 16383 ∧ (ctxIn r 0 0).loops = [] ∧ StandsAt r2 0 w 0 ∧ (ctxIn r2 0 0).calls = [16384]) ∧
    (let k := { coreReset with ctxs := [(0, { ctxReset with st := 1 }), (3, { ctxReset with st := 1 })] }
     k.cur < 8 ∧ ctxRunnable (ctxOf k 3) = true ∧ (∀ i, i < 3 → 1 ≤ i → ctxRunnable (ctxOf k i) = false)) ∧
    (∀ j, j < 8 → 1 ≤ j → ctxRunnable (ctxOf (coreAt 0 0#128) (((coreAt 0 0#128).cur + j) % 8)) = false) := by
  decide +kernel

theorem witness_ReservedEncodingsFault :
    (let w := mkWord 9 0 0#4 0#112
     StandsAt (stand w) 0 w 0 ∧ 9 ≤ opClass w) ∧
    (let w := mkWord 0 8 0#4 0#112
     StandsAt (stand w) 0 w 0 ∧ opClass w < 9 ∧ opDefined (opClass w) (opCode w) = false) ∧
    (let w := mkWord 0 0 1#4 0#112
     StandsAt (stand w) 0 w 0 ∧ 0 < (1#4).toNat) ∧
    (let w := mkWord 7 0x22 0#4 (ob 1)
     StandsAt (stand w) 0 w 0 ∧ onlyFields (ob 1) [(52, 12), (97, 5)] = false) := by
  decide +kernel

theorem witness_ScalarArithmeticAndLoads :
    (∀ e ∈ [(0#4, ob (3 * 2 ^ 107 + 1 * 2 ^ 102 + 2 * 2 ^ 97), [(107, 5), (102, 5), (97, 5)]),
        (1#4, ob (3 * 2 ^ 107 + 1 * 2 ^ 102 + 0x80000000), [(107, 5), (102, 5), (0, 32)])],
      ∀ op ∈ [1, 2, 3, 4, 5, 6, 7, 8, 9, 10, 11, 12, 13], let w := mkWord 7 op e.1 e.2.1
        StandsAt (stand w) 0 w 0 ∧ e.1.toNat < 2 ∧ onlyFields e.2.1 e.2.2 = true ∧ InStore (ctxIn (stand w) 0 0)) ∧
    (let o := ob (3 * 2 ^ 107 + 9 * 2 ^ 32)
     StandsAt (stand (mkWord 7 0x0E 0#4 o)) 0 (mkWord 7 0x0E 0#4 o) 0 ∧ onlyFields o [(107, 5), (32, 64)] = true) ∧
    (∀ e ∈ [(0x060, true), (0x061, false)], let o := ob (3 * 2 ^ 107 + e.1 * 2 ^ 52)
      let w := mkWord 7 0x20 0#4 o
      StandsAt (stand w) 0 w 0 ∧ onlyFields o [(107, 5), (52, 12)] = true ∧
        (specRead (stand w).dev 0 0 (ctxIn (stand w) 0 0) e.1).isSome = e.2) := by
  decide +kernel

theorem witness_SpecialRegisters :
    (∀ k ∈ [0x010, 0x011, 0x020, 0x03F, 0x040, 0x041, 0x100, 0x13F, 0x140, 0x042, 0x000], ∀ op ∈ [0x21, 0x22],
      let o := ob (k * 2 ^ 52 + 1)
      let w := mkWord 7 op 1#4 o
      StandsAt (stand w) 0 w 0 ∧ InStore (ctxIn (stand w) 0 0) ∧ onlyFields o [(52, 12), (0, 32)] = true ∧ fld o 52 12 = k) ∧
    NoSwait (stand (mkWord 7 0x21 1#4 (ob (0x100 * 2 ^ 52 + 1)))).dev 0 :=
  ⟨by decide +kernel, noSwait_of_none _ _ (by decide +kernel)⟩

/-- SCL.LD or SCL.ST (operation `op`) at offset `off`, held in S1. -/
def memAt (op : Nat) (o : BitVec 112) (off : W64) (g : Core → Core) : State :=
  onCore 0 (mkWord 7 op 1#4 o) (fun k => g (ctx0 (fun x => { x with sregs := [(1, off)] }) k))

theorem witness_ScalarMemory :
    (∀ op ∈ [0x10, 0x11], let o := ob ((if op = 0x10 then 3 * 2 ^ 107 else 3 * 2 ^ 97) + 1 * 2 ^ 102)
      StandsAt (memAt op o 0x5FFFF8#64 id) 0 (mkWord 7 op 1#4 o) 0 ∧
        onlyFields o (if op = 0x10 then [(107, 5), (102, 5), (0, 32)] else [(102, 5), (97, 5), (0, 32)]) = true ∧
        (sreg (ctxIn (memAt op o 0x5FFFF8#64 id) 0 0) 1).toNat = 0x5FFFF8 ∧
        granulesReady (coreOf (memAt op o 0x5FFFF8#64 id).dev 0) [0x5FF] [] = true ∧
        granulesReady (coreOf (memAt op o 0x5FFFF8#64 id).dev 0) [] [0x5FF] = true ∧
        InStore (ctxIn (memAt op o 0x5FFFF8#64 id) 0 0) ∧ (memAt op o 0x5FFFF8#64 id).Safe ∧
        StandsAt (memAt op o 0x5FFFF9#64 id) 0 (mkWord 7 op 1#4 o) 0 ∧
        StandsAt (memAt op o 0x600000#64 id) 0 (mkWord 7 op 1#4 o) 0) ∧
    (let s := { memAt 0x10 (ob (1 * 2 ^ 102)) 8#64 id with mem := { State.reset.mem with poison := [spadBase 0 + 8] } }
     StandsAt s 0 (mkWord 7 0x10 1#4 (ob (1 * 2 ^ 102))) 0 ∧ spadBase 0 + 8 ∈ s.mem.poison) := by
  decide +kernel

theorem witness_DescriptorRegisters :
    (∀ e ∈ [(3, 0#4, ob (7 * 2 ^ 104 + 7 * 2 ^ 101 + 1 * 2 ^ 91), [(104, 8), (101, 3), (91, 5)]),
        (3, 1#4, ob (7 * 2 ^ 104 + 7 * 2 ^ 101 + 5), [(104, 8), (101, 3), (0, 32)]),
        (3, 3#4, ob (255 * 2 ^ 104 + 5), [(104, 8), (101, 3), (0, 32)]),
        (4, 0#4, ob (448 * 2 ^ 95 + 63 * 2 ^ 89 + 1 * 2 ^ 84), [(104, 8), (95, 9), (89, 6), (84, 5)]),
        (4, 0#4, ob (449 * 2 ^ 95 + 63 * 2 ^ 89), [(104, 8), (95, 9), (89, 6), (84, 5)]),
        (5, 0#4, ob (1 * 2 ^ 91), [(104, 8), (101, 3), (91, 5)]), (5, 1#4, ob 5, [(104, 8), (101, 3), (0, 32)]),
        (6, 0#4, ob (1 * 2 ^ 96), [(104, 8), (96, 8)]), (1, 0#4, ob (0x600000 - 64), [(104, 8), (91, 5), (0, 32)]),
        (1, 0#4, ob 1, [(104, 8), (91, 5), (0, 32)]), (1, 0#4, ob 0x600000, [(104, 8), (91, 5), (0, 32)]),
        (2, 0#4, ob (0x600000 - 64), [(104, 8), (91, 5), (0, 32)]), (2, 0#4, ob 1, [(104, 8), (91, 5), (0, 32)]),
        (2, 0#4, ob 0x600000, [(104, 8), (91, 5), (0, 32)])],
      let w := mkWord 6 e.1 e.2.1 e.2.2.1
      StandsAt (stand w) 0 w 0 ∧ InStore (ctxIn (stand w) 0 0) ∧ onlyFields e.2.2.1 e.2.2.2 = true) ∧
    granulesReady (coreOf (stand 0#128).dev 0) [0x5FF] [] = true ∧ granulesReady (coreOf (stand 0#128).dev 0) [] [0x5FF] = true ∧
    (stand 0#128).Safe ∧ (stand 0#128).mem.poison = [] := by
  decide +kernel

theorem witness_SfencAndSwaitWait :
    (∀ f ∈ (rangeFrom 0 16).map (BitVec.ofNat 4), let w := mkWord 1 2 f 0#112
      StandsAt (stand w) 0 w 0 ∧ (coreOf (stand w).dev 0).ops = [] ∧ (stand w).dev.ni.board = [] ∧ InStore (ctxIn (stand w) 0 0)) ∧
    (let w := mkWord 1 2 2#4 0#112
     let s := stand w
     let d := { s.dev with ni := { s.dev.ni with board := [⟨1, 0, 2, 0, 0, 0, w, 0, 0, 0, 0, [], 0, true, 0⟩] } }
     StandsAt { s with dev := d } 0 w 0 ∧ ∃ r ∈ d.ni.board, r.kind = 2 ∧ r.core = 0 ∧ r.ctx = 0) ∧
    (∀ e ∈ [(0, 3), (1, 4), (4, 5)],
      let w := mkWord 1 2 (BitVec.ofNat 4 e.1) 0#112
      let v := mkWord e.2 1 0#4 0#112
      StandsAt (onCore 0 w (withOp v)) 0 w 0 ∧
        (coreOf (onCore 0 w (withOp v)).dev 0).ops.map (fun p => (p.ctx, opClass p.word)) = [(0, opClass v)]) ∧
    (let o := ob (2 * 2 ^ 106 + 4)
     let w := mkWord 1 3 3#4 o
     StandsAt (stand w) 0 w 0 ∧ onlyFields o [(106, 6), (0, 32)] = true ∧ regNat (stand w).dev (coreOff 0 0x408) < 4 ∧
       StandsAt (withReg (coreOff 0 0x408) 4 (stand w)) 0 w 0 ∧
       regNat (withReg (coreOff 0 0x408) 4 (stand w)).dev (coreOff 0 0x408) = 4 ∧ InStore (ctxIn (stand w) 0 0)) := by
  decide +kernel

/-- SSIG with flags `f` at a device that is slot 0 of a board whose devices are members. -/
def sigAt (f : BitVec 4) (o : BitVec 112) (members : Nat) : State :=
  let s := stand (mkWord 1 4 f o)
  { s with dev := { s.dev with fab := { s.dev.fab with members := members } } }

theorem witness_SsigAdds :
    (let o := ob (5 * 2 ^ 106 + 65535)
     let w := mkWord 1 4 0#4 o
     StandsAt (stand w) 0 w 0 ∧ onlyFields o [(106, 6), (96, 8), (0, 16)] = true ∧ corePresent (stand w).dev 0 = true ∧
       (∀ i, i < 8 → (ctxIn (stand w) 0 i).st ≠ 5) ∧ (stand w).dev.pwr.entering = false ∧ InStore (ctxIn (stand w) 0 0)) ∧
    NoSwait (stand (mkWord 1 4 0#4 (ob (5 * 2 ^ 106 + 65535)))).dev 0 ∧
    (let o := ob (192 * 2 ^ 96)
     let w := mkWord 1 4 0#4 o
     StandsAt (stand w) 0 w 0 ∧ corePresent (stand w).dev 192 = false) ∧
    (let w := mkWord 1 4 1#4 0#112
     let s := onCore 0 w (withOp (mkWord 3 1 0#4 0#112))
     StandsAt s 0 w 0 ∧ corePresent s.dev 0 = true ∧ fenceBusy s.dev 0 0 true true false false = true) ∧
    (let o := ob (1 * 2 ^ 93)
     let w := mkWord 1 4 2#4 o
     StandsAt (sigAt 2#4 o 0) 0 w 0 ∧ onlyFields o [(106, 6), (96, 8), (0, 16), (93, 3)] = true ∧ ownSlot (sigAt 2#4 o 0).dev ≠ 1 ∧
       isMember (sigAt 2#4 o 0).dev (slotNode (sigAt 2#4 o 0).dev 1) = false ∧
       StandsAt (sigAt 2#4 o 3) 0 w 0 ∧ isMember (sigAt 2#4 o 3).dev (slotNode (sigAt 2#4 o 3).dev 1) = true) :=
  ⟨by decide +kernel, noSwait_of_none _ _ (by decide +kernel), by and_intros <;> decide +kernel⟩

theorem witness_BeatsAndWaits :
    (let o := ob (3 * 2 ^ 107)
     let w := mkWord 1 1 0#4 o
     let two := onCore 0 w (fun k => { k with ctxs := k.ctxs ++ [(1, { ctxReset with st := 1 })] })
     StandsAt two 0 w 0 ∧ onlyFields o [(107, 5)] = true ∧ (ctxIn two 0 1).st = 1 ∧ (ctxIn two 0 1).wait = .none ∧
       StandsAt (onCore 0 w (fun k => { k with beat := { k.beat with enabled := false } })) 0 w 0 ∧
       (∀ e, e < 8 → e ≠ 0 → (ctxIn (stand w) 0 e).st = 0 ∧ (ctxIn (stand w) 0 e).wait = .none) ∧
       beatEnable (stand w).dev = false ∧ InStore (ctxIn (stand w) 0 0)) ∧
    (let o := ob 100
     let w := mkWord 8 1 0#4 o
     StandsAt (stand w) 0 w 0 ∧ onlyFields o [(0, 32)] = true ∧ ctxBusy (coreOf (stand w).dev 0) 0 = false ∧
       StandsAt (onCore 0 w (withOp w)) 0 w 0 ∧ ctxBusy (coreOf (onCore 0 w (withOp w)).dev 0) 0 = true ∧
       (let s := onCore 0 w (fun k => { k with
          ctxs := k.ctxs ++ [(7, { ctxReset with st := 4, wait := .sbeat 3 true })], beat := { k.beat with enabled := false } })
        StandsAt s 0 w 0 ∧ ctxBusy (coreOf s.dev 0) 0 = false ∧ (ctxIn s 0 7).st = 4 ∧ (ctxIn s 0 7).wait = .sbeat 3 true ∧
          ctxBusy (coreOf s.dev 0) 7 = false ∧ (∀ e, e < 7 → e ≠ 0 → (ctxIn s 0 e).st = 0) ∧
          (coreOf s.dev 0).beat.enabled = false ∧ beatEnable s.dev = false ∧ InStore (ctxIn s 0 7))) ∧
    (let s := onCore 0 0#128 (ctx0 (fun x => { x with st := 5, wait := .waitm 100 }))
     (ctxIn s 0 0).wait = .waitm 100 ∧ InStore (ctxIn s 0 0)) := by
  decide +kernel

/-! ### States that meet the statements' hypotheses: long operations -/

/-- A descriptor register naming a tensor of format `fmt` at `base`, each dimension an extent and a stride in bytes. -/
def dsc (fmt base : Nat) (dims : List (Nat × Nat)) : BitVec 512 :=
  BitVec.ofNat 512 (base + fmt * 2 ^ 48 + dims.length * 2 ^ 52 + 2 ^ 508 +
    (dims.zipIdx.map (fun p => (p.1.1 + p.1.2 * 2 ^ 24) * 2 ^ (64 * (1 + p.2)))).sum)
/-- A packed vector of `n` elements of format `fmt` at offset `off` of core 0's scratchpad. -/
def vecDsc (fmt off n : Nat) : BitVec 512 := dsc fmt (spadBase 0 + off) [(n, if fmt = 3 then 0 else elemSize fmt)]
/-- Descriptor registers D0 on. -/
def withDescs (ds : List (BitVec 512)) (k : Core) : Core := { k with descs := ds.zipIdx.map (fun p => (p.2, p.1)) }
/-- Granule 0 is the destination of an outstanding operation. -/
def granBusy (k : Core) : Core := { k with ops := [{ opOf 0#128 with dsts := [0] }], nextOp := 1 }

/-- For each VEC instruction: its operation, flags, operand bits (beside DD 0, DS1 1, DS2 2) and descriptors. -/
def vecCases : List ((Nat → BitVec 4 → BitVec 112 → Dev → Core → Ctx → RunPlan) × Nat × Nat × List (BitVec 512)) :=
  [(vopPlan, 0x01, 2 * 2 ^ 88 + 1 * 2 ^ 72, [vecDsc 4 0x1000 2, vecDsc 4 0 2, vecDsc 4 0x2000 2]),
   (vredPlan, 0x02, 1 * 2 ^ 45, [vecDsc 4 0x1000 1, vecDsc 4 0 2]),
   (vlutPlan, 0x03, 2 * 2 ^ 88, [vecDsc 0 0x1000 2, vecDsc 0 0 2, vecDsc 2 0x2000 2112]),
   (vpermPlan, 0x04, 2 * 2 ^ 88, [vecDsc 1 0x1000 2, vecDsc 1 0 2, vecDsc 4 0x2000 2]),
   (vgathPlan, 0x05, 2 * 2 ^ 88, [vecDsc 2 0x1000 3, vecDsc 2 0 3, vecDsc 4 0x2000 1]),
   (vscatPlan, 0x06, 2 * 2 ^ 88, [vecDsc 4 0x1000 3, vecDsc 4 0 3, vecDsc 4 0x2000 1]),
   (vrngPlan, 0x07, 0, [vecDsc 4 0x1000 2, vecDsc 4 0 2]),
   (vencPlan, 0x08, 0, [vecDsc 2 0x1000 2, vecDsc 0 0 2]),
   (vdecPlan, 0x09, 0, [vecDsc 0 0x1000 2, vecDsc 2 0 2])]

theorem witness_VectorIssuesAndStores :
    ∀ e ∈ vecCases, let o := ob (1 * 2 ^ 96 * (if e.2.1 = 7 then 0 else 1) + e.2.2.1)
      let w := fun f => mkWord 3 e.2.1 f o
      let s := fun f g => onCore 0 (w f) (fun k => g (withDescs e.2.2.2 k))
      let p := fun f g => e.1 0 f o (atIssue (s f g) 0) (coreOf (atIssue (s f g) 0) 0) (ctxIn (s f g) 0 0)
      StandsAt (s 0#4 id) 0 (w 0#4) 0 ∧ Clean (p 0#4 id).conds ∧ InStore (ctxIn (s 0#4 id) 0 0) ∧
        longReady (coreOf (atIssue (s 0#4 id) 0) 0) (p 0#4 id).srcs (p 0#4 id).dsts = true ∧
        bookReady (coreOf (atIssue (s 0#4 id) 0) 0) (p 0#4 id).books = true ∧
        StandsAt (s 4#4 id) 0 (w 4#4) 0 ∧ firstFault (p 4#4 id).conds = some 0x0303 ∧
        StandsAt (s 0#4 (fun k => { k with ops := List.replicate 512 (opOf 0#128) })) 0 (w 0#4) 0 ∧
        Clean (p 0#4 (fun k => { k with ops := List.replicate 512 (opOf 0#128) })).conds := by
  decide +kernel

theorem witness_ElementsAndAccumulators :
    2 ^ 31 - 1 < 2 ^ 32 ∧ 2 ^ 31 < 2 ^ 32 ∧ 2 ^ 32 - 1 < 2 ^ 32 ∧
    (∀ k, k < 3 → -549755813888 ≤ 549755813886 + (([1, -2] : List Int).take k).sum ∧
      549755813886 + (([1, -2] : List Int).take k).sum ≤ 549755813887) ∧
    (549755813887 : Int) < 549755813887 + 1 ∧ (-549755813888 : Int) + -1 < -549755813888 := by
  decide

theorem witness_MatrixMultiplies :
    ∀ e ∈ [(0, 2), (1, 3), (2, 1), (4, 2), (6, 1)], let f := BitVec.ofNat 4 e.1
      let o := ob (1 * 2 ^ 96)
      let w := mkWord 2 0x01 f o
      let s := onCore 0 w (withDescs [dsc e.2 (spadBase 0) [(2, if e.2 = 3 then 0 else elemSize e.2), (2, 64)],
        dsc e.2 (spadBase 0 + 0x1000) [(128, if e.2 = 3 then 0 else elemSize e.2), (2, 256)]])
      let k := coreOf (atIssue s 0) 0
      let a := tdesc (ownSlot (atIssue s 0)) (descOf k 0)
      let b := tdesc (ownSlot (atIssue s 0)) (descOf k 1)
      StandsAt s 0 w 0 ∧ f.toNat < 8 ∧ f.toNat % 4 ≠ 3 ∧
        onlyFields o ([(104, 8), (96, 8), (7, 1), (0, 6)] ++ (if f.toNat % 4 = 2 then [] else [(92, 4), (88, 4)])) = true ∧
        mopaShapeBad a b = false ∧ (activeOf k).tag = 0 ∧ mopaTainted k = false ∧ InStore (ctxIn s 0 0) ∧
        Clean (mtxConds (atIssue s 0) 0 (descOf k 0) (modeFmt (f.toNat % 4)) ++
          mtxConds (atIssue s 0) 0 (descOf k 1) (modeFmt (f.toNat % 4))) ∧
        longReady k (descGranules (atIssue s 0) 0 a ++ descGranules (atIssue s 0) 0 b) [] = true ∧ k.ops = [] ∧
        s.mem.poison = [] ∧ bookReady k [bookReg true 0, bookReg false 0] = true ∧
        (∀ q ∈ readElems (localView (atIssue s 0) s.mem) a ++ readElems (localView (atIssue s 0) s.mem) b, q.2 = false) := by
  decide +kernel

theorem witness_SetsSwap :
    ∀ f ∈ [0#4, 1#4], ∀ v ∈ [0, 0x83], let o := ob v
      let w := mkWord 2 0x02 f o
      (StandsAt (stand w) 0 w 0 ∧ f.toNat < 2 ∧ onlyFields o [(7, 1), (0, 6)] = true ∧ (coreOf (stand w).dev 0).ops = [] ∧
        InStore (ctxIn (stand w) 0 0) ∧ NoSwait (stand w).dev 0 ∧ (∀ i, i < 8 → (ctxIn (stand w) 0 i).st ≠ 5) ∧
        (stand w).dev.pwr.entering = false) ∧
      (let s := onCore 0 w (withOp (mkWord 2 1 0#4 0#112))
       StandsAt s 0 w 0 ∧ ∃ p ∈ (coreOf s.dev 0).ops, opClass p.word = 2) := by
  have h : ∀ f ∈ [0#4, 1#4], ∀ v ∈ [0, 0x83], ∀ e, e < 8 →
      (ctxOf (coreOf (stand (mkWord 2 0x02 f (ob v))).dev 0) e).wait = .none := by decide +kernel
  have a : ∀ f ∈ [0#4, 1#4], ∀ v ∈ [0, 0x83], let w := mkWord 2 0x02 f (ob v)
      StandsAt (stand w) 0 w 0 ∧ f.toNat < 2 ∧ onlyFields (ob v) [(7, 1), (0, 6)] = true ∧ (coreOf (stand w).dev 0).ops = [] ∧
        InStore (ctxIn (stand w) 0 0) := by decide +kernel
  have b : ∀ f ∈ [0#4, 1#4], ∀ v ∈ [0, 0x83], let w := mkWord 2 0x02 f (ob v)
      (∀ i, i < 8 → (ctxIn (stand w) 0 i).st ≠ 5) ∧ (stand w).dev.pwr.entering = false ∧
      (let s := onCore 0 w (withOp (mkWord 2 1 0#4 0#112))
       StandsAt s 0 w 0 ∧ ∃ p ∈ (coreOf s.dev 0).ops, opClass p.word = 2) := by decide +kernel
  intro f hf v hv
  obtain ⟨a1, a2, a3, a4, a5⟩ := a f hf v hv
  obtain ⟨b1, b2, b3⟩ := b f hf v hv
  exact ⟨⟨a1, a2, a3, a4, a5, noSwait_of_none _ _ (h f hf v hv), b1, b2⟩, b3⟩

/-- Two rows of three FP32, BF16 or accumulator-image elements. -/
def rows2 (fmt : Nat) : BitVec 512 := dsc fmt (spadBase 0) [(3, elemSize fmt), (2, 64)]

theorem witness_ShadowDrainsAndLoads :
    (∀ f ∈ [0#4, 5#4, 2#4, 13#4], let o := ob 0
      let w := mkWord 2 0x03 f o
      let s := onCore 0 w (fun k => { withDescs [rows2 (drainFmt (f.toNat % 4))] k with shadowHeld := true })
      let d := atIssue s 0
      let k := coreOf d 0
      let t0 := tdesc (ownSlot d) (descOf k 0)
      StandsAt s 0 w 0 ∧ InStore (ctxIn s 0 0) ∧ f.toNat % 4 ≠ 3 ∧ onlyFields o [(104, 8), (93, 1), (7, 1), (0, 6)] = true ∧
        drainShapeBad t0 = false ∧ (shadowOf k).tag = 0 ∧ (f.toNat % 4 = 2 → f.getLsbD 2 = false ∧ f.getLsbD 3 = false) ∧
        Clean (mtxConds d 0 (descOf k 0) (drainFmt (f.toNat % 4))) ∧ longReady k [] (descGranules d 0 t0) = true ∧
        projectedHeld k = true) ∧
    (∀ f ∈ [0#4, 1#4, 2#4], let o := ob 0
      let w := mkWord 2 0x04 f o
      let s := onCore 0 w (withDescs [rows2 (drainFmt f.toNat)])
      let d := atIssue s 0
      let k := coreOf d 0
      let t0 := tdesc (ownSlot d) (descOf k 0)
      StandsAt s 0 w 0 ∧ InStore (ctxIn s 0 0) ∧ onlyFields o [(96, 8), (7, 1), (0, 6)] = true ∧ drainShapeBad t0 = false ∧
        Clean (mtxConds d 0 (descOf k 0) (drainFmt f.toNat)) ∧ longReady k (descGranules d 0 t0) [] = true ∧
        projectedHeld k = false ∧ ∀ e ∈ readElems (localView d s.mem) t0, e.2 = false) := by
  decide +kernel

theorem witness_LongOperationsComplete :
    (∀ op ∈ [opOf (mkWord 2 1 0#4 (ob 0x80)), { opOf (mkWord 2 1 0#4 (ob 0x80)) with fault := some ⟨0x0322, 2, []⟩ }],
      let s := onCore 0 0#128 (fun k => { k with ops := [op] })
      oldestMopa (coreOf s.dev 0) = some op ∧ ctxLive (ctxIn s 0 0) = true) ∧
    (let op := opOf (mkWord 2 3 0#4 (ob (2 ^ 93)))
     oldestShadow (coreOf (onCore 0 0#128 (withOp op.word)).dev 0) = some op ∧ opCode op.word = 3) ∧
    (let op := opOf (mkWord 2 4 0#4 0#112)
     oldestShadow (coreOf (onCore 0 0#128 (withOp op.word)).dev 0) = some op ∧ opCode op.word = 4) ∧
    (let op := opOf (mkWord 3 8 0#4 0#112)
     oldestVec (coreOf (onCore 0 0#128 (withOp op.word)).dev 0) = some op) ∧
    (let op := opOf (mkWord 4 1 0#4 0#112)
     let s := onCore 0 0#128 (withOp op.word)
     op ∈ (coreOf s.dev 0).ops ∧ (coreOf s.dev 0).ops.find? (fun p => p.id == op.id) = some op ∧ opClass op.word = 4 ∧
       op.awaiting = 0 ∧ arrayRuns s.dev 0 = true ∧ routerOn s.dev = true) ∧
    NoSwait (onCore 0 0#128 (withOp 0#128)).dev 0 := by
  refine ⟨?_, ?_, ?_, ?_, ?_, noSwait_of_none _ _ ?_⟩ <;> decide +kernel

/-- Commits enabled. -/
def committing (s : State) : State := withReg 0x1200010 1 s

theorem witness_CoreUpsets :
    (let s := withReg (coreOff 0 0x610) 2 (onCore 0 0#128 (withOp (mkWord 2 1 0#4 0#112)))
     oldestMopa (coreOf s.dev 0) = some (opOf (mkWord 2 1 0#4 0#112)) ∧ (coreOf s.dev 0).health.mopaTry.op ≠ some 0 ∧
       smapGet (coreOf s.dev 0).health.cellMiss (128 * 127 + 127) 0 + 1 < max 1 (regField s.dev (coreOff 0 0x610) 0 4)) ∧
    (let s := committing (onCore 0 0#128 (fun k => { withOp (mkWord 2 1 0#4 0#112) k with
        health := { k.health with mopaTry := ⟨some 0, 0, [128 * 127 + 127], 1⟩ } }))
     oldestMopa (coreOf s.dev 0) = some (opOf (mkWord 2 1 0#4 0#112)) ∧ (coreOf s.dev 0).health.mopaTry.op = some 0 ∧
       128 * 127 + 127 ∈ (coreOf s.dev 0).health.mopaTry.units ∧ commitEnabled s.dev = true) ∧
    (let s := committing (onCore 0 0#128 (fun k => { withOp (mkWord 3 8 0#4 0#112) k with
        health := { k.health with vecTry := ⟨some 0, 5, [127], 1⟩ } }))
     oldestVec (coreOf s.dev 0) = some (opOf (mkWord 3 8 0#4 0#112)) ∧ (coreOf s.dev 0).health.vecTry.op = some 0 ∧
       laneChecked (mkWord 3 8 0#4 0#112) = true ∧ (coreOf s.dev 0).health.vecTry.cycle = 5 ∧ 127 ∈ (coreOf s.dev 0).health.vecTry.units ∧ commitEnabled s.dev = true) ∧
    (let s := withReg (coreOff 0 0x64C) 2 (onCore 0 0#128 (withOp (mkWord 3 8 0#4 0#112)))
     oldestVec (coreOf s.dev 0) = some (opOf (mkWord 3 8 0#4 0#112)) ∧ laneChecked (mkWord 3 8 0#4 0#112) = true ∧
       (coreOf s.dev 0).health.vecTry.op ≠ some 0 ∧
       smapGet (coreOf s.dev 0).health.laneMiss 127 0 + 1 < max 1 (regField s.dev (coreOff 0 0x64C) 0 4)) ∧
    (let s := committing (withReg (coreOff 0 0x690) 3 (onCore 0 0#128 (fun k =>
        { k with health := { k.health with wordCe := [(9, 4)] } })))
     coreInService s.dev 0 = true ∧ commitEnabled s.dev = true ∧
       max 1 (regField s.dev (coreOff 0 0x690) 0 8) < smapGet (coreOf s.dev 0).health.wordCe 9 0) ∧
    (let s := onCore 7 0#128 (fun k => { k with image := some (0, 8) })
     7 < 8 ∧ coreInService s.dev 0 = true ∧ (ctxOf (coreOf s.dev 0) (coreOf s.dev 0).cur).pc = 7 ∧
       ctxLive (ctxOf (coreOf s.dev 0) (coreOf s.dev 0).cur) = true ∧
       within24h s.dev (smapFind (coreOf s.dev 0).health.reloaded 7) = false) ∧
    (let s := committing (onCore 7 0#128 (fun k => { k with health := { k.health with reloaded := [(7, 0)] } }))
     coreInService s.dev 0 = true ∧ within24h s.dev (smapFind (coreOf s.dev 0).health.reloaded 7) = true ∧
       commitEnabled s.dev = true) := by
  and_intros <;> decide +kernel

/-- A state whose memory lists these bytes of DRAM or scratchpad from a device-local address on. -/
def withBytes (a : Nat) (bs : List Nat) (s : State) : State :=
  { s with mem := memApplyAll s.mem (wrBytes (memKey a) (bs.map (BitVec.ofNat 8))) }

theorem witness_DmovAndTableLoads :
    (let o := ob (1 * 2 ^ 96)
     let w := mkWord 4 1 0#4 o
     let s := onCore 0 w (withDescs [dsc 1 0x100 [(3, 2)], dsc 1 (spadBase 0 + 0x1000) [(3, 0x1FFFF8)]])
     let d := atIssue s 0
     let src := tdesc (ownSlot d) (descOf (coreOf d 0) 1)
     let dst := tdesc (ownSlot d) (descOf (coreOf d 0) 0)
     StandsAt s 0 w 0 ∧ Clean (copyConds d 0 0#4 o (descOf (coreOf d 0) 0) (descOf (coreOf d 0) 1)) ∧
       longReady (coreOf d 0) (descGranules d 0 src) (descGranules d 0 dst) = true ∧ src.peer = false ∧ dst.peer = false ∧
       overlapOf dst src = none ∧ (coreOf s.dev 0).ops = [] ∧ InStore (ctxIn s 0 0) ∧ hereRegion d src = .spad 0) ∧
    (∀ e ∈ [(0, 7, 512), (1, 15, 16), (2, 31, 512)], let o := ob (e.1 * 2 ^ 110 + e.2.1 * 2 ^ 104)
      let w := mkWord 4 1 1#4 o
      let s := onCore 0 w (withDescs [vecDsc 2 0x1000 e.2.2])
      let d := atIssue s 0
      let src := tdesc (ownSlot d) (descOf (coreOf d 0) 0)
      let vals := readElems (localView d s.mem) src
      StandsAt s 0 w 0 ∧ onlyFields o [(110, 2), (104, 5), (96, 8), (0, 6), (7, 1)] = true ∧ fld o 110 2 = e.1 ∧ src.ndim = 1 ∧
        extOf src 0 = e.2.2 ∧ Clean (descConds d 0 (descOf (coreOf d 0) 0) ownOnly [2]) ∧
        longReady (coreOf d 0) (descGranules d 0 src) [] = true ∧ bookFree (coreOf d 0) (tableReg e.1 e.2.1) = true ∧
        (∀ q ∈ vals, q.2 = false) ∧ InStore (ctxIn s 0 0) ∧
        (imageBad e.1 (vals.map (fun v => BitVec.ofNat 8 v.1)) = none ↔ e.1 < 2)) ∧
    imageBad 2 ((List.replicate 128 [0#8, 0#8, 128#8, 63#8]).flatten) = none := by
  decide +kernel

theorem witness_BaseDiesAccumulateAndPool :
    (∀ f ∈ [0#4, 1#4, 2#4], let o := ob (1 * 2 ^ 96)
      let w := mkWord 4 2 f o
      let n := afmtFmt f.toNat
      let s := onCore 0 w (withDescs [dsc n 0x100 [(3, elemSize n)], vecDsc n 0 3])
      let d := atIssue s 0
      let a := tdesc (ownSlot d) (descOf (coreOf d 0) 1)
      let dst := tdesc (ownSlot d) (descOf (coreOf d 0) 0)
      StandsAt s 0 w 0 ∧ InStore (ctxIn s 0 0) ∧ onlyFields o [(104, 8), (96, 8), (0, 6), (7, 1)] = true ∧ a.fmt = n ∧
        dst.fmt = n ∧ elemCount a = elemCount dst ∧ inAperture d dst = true ∧ dst.peer = false ∧
        Clean (descConds d 0 (descOf (coreOf d 0) 0) anyRegion allFmts ++ descConds d 0 (descOf (coreOf d 0) 1) ownOnly allFmts) ∧
        (coreOf s.dev 0).ops = [] ∧ longReady (coreOf d 0) (descGranules d 0 a) [] = true) ∧
    (∀ f ∈ [0#4, 1#4, 2#4], let o := ob (1 * 2 ^ 96 + 2 * 2 ^ 88)
      let w := mkWord 4 3 f o
      let s := onCore 0 w (withDescs [vecDsc 0 0 8, vecDsc 4 0x1000 3, dsc 1 0x400 [(8, 2), (5, 256)]])
      let d := atIssue s 0
      let k := coreOf d 0
      StandsAt s 0 w 0 ∧ InStore (ctxIn s 0 0) ∧ Clean (poolConds d 0 f o (descOf k 0) (descOf k 1) (descOf k 2)) ∧
        longReady k (descGranules d 0 (tdesc (ownSlot d) (descOf k 1))) (descGranules d 0 (tdesc (ownSlot d) (descOf k 0))) = true ∧
        (tdesc (ownSlot d) (descOf k 2)).peer = false) ∧
    (let t := tdesc 0 (dsc 1 0x400 [(8, 2), (5, 256)])
     keyPc (memKey (elemAddr t (4 * extOf t 0 + 7))) / 64 < 20) ∧
    f32IsNan 0x7FC00000#32 = true ∧ f32IsNan 0x3F800000#32 = false := by
  decide +kernel

/-! ### Collectives -/

/-- The block of a collective: two members listed at DRAM address 0x1000, this device rank 0; the record at the start of
the scratchpad; the pairs' indices in D3 and D4. -/
def blockOf (kind : Nat) : BitVec 512 :=
  BitVec.ofNat 512 (spadBase 0 + 9 * 2 ^ 48 + (0x1000 + 2 * 2 ^ 42) * 2 ^ 64 +
    ((if kind = 4 then 1 else 0) * 2 ^ 16 + (if kind = 4 ∨ kind = 5 then 1 else 0) * 2 ^ 32 +
      (if 5 ≤ kind ∧ kind ≤ 7 then 2 else 0) * 2 ^ 48) * 2 ^ 128 + (3 + 4 * 2 ^ 8) * 2 ^ 320 + 2 * 2 ^ 508)
/-- A shard entry of two elements in bucket slot 0. -/
def shard0 : Shard := ⟨[5#8, 0#8, 0#8, 0#8, 2#8], 0, 0, false, 0, 0, 0, [], 0#32, false, false, none, 0, false, []⟩
/-- A COL instruction of `kind` with its operands in order. -/
def colAt (kind : Nat) (f : BitVec 4) (g : Core → Core) : State :=
  let o := colOb kind
  let s := onCore 0 (mkWord 5 kind f o) (fun k => g (withDescs [blockOf kind,
    if kind = 2 then dsc 0 (bktBase 0) [(2, 4)] else vecDsc 0 0x1000 4, vecDsc 0 0x2000 4, vecDsc 4 0x3000 4, vecDsc 4 0x4000 4] k))
  let s1 := withReg 0x1100008 8 (withReg 0x1101000 (0x10000 + 5) (withBytes 0x1002 [5, 0] s))
  { s1 with dev := bktSet { s1.dev with upd := { s1.dev.upd with shards := [(0, shard0)] } } 0 0 3 1 }
where
  /-- Its operand bits: COUNT 2, and the registers or the slot and peer. -/
  colOb (kind : Nat) : BitVec 112 :=
    ob ((if kind = 7 then 0 else 2 * 2 ^ 56) + (if kind = 7 ∨ kind = 8 then 0 else 1 * 2 ^ 96) +
      (if kind = 1 ∨ kind = 7 ∨ kind = 9 then 0 else 2 * 2 ^ 88) + (if kind = 8 ∨ kind = 9 then 5 * 2 ^ 28 else 0))

/-- Sixty-four collectives that run. -/
def full64 (d : Dev) : Dev :=
  { d with ni := { d.ni with colls := List.replicate 64 { collReset with phase := 1, kind := 6, id := 77 } } }

theorem witness_CollectivesIssue :
    ∀ kind ∈ [1, 2, 3, 4, 5, 6, 7, 8, 9],
      let w := fun f => mkWord 5 kind f (colAt.colOb kind)
      let cl := fun s => newColl (atIssue s 0) 0 0 (coreOf (atIssue s 0) 0).nextOp kind 0#4
        (colFields (coreOf (atIssue s 0) 0) (colAt.colOb kind))
      let cs := fun f s => colConds (atIssue s 0) s.mem 0 kind f (colAt.colOb kind)
        (colFields (coreOf (atIssue s 0) 0) (colAt.colOb kind))
      let s := colAt kind 0#4 id
      StandsAt s 0 (w 0#4) 0 ∧ Clean (cs 0#4 s) ∧
        longReady (coreOf (atIssue s 0) 0) (colSrcs (atIssue s 0) 0 kind (colFields (coreOf (atIssue s 0) 0) (colAt.colOb kind)))
          (colDsts (atIssue s 0) 0 kind (colFields (coreOf (atIssue s 0) 0) (colAt.colOb kind))) = true ∧ InStore (ctxIn s 0 0) ∧
        collMayStart s.dev (cl s) = true ∧ s.dev.ni.colls = [] ∧ collMayStart (full64 s.dev) (cl s) = false ∧
        StandsAt (colAt kind 4#4 id) 0 (w 4#4) 0 ∧ firstFault (cs 4#4 (colAt kind 4#4 id)) = some 0x0303 ∧
        StandsAt (colAt kind 0#4 (fun k => { k with ops := List.replicate 512 (opOf 0#128) })) 0 (w 0#4) 0 ∧
        Clean (cs 0#4 (colAt kind 0#4 (fun k => { k with ops := List.replicate 512 (opOf 0#128) }))) := by
  decide +kernel

/-- A device with these collectives. -/
def withColls (cs : List Coll) (s : State) : State := { s with dev := { s.dev with ni := { s.dev.ni with colls := cs } } }
/-- A collective of two ranks with these. -/
def coll2 (kind phase : Nat) (got sent : List Nat) : Coll :=
  { collReset with kind := kind, phase := phase, size := 2, group := [0, 5], got := got, sent := sent
                   block := BitVec.ofNat 512 (2 ^ 32 * 2 ^ 320) }

theorem witness_CollectivesStartAndEnd :
    (let cl := coll2 1 0 [] []
     (withColls [cl] (st d960)).dev.ni.colls.find? (fun e => e.phase == 0 && decide (e.kind < 16)) = some cl ∧
       collMayStart (withColls [cl] (st d960)).dev cl = true ∧
       (withColls [cl, { coll2 6 1 [] [] with num := 3 }] (st d960)).dev.ni.colls.find?
         (fun e => e.phase == 0 && decide (e.kind < 16)) = some cl ∧
       collMayStart (withColls [cl, { coll2 6 1 [] [] with num := 3 }] (st d960)).dev cl = false ∧
       cl.kind < 8 ∧ collFind (withColls [cl] (st d960)).dev cl.num = some cl ∧
       hasTwice (readGroup (st d960).mem (dword cl.block 1 0 42) cl.size) = true) ∧
    (∀ cl ∈ [coll2 1 1 [0, 1] [], coll2 2 1 [] [0, 1], coll2 8 1 [] [1], coll2 9 1 [1] []],
      collFind (withColls [cl] (st d960)).dev cl.num = some cl ∧ cl.phase = 1 ∧ cl.kind < 16 ∧ collDone cl = true ∧
        permHeld (withColls [cl] (st d960)).dev cl = false ∧ lostParts cl = []) ∧
    (let cl := coll2 1 1 [0] []
     let s := withColls [cl] (st { d960 with boot := { d960.boot with aonNs := 1000 } })
     collFind s.dev cl.num = some cl ∧ collDone cl = false ∧ dword cl.block 5 32 32 ≠ 0 ∧
       cl.issuedAt + 1000 * dword cl.block 5 32 32 ≤ s.dev.boot.aonNs ∧ ranksMissing cl = [1] ∧ 1 < cl.size) ∧
    (let s := withReg 0x110000C 0x10000 (st d960)
     draining s.dev = true ∧ commitState s.dev = 0 ∧ (∀ q ∈ allSlots s.dev, bktState s.dev q = 0) ∧ s.dev.ni.colls = [] ∧
       draining (st d960).dev = false) := by
  decide +kernel

/-! ### Packets -/

/-- A packet of a TYPE and SUB from node 5, with SEQ 0 and this payload. -/
def pk (typ sub : Nat) (bytes : List Nat) : Packet :=
  { typ := typ, len := bytes.length, dst := 0, src := 5, slice := 0, hops := 0, injTime := 0, seq := 0, offset := 0, sub := sub,
    mcast := false, last := false, replayed := false, epoch := 0, dctx := 0, check := 0, payload := bytes.map (BitVec.ofNat 8) }
/-- A stream with these receiving and sending bindings numbered 0. -/
def stream1 (r : RxBind) (t : TxBind) : Stream := { streamReset with rx := [(0, r)], tx := [(0, t)] }
/-- A device at which packet `p` is ejected, the stream of node 5 resident in slot 0, with these collectives. -/
def ejects (p : Packet) (x : Stream) (cs : List Coll) : State :=
  let s := st d960
  { s with dev := { s.dev with ni := { s.dev.ni with ejected := [p], streams := [(5, x)], slots := [(0, 5)], colls := cs } } }
/-- The same a second after power-on. -/
def late (s : State) : State := { s with dev := { s.dev with boot := { s.dev.boot with aonNs := 1000000000 } } }
/-- A packet taken, of a resident stream. -/
abbrev Resident (s : State) (p : Packet) (typ sub : Nat) : Prop :=
  Taken s p typ sub (takeIn s.dev p).1 ∧ slotPeer (takeIn s.dev p).1 p.dctx = some p.src
theorem onItsStream_of (s : State) (p : Packet) (typ sub : Nat) (h : Resident s p typ sub) :
    OnItsStream s p typ sub (touchStream (takeIn s.dev p).1 p.src) := ⟨_, h.1, h.2, rfl⟩
/-- The device a resident packet leaves. -/
abbrev taken (s : State) (p : Packet) : Dev := touchStream (takeIn s.dev p).1 p.src

/-- A receiving binding of collective 0 for rank 1, with tokens 0 to `lim` − 1 granted. -/
def rx1 (lim : Nat) (seen : List Nat) (closed : Bool) : RxBind :=
  { rxReset with coll := some 0, rank := 1, limit := lim, seen := seen, closed := closed }
/-- A collective of this device, rank 0, and node 5, rank 1, that waits for one FP32 of rank 1. -/
def waits (kind : Nat) : Coll :=
  { coll2 kind 1 [] [] with
    count := 1, parent := if kind = 5 then 1 else 0, root := if kind = 5 then 1 else 0, fan := 2, kids := if kind = 5 then [] else [1]
    dd := vecDsc 0 0x1000 2, ds := vecDsc 0 0x2000 2 }

/-- Of two packets that differ in their check alone, one is damaged. -/
theorem witness_PacketsAndTokens_damaged :
    ∃ p : Packet, p ∉ (st d960).dev.ni.ejected ∧ packetCheck p ≠ p.check ∧ p.typ = 1 ∧ subOf p = 0 := by
  have h : packetCheck { pk 1 0 [1] with check := 1 } = packetCheck (pk 1 0 [1]) := packetCheck_check _ _
  by_cases q : packetCheck (pk 1 0 [1]) = 0
  · exact ⟨{ pk 1 0 [1] with check := 1 }, List.not_mem_nil, by rw [h, q]; decide, rfl, rfl⟩
  · exact ⟨pk 1 0 [1], List.not_mem_nil, q, rfl, rfl⟩

theorem witness_PacketsAndTokens :
    (∀ e ∈ [(1, 0), (2, 0), (2, 1), (2, 5), (2, 6), (2, 7), (2, 8), (2, 9)], let p := pk e.1 e.2 [0, 0, 0, 0]
      let s := { st d960 with dev := { d960 with ni := { niReset with ejected := [p] } } }
      Taken s p e.1 e.2 (takeIn s.dev p).1 ∧ slotPeer (takeIn s.dev p).1 p.dctx ≠ some p.src) ∧
    (∀ e ∈ [(1, 0), (2, 0), (2, 1), (2, 5), (2, 6), (2, 7), (2, 8), (2, 9)], let p := pk e.1 e.2 [0, 0, 0, 0]
      ∀ r ∈ [(rx1 1 [] true, true, false), (rx1 1 [0] false, false, true), (rx1 0 [] false, false, false)],
        let s := ejects p (stream1 r.1 txReset) []
        Resident s p e.1 e.2 ∧ (rxOf (taken s p) 5 0).closed = r.2.1 ∧
          (p.seq ∈ (rxOf (taken s p) 5 0).seen ↔ r.2.2 = true) ∧ drainOver (taken s p) 5 = false ∧
          (r.2.1 = false → r.2.2 = false → seqDist (rxOf (taken s p) 5 0).low (rxOf (taken s p) 5 0).limit ≤ 0)) ∧
    (∀ e ∈ [(1, 0, 9, [0, 0, 0, 0], true), (2, 0, 1, [0, 0, 0, 0], true), (2, 0, 1, [0], false),
        (2, 5, 6, [0, 0, 0, 0, 0, 0, 0, 0], true), (2, 7, 7, [0], true), (2, 9, 5, [0, 0, 0, 0], false)],
      let p := { pk e.1 e.2.1 e.2.2.2.1 with last := true }
      let s := ejects p (stream1 (rx1 1 [] false) txReset) [waits e.2.2.1]
      Resident s p e.1 e.2.1 ∧ (rxOf (taken s p) 5 0).coll = some 0 ∧ collFind (taken s p) 0 = some (waits e.2.2.1) ∧
        1 ∈ rxWants (waits e.2.2.1) ∧ (rxOf (taken s p) 5 0).closed = false ∧ (rxOf (taken s p) 5 0).seen = [] ∧
        seqDist (rxOf (taken s p) 5 0).low (rxOf (taken s p) 5 0).limit = 1 ∧
        (takePart ⟨taken s p, s.mem, []⟩ (waits e.2.2.1) 5 0 1 0 p).isSome = e.2.2.2.2 ∧
        (∀ w1 ∈ takePart ⟨taken s p, s.mem, []⟩ (waits e.2.2.1) 5 0 1 0 p, (rxOf w1.dev 5 0).seen.length < 1024)) := by
  decide +kernel

/-- A shard entry that sends its two elements in OUT0, of kind `kind`. -/
def gathers (ver : Nat) : Shard := { shard0 with version := ver }

theorem witness_RequestsAndGrants :
    (let p := pk 2 2 [0, 0, 1, 0, 0, 0, 0, 0, 0, 0, 0, 0]
     ∀ d ∈ [(0, 0), (1, 0)], let s := ejects { p with epoch := 2 ^ 16 - d.1 } (stream1 rxReset txReset) []
       Resident s { p with epoch := 2 ^ 16 - d.1 } 2 2 ∧
       epochOld (taken s { p with epoch := 2 ^ 16 - d.1 }) (2 ^ 16 - d.1) = decide (d.1 = 1) ∧
       (streamOf (taken s { p with epoch := 2 ^ 16 - d.1 }) 5).reqs = [] ∧
       (∀ x ∈ (streamOf (taken s { p with epoch := 2 ^ 16 - d.1 }) 5).tx, x.2.use ≠ 2)) ∧
    (∀ e ∈ [0, 1], let p := { pk 2 3 [] with epoch := 2 ^ 16 - e }
      Resident (ejects p (stream1 rxReset txReset) []) p 2 3 ∧
        epochOld (taken (ejects p (stream1 rxReset txReset) []) p) p.epoch = decide (e = 1)) ∧
    (let p := pk 2 3 []
     permOver (taken (ejects p (stream1 rxReset txReset) []) p) p = true ∧
       permOver (taken (ejects p (stream1 rxReset txReset) [coll2 4 1 [] []]) p) p = false ∧
       epochOld (taken (ejects p (stream1 rxReset txReset) []) p) p.epoch = false) ∧
    (let p := pk 2 4 [1, 0, 1, 0]
     let c := { coll2 5 1 [] [] with parent := 2, root := 1 }
     let s := ejects p (stream1 rxReset txReset) [c]
     Resident s p 2 4 ∧
       (taken s p).ni.colls.find? (fun c => c.kind == 5 && c.phase != 0 && c.id == p.seq && c.epoch == p.epoch) = some c ∧
       collFind (taken s p) c.num = some c ∧ payNat p 2 2 < c.size ∧ rankNode c (payNat p 2 2) = p.src ∧
       payNat p 2 2 ≠ c.parent ∧ isRoot c = false ∧ c.root = payNat p 0 2) ∧
    (let p := pk 6 0 ([0, 1, 7, 0, 0, 0, 0, 0, 4, 0, 0, 0] ++ List.replicate 12 0)
     let s := ejects p (stream1 rxReset txReset) []
     let x := txOf (taken s p) 5 0
     Resident s p 6 0 ∧ p.len = 24 ∧ x.use = 0 ∧ x.open_ = false ∧ natBit (payNat p 1 1) 2 = false ∧
       natBit (payNat p 1 1) 0 = true ∧ seqNewer x.limit (payNat p 8 4) = true) ∧
    (let p := pk 6 1 [0, 0, 0, 0, 0, 0, 0, 0, 0, 0, 0, 0]
     let s := ejects p (stream1 (rx1 4 [0] false) txReset) [waits 1]
     let x := rxOf (taken s p) 5 0
     Resident s p 6 1 ∧ x.coll = some 0 ∧ seqDist x.low (seqAdd (payNat p 8 4) 1) ≤ seqDist x.low x.limit ∧
       (∀ q ∈ x.seen, seqDist x.low q < seqDist x.low (seqAdd (payNat p 8 4) 1))) := by
  decide +kernel

theorem witness_NoticesAndTimers :
    (let p := pk 7 0 [0, 0, 5, 0]
     let c := { coll2 5 1 [] [] with kids := [1], fan := 2 }
     let s := ejects p (stream1 rxReset txReset) [c]
     Taken s p 7 0 (takeIn s.dev p).1 ∧ prunedColl (takeIn s.dev p).1 (payNat p 0 2) (payNat p 2 2) = some (c, 1) ∧
       collFind (takeIn s.dev p).1 c.num = some c ∧ 1 ∉ c.pruned) ∧
    (∀ e ∈ [(1, 1), (2, 4), (3, 4), (4, 1), (5, 6)], let p := pk 7 e.1 [0, 0]
      let c := { coll2 e.2 1 [] [] with root := 1 }
      let s := ejects p (stream1 rxReset txReset) [c]
      Resident s p 7 e.1 ∧ noticeOf (taken s p) p = some (c, 1) ∧ collFind (taken s p) c.num = some c ∧ 1 < c.size) ∧
    (let s := late (ejects (pk 1 0 [0]) (stream1 rxReset { txReset with use := 1, rank := 1, next := 1, limit := 1 }) [waits 3])
     let x := txOf s.dev 5 0
     x.use ≠ 0 ∧ seqDist x.ack 0 < seqDist x.ack x.next ∧ smapGet x.retries 0 0 < retryLimit s.dev ∧
       smapGet x.times 0 0 + e2eTimeoutNs s.dev ≤ s.dev.boot.aonNs ∧ (txWire (workOf s) x (seqDist x.base 0)).isSome = true) ∧
    (let r : BoardReq := ⟨1, 0, 1, 0, 0, 0, 0#128, 0, 0, 1, 0, [1#8], 0, true, 0⟩
     let s := late (st { d960 with ni := { niReset with board := [r] } })
     s.dev.ni.board.find? (fun r => r.slot == 1 && r.seq == 0 && r.sent) = some r ∧ r.retries < retryLimit s.dev ∧
       r.sentAt + e2eTimeoutNs s.dev ≤ s.dev.boot.aonNs) ∧
    (let s := late (ejects (pk 1 0 [0]) (stream1 { rx1 4 [0] false with unacked := 1 } txReset) [waits 1])
     0 < rxOut (rxOf s.dev 5 0) ∧ 0 < (rxOf s.dev 5 0).unacked ∧
       (rxOf s.dev 5 0).lastAt + 250000 ≤ s.dev.boot.aonNs ∧ drainOver s.dev 5 = false) ∧
    (∀ e ∈ [(1249, 0, true, true), (1249, 1001, false, true), (1250, 0, true, false)],
      let s := withReg 0x200110 1000 (st { d960 with tm := { d960.tm with gt := 16 * e.1, window := e.2.1 } })
      let g := gridStart s.dev
      (s.dev.tm.window ≠ g + 1 ↔ e.2.2.1 = true) ∧ g ≤ gtimeNs s.dev ∧
        (4 * (gtimeNs s.dev - g) < min 4000 (beatLen s.dev) ↔ e.2.2.2 = true)) := by
  decide +kernel

/-- A device changed. -/
def withDev (g : Dev → Dev) (s : State) : State := { s with dev := g s.dev }
/-- Master `m` owns the device, which is READY. -/
def owned (m : Nat) (s : State) : State :=
  withReg 0x800 0x89 (withDev (fun d => { d with own := { d.own with st := 1, owner := m } }) s)
/-- A device of part 960 whose host owns it. -/
def host1 : State := owned 1 (st d960)
/-- A device at which packet `p` is ejected, with these board requests. -/
def board (p : Packet) (rs : List BoardReq) (s : State) : State :=
  withDev (fun d => { d with ni := { d.ni with ejected := [p], board := rs } }) s

theorem witness_BoardRequestsAreServed :
    (∀ e ∈ [(0x100, 1, 0), (0x100, 256, 0), (0x2F000000000, 8, 1), (0x20000000000 + 191 * 0x800000, 8, 0), (0x21000000000, 8, 5)],
      let p := { pk 3 0 [e.2.1 % 256, e.2.1 / 256] with offset := e.1 }
      let d := (takeIn (board p [] (st d960)).dev p).1
      Taken (board p [] (st d960)) p 3 0 d ∧ drainOver d p.src = false ∧ payNat p 0 2 = e.2.1 ∧
        accessReason d p.offset (payNat p 0 2) = e.2.2) ∧
    (let s := withDev (fun d => setCore d 191 { coreReset with mapState := 2 }) (st d960)
     accessReason s.dev (spadBase 191 + 0x5FFFF8) 8 = 2) ∧
    (∀ e ∈ [0, 4], let p := { pk 4 0 [1, 2, 3, 4] with offset := 0x100, epoch := e }
      let s := board p [] (st d960)
      let d := (takeIn s.dev p).1
      Taken s p 4 0 d ∧ drainOver d p.src = false ∧ boardSeen d p = none ∧ accessReason d p.offset p.len = 0 ∧
        (storeCells d s.mem ((p.payload.take p.len).zipIdx.map (fun b => (memKey (p.offset + b.2), b.1, decide (p.epoch = 4))))).2 =
          none ∧
        boardSeen { d with ni := { d.ni with boardSeen := [(5, [(0, 2)])] } } p = some 2 ∧
        accessReason d (2 ^ 41 + 2 ^ 40) p.len = 1) ∧
    (∀ e ∈ [1, 2, 3], let p := { pk 4 0 (if e = 2 then [1, 2] else [1, 2, 3, 4]) with offset := 0x100, epoch := e }
      let s := board p [] (st d960)
      let d := (takeIn s.dev p).1
      Taken s p 4 0 d ∧ accessReason d p.offset p.len = 0 ∧ (accStores d s.mem p).fault = none) ∧
    (let p := pk 9 0 [0, 0, 3, 0, 1, 0]
     let s := board p [] (onCore 0 0#128 id)
     let d := (takeIn s.dev p).1
     Taken s p 9 0 d ∧ drainOver d p.src = false ∧ boardSeen d p = none ∧ corePresent d 0 = true ∧ corePresent d 192 = false) ∧
    NoSwait (onCore 0 0#128 id).dev 0 := by
  refine ⟨?_, ?_, ?_, ?_, ?_, noSwait_of_none _ _ ?_⟩ <;> decide +kernel

/-- A board request of `kind` on the channel of slot 5, awaited by operation 0. -/
def req (kind : Nat) : BoardReq := ⟨5, 0, kind, 0, 0, 0, 0#128, 0, 0x100, 4, 0, [], 0, true, 0⟩

theorem witness_BoardRepliesComplete :
    (∀ e ∈ [(0, 0), (0, 3), (1, 1), (1, 4), (2, 2), (3, 0), (3, 3), (4, 0), (4, 1), (4, 3)], let p := pk 5 e.1 [1, 2, 3, 4]
      let s := board p [req e.2] (onCore 0 0#128 (fun k => { k with ops := [{ opOf 0#128 with awaiting := 2 }] }))
      let d := (takeIn s.dev p).1
      Taken s p 5 e.1 d ∧ boardFind d p = some (req e.2) ∧ boardFind { d with ni := { d.ni with board := [] } } p = none ∧
        (coreOf d 0).ops.find? (fun o => o.id == 0) = some { opOf 0#128 with awaiting := 2 } ∧
        d.host.reads = [] ∧ payNat p 0 1 ≠ 3 ∧ payNat (pk 5 4 [3]) 0 1 = 3) ∧
    (∀ e ∈ [(0, 1), (3, 1), (4, 1), (0, 2), (3, 2), (4, 2)], let p := pk 5 e.1 [1, 2, 3, 4]
      let z : PeerRead := ⟨0, 0x100, 4, e.2, [], false, none, false⟩
      let s := withDev (fun d => { d with host := { d.host with peerReads := [z] } }) (board p [req 3] (st d960))
      let d := (takeIn s.dev p).1
      Taken s p 5 e.1 d ∧ boardFind d p = some (req 3) ∧ d.host.peerReads.find? (fun q => q.num == (req 3).op) = some z ∧
        (z.left = 1 ∧ z.lost = false ∧ z.refused = none ∨ 2 ≤ z.left)) := by
  decide +kernel

theorem witness_BoardWindow :
    (let d := host1.dev
     hostTakes d = 0 ∧ bar2Addr d 0x100 / 2 ^ 42 = ownSlot d ∧ bar2Busy d = false ∧ d.host.reads = [] ∧ isOwner d 1 = true ∧
       accessReason d (bar2Addr d 0x100 % 2 ^ 42) 8 = 0 ∧ rangeBad d host1.mem (bar2Addr d 0x100 % 2 ^ 42) 8 = false ∧
       accessReason (withReg 0x9300 48 host1).dev (bar2Addr (withReg 0x9300 48 host1).dev 0 % 2 ^ 42) 8 ∉ [0, 3]) ∧
    (let s := withReg 0x9300 192 (withDev (fun d => { d with ni := { d.ni with peers := [(3, 960)] } }) host1)
     let x : Nat := bar2Addr s.dev 0x100 % 2 ^ 42
     hostTakes s.dev = 0 ∧ bar2Busy s.dev = false ∧ s.dev.host.reads = [] ∧ bar2Addr s.dev 0x100 / 2 ^ 42 = 3 ∧ ownSlot s.dev ≠ 3 ∧
       peerPart host1.dev 3 = 0 ∧ peerPart s.dev 3 ≠ 0 ∧ spanRegion (peerPart s.dev 3) x (x + 511) = .spread ∧
       spanRegion (peerPart s.dev 3) (2 ^ 41 + 2 ^ 40) (2 ^ 41 + 2 ^ 40 + 7) = .unmapped ∧
       isMember s.dev (slotNode s.dev 3) = false ∧
       isMember (withDev (fun d => { d with fab := { d.fab with members := 8 } }) s).dev (slotNode s.dev 3) = true) ∧
    (let d := (withReg 0x2000100 1 host1).dev
     hostTakes d = 0 ∧ isOwner d 1 = true ∧ accessReason d (bar2Addr d 0x100 % 2 ^ 42) 8 = 3) ∧
    rangeBad host1.dev { host1.mem with poison := [memKey 0x100] } 0x100 8 = true ∧
    bar2Busy (board (pk 1 0 [0]) [req 4] host1).dev = true ∧
    (hostTakes (owned 2 host1).dev = 0 ∧ isOwner (owned 2 host1).dev 1 = false) ∧
    (let s := withDev (fun d => { d with pwr := { d.pwr with st := 2, exiting := true } }) host1
     hostTakes s.dev = 1 ∧ s.dev.pwr.exiting = true ∧ s.dev.pwr.entering = false) := by
  decide +kernel

/-- Queue 0 enabled with one command waiting. -/
def queued (s : State) : State := withReg (qOff 0 + 0x10) 0x4000 (withReg (qOff 0 + 0x18) 1 s)
/-- A core that runs nothing. -/
def idleCore : State := onCore 0 0#128 (fun k => { k with ctxs := [] })
/-- The 64 bytes of a command: OP, FLAGS, CID, LCORE, CTXMASK, ADDR, LENGTH, EVN. -/
def cmd64 (op flags core mask addr len evn : Nat) : List Byte :=
  padTo 64 (leBytes 1 op ++ leBytes 1 flags ++ leBytes 2 7 ++ leBytes 2 core ++ leBytes 2 mask ++ leBytes 8 addr ++ leBytes 4 len ++
    leBytes 4 evn)

theorem witness_HostCommandsRun :
    queueFetches (queued (owned 1 idleCore)).dev 0 = true ∧
    (∀ e ∈ [(cmd64 0 1 0 0 0 0 0, 0, 0), (cmd64 5 0 0 0 0 0 0, 5, 0), (cmd64 1 0 0xFFFF 0 0x100 2 0, 1, 0),
        (cmd64 2 2 0 0xFF 0 0 0, 2, 0), (cmd64 3 0 0 0xFF 0 0 0, 3, 0), (cmd64 4 0 0 0 0 1 63, 4, 0), (cmd64 6 0 0 0 0 0 0, 6, 5),
        (cmd64 4 0 0 0 0 1 64, 4, 5), (cmd64 1 0 0 0 0x108 1 0, 1, 6), (cmd64 4 0 192 0 0 1 0, 4, 4)],
      cmdOp e.1 = e.2.1 ∧ cmdStatus (queued (owned 1 idleCore)).dev idleCore.mem e.1 = e.2.2) ∧
    (let s := withDev (fun d => { d with boot := { d.boot with reduced := true } }) (owned 1 idleCore)
     cmdStatus s.dev s.mem (cmd64 2 2 0 0xFF 0 0 0) = 3) ∧
    (queued (owned 1 idleCore)).dev.host.running = [] ∧
    (let s := withDev (fun d => { d with host := { d.host with running := [⟨0, 5, 1, false, 0, 0⟩] } }) (queued (owned 1 idleCore))
     queueFetches s.dev 0 = true ∧ ∃ r ∈ s.dev.host.running, r.q = 0) ∧
    NoSwait idleCore.dev 0 := by
  refine ⟨?_, ?_, ?_, ?_, ?_, noSwait_of_none _ _ ?_⟩ <;> decide +kernel

theorem witness_HostPort :
    OwnerOn host1 1 ∧ smapGet host1.dev.host.held 15 [] = [] ∧ regBit host1.dev (qOff 15 + 0x10) 14 = false ∧
    15 < sqSize host1.dev 15 ∧ sqSize host1.dev 15 ≤ 65535 ∧ natBit 0x4000 14 = true ∧ natBit 0x3FFF 14 = false ∧
    isOwner (owned 2 host1).dev 1 = false ∧ (owned 2 host1).dev.own.st ≠ 0 ∧ (owned 2 host1).dev.own.owner ≠ 1 ∧
    (st d960).dev.own.st = 0 ∧
    (let d := (withDev (fun d => { d with pwr := { d.pwr with st := 2 } }) host1).dev
     d.pwr.wakeN = false ∧ 2 ≤ d.pwr.st ∧ d.pwr.entering = false ∧ d.pwr.exiting = false ∧ d.pwr.tripped = false ∧
       d.own.epo = false) ∧
    (let d := host1.dev
     d.pwr.wakeN = false ∧ d.pwr.st = 0 ∧ d.pwr.entering = false ∧ d.pwr.exiting = false ∧ d.pwr.tripped = false ∧
       d.own.epo = false) := by
  decide +kernel

theorem witness_RegisterAccess :
    OwnerOn host1 1 ∧ (∀ off ∈ [0x9000, 0x9300, 0x100008, 0x2000018, 0x3000004, 0x3800008, 0x3E00004, 0x3E00008],
      (regRow off).isSome = true) ∧
    (isOwner host1.dev 4 = false ∧ Reaches host1 4 ∧ accessGood 0x200020 4 = true ∧ exemptWrite host1.dev 4 0x200020 4 1 = none) ∧
    natBit (regNat host1.dev 0x10) 31 = false ∧ bootStage host1.dev ≠ 8 ∧
    natBit (regNat (withReg 0x10 0x80000000 host1).dev 0x10) 31 = true ∧
    accessGood 0x3000004 4 = true ∧ 0x3000004 / 8 ≠ 0x40000 := by
  decide +kernel

/-- A valid image of one ADD in program slot 255, and a VIEW entry in shard slot 4,095. -/
def stored : State :=
  withReg (0x1210000 + 256 * 255) 1 (withReg (0x1210000 + 256 * 255 + 4) 0x3F800000
    (withReg (0x1210000 + 256 * 255 + 96) 0x08000000 (withReg (0x1240000 + 256 * 4095) 2 host1)))

theorem witness_ConfigurationWrites :
    OwnerOn host1 1 ∧ natBits 0xFFFFFFFF 0 (min 32 (partBands host1.dev.boot.part - 32 * 23)) ≠ 0xFFFFFFFF + 1 ∧
    191 < coresTotal host1.dev ∧ host1.dev.tm.st = 0 ∧
    (withDev (fun d => { d with tm := { d.tm with st := 2 } }) host1).dev.tm.st ≠ 0 ∧ rootOffers host1.dev = [] ∧
    (withDev (fun d => { d with tm := { d.tm with root := true } }) host1).dev.tm.root = true ∧ anyLive host1.dev = false ∧
    anyLive (owned 1 (stand 0#128)).dev = true ∧ OwnerOn (owned 1 (stand 0#128)) 1 ∧
    beatRanges 64000 32000 = true ∧ beatRanges 1 1 = false ∧
    (∀ e ∈ host1.dev.upd.shards, shKind e.2 = 2 ∨ shProg e.2 ≠ 255) ∧
    (let s := withDev (fun d => { d with upd := { d.upd with shards := [(0, { shard0 with entry := [1#8, 255#8] })] } })
        (owned 1 (stand 0#128))
     OwnerOn s 1 ∧ anyLive s.dev = true ∧ ∃ e ∈ s.dev.upd.shards, shKind e.2 ≠ 2 ∧ shProg e.2 = 255) ∧
    progCode (storeImage host1.dev 255) ≠ 0 ∧ progCode (storeImage stored.dev 255) = 0 ∧
    (let x := shardNew (storeEntry stored.dev 4095)
     shKind x ≠ 0 ∧ entryCode stored.dev 4095 x = 0 ∧ entryCode (owned 1 (stand 0#128)).dev 4095 x ≠ 0) := by
  decide +kernel

theorem witness_StreamAndLedgerWrites :
    OwnerOn host1 1 ∧ smapFind (withDev (fun d => { d with ni := { d.ni with slots := [(4095, 5)] } }) host1).dev.ni.slots 4095 = some 5 ∧
    smapFind host1.dev.ni.slots 0 = none ∧ (OwnerOn (owned 1 (stand 0#128)) 1 ∧ anyLive (owned 1 (stand 0#128)).dev = true) ∧
    (let d := (withReg 0x1100008 8 host1).dev
     anyLive d = false ∧ 7 < min 1024 (regField d 0x1100008 0 11) ∧
       pinsClash (plainWord d (0x1101000 + 4 * 7) (0x10005 % 2 ^ 32)) = false) ∧
    (let l := [((9, 1, 2) : Nat × Nat × Nat)]
     l.find? (fun e => e.1 == 9) = some (9, 1, 2) ∧ 8 ∉ l.map (fun e => e.1)) ∧
    (host1.dev.boot.ledger.length < 8192 ∧ 8192 ≤ (List.replicate 8192 (default : Nat)).length) := by
  decide +kernel

/-- The claim blob's first bytes of the management core: version 1, MASTER 2. -/
def claiming : State :=
  withDev (fun d => { d with own := { d.own with
    nonce := 0#64, verifying := [2], claims := [(2, (1, 0))], claimBuf := [(0x4000, 1#8), (0x4002, 2#8)] } }) (st d960)

theorem witness_BurgeeChangesHands :
    OwnerOn host1 1 ∧ 2 ∉ host1.dev.own.verifying ∧ Reaches claiming 2 ∧ 2 ∈ claiming.dev.own.verifying ∧
    claimReason claiming.dev 2 true true = 0 ∧ claimReason claiming.dev 2 false true = 2 ∧
    claimReason claiming.dev 2 true false = 8 ∧
    (let s := withDev (fun d => { d with own := { d.own with leaseLeft := 0 } }) host1
     s.dev.own.st = 1 ∧ s.dev.own.leaseLeft = 0 ∧ s.dev.pwr.st < 2) ∧
    (let d := (withDev (fun d => { d with own := { d.own with st := 2, handedAt := 0 }, boot := { d.boot with aonNs := 1000000000 } }) host1).dev
     d.own.st = 2 ∧ d.own.handedAt + 1000000000 ≤ d.boot.aonNs) ∧
    host1.dev.boot.aonNs < host1.dev.own.handedAt + 1000000000 := by
  decide +kernel

theorem witness_SecurityUpdates :
    OwnerOn host1 1 ∧ host1.dev.own.fwUpd ≠ 1 ∧ host1.dev.own.keyUpd ≠ 1 ∧ host1.dev.own.varUpd ≠ 1 ∧
    regNat host1.dev 0x3C00010 ≤ max host1.dev.own.slotA.svn host1.dev.own.slotB.svn ∧
    max host1.dev.own.slotA.svn host1.dev.own.slotB.svn < 2 ^ 32 - 1 ∧
    fwFits host1.dev (withBytes 0 [1] host1).mem 0 = true ∧ fwFits host1.dev host1.mem 0 = false ∧
    keyFits host1.dev (imageBytes host1.dev (withBytes 8 [1] (withBytes 0 [1] host1)).mem 0 11181) = true ∧
    keyFits host1.dev none = false ∧
    (let b := imageBytes host1.dev (withBytes 0 (host1.dev.boot.variant.map (fun x => x.toNat)) host1).mem 0 3437
     b.isSome = true ∧ variantFits host1.dev ((b.getD []).take 128) = true) ∧
    variantFits host1.dev [] = false ∧ Reaches host1 1 ∧ 1 ∉ host1.dev.own.attestQueue ∧
    (let d := (withDev (fun d => { d with own := { d.own with kickAt := 0, lastExpiry := none }
                                          boot := { d.boot with aonNs := 1000000000 }, mon := { d.mon with mode := 1 } }) host1).dev
     firmwareRuns d = true ∧ d.own.kickAt + 1000000000 ≤ d.boot.aonNs ∧ d.boot.aonNs < 0 + 60000000000 ∧
       d.own.lastExpiry = none) := by
  decide +kernel

/-- Commits enabled, with a good commit group of this device alone, in state `k`. -/
def grouped (k : Nat) (s : State) : State :=
  withReg 0x1200030 k (withReg 0x1200020 0x10000 (withReg 0x1200024 2 (committing s)))
/-- GTIME at `ns`. -/
def atTime (ns : Nat) (s : State) : State := withDev (fun d => { d with tm := { d.tm with gt := 16 * ns } }) s

theorem witness_StepsCommitOrAbort :
    (∀ k ∈ [0, 1, 2, 4], let d := (grouped k host1).dev
      commitEnabled d = true ∧ commitState d = k ∧ d.upd.waiting = false ∧ commitHold d = false ∧ allComplete d = true ∧
        groupGood d host1.mem = true ∧ d.boot.linkDead = false ∧ OwnerOn (grouped k host1) 1) ∧
    (let d := (withDev (fun d => { d with upd := { d.upd with shards := [(0, { shard0 with entry := [7#8] })] } }) (grouped 4 host1)).dev
     allComplete d = false ∧ commitState d = 4) ∧
    groupGood (committing host1).dev host1.mem = false ∧
    (let d := (withDev (fun d => { d with upd := { d.upd with result := some (3, 1, 9) } }) (grouped 1 host1)).dev
     commitState d = 1 ∧ d.upd.result = some (3, 1, 9)) ∧
    (let d := (withReg 0x1200040 2 (withReg 0x200110 1000 (grouped 2 host1))).dev
     gtimeNs d < beatT0 d + regNat64 d 0x1200040 * beatLen d) ∧
    (let d := (atTime 2000 (withReg 0x1200040 2 (withReg 0x200110 1000 (grouped 2 host1)))).dev
     beatT0 d + regNat64 d 0x1200040 * beatLen d ≤ gtimeNs d) ∧
    (let c := { coll2 16 1 [] [] with status := 5 }
     let d := (withColls [c] (grouped 1 host1)).dev
     d.upd.result = none ∧ ∃ c ∈ d.ni.colls, c.kind = 16 ∧ c.phase = 1 ∧ c.status ≠ 0) ∧
    (let s := withDev (fun d => { d with upd := { d.upd with waiting := true } }) (withReg 0x1200018 64 (grouped 0 host1))
     s.dev.upd.waiting = true ∧ commitState s.dev = 0 ∧
       groupGood (plainWord (plainWord s.dev 0x1200018 2) 0x120001C 0) s.mem = true) ∧
    (∀ codes ∈ [[], [7]],
     let s := withDev (fun d => { d with upd := { d.upd with waiting := true, codes := codes } })
        (withReg 0x1200028 1 (withReg 0x1200018 64 (grouped 0 host1)))
     OwnerOn s 1 ∧ s.dev.upd.waiting = true ∧ commitState s.dev = 0 ∧ commitHold s.dev = true ∧ s.dev.boot.linkDead = false ∧
       groupGood (plainWord (plainWord s.dev 0x1200018 2) 0x120001C 0) s.mem = true) := by
  decide +kernel

/-- Shard entry 0 with bucket slot 0 in state `k`, on the one-ADD program. -/
def bucket0 (k : Nat) : State :=
  withDev (fun d => bktSet { d with upd := { d.upd with
    shards := [(0, { shard0 with entry := [5#8, 255#8, 0#8, 0#8, 2#8] ++ List.replicate 9 0#8 ++ [1#8] })]
    progs := [(255, storeImage stored.dev 255)] } } 0 0 3 k) (withReg 0x1200000 0xFFFF host1)

theorem witness_UpdateEnginesRun :
    (let d := (withDev (fun d => { d with upd := { d.upd with queue := [0] } }) (bucket0 2)).dev
     engineIdle d 15 = true ∧ d.upd.queue = [0] ∧ coresRun d = true ∧ coresRun { d with pwr := { d.pwr with st := 1 } } = false) ∧
    (let d := (withDev (fun d => { d with upd := { d.upd with running := [(15, 0)], image := [(15, storeImage stored.dev 255)], attempt := [(15, 1)] } }) (bucket0 2)).dev
     smapFind d.upd.running 15 = some 0 ∧ engineIdle d 15 = false ∧ 7 ∉ smapGet d.upd.badLanes 15 [] ∧
       smapGet d.upd.attempt 15 1 < 3) ∧
    (let d := (withDev (fun d => { d with upd := { d.upd with running := [(15, 0)], attempt := [(15, 3)] } }) (bucket0 2)).dev
     3 ≤ smapGet d.upd.attempt 15 1) ∧
    (let d := (bucket0 3).dev
     ∀ x ∈ shardOf d 0, foldDue d x = true ∧ x.exch = none ∧ pgExchanges (progOf d (shProg x)) = false ∧
       shFirst x + shBuckets x ≤ 4096 ∧ shSlots x = [0]) ∧
    (∀ e ∈ [(0, none), (3, none), (0, some [⟨1#32, 0, 0, false⟩])],
      let c := { coll2 17 1 [] [] with status := e.1, num := 9, result := e.2 }
      let s := withColls [c] (withDev (fun d => { d with upd := { d.upd with
        shards := d.upd.shards.map (fun x => (x.1, { x.2 with exch := some 9 })) } }) (bucket0 3))
      coresRun s.dev = true ∧ collFind s.dev 9 = some c ∧ ∃ x ∈ shardOf s.dev 0, foldDue s.dev x = true ∧ x.exch = some 9) ∧
    (let b := [1#8] ++ List.replicate 43 0#8 ++ [3#8] ++ List.replicate 54 0#8 ++ [0x78#8] ++ List.replicate 156 0#8
     let s := withDev (fun d => { d with upd := { d.upd with
       progs := [(255, b)], shards := d.upd.shards.map (fun x => (x.1, { x.2 with entry := padTo 168 x.2.entry ++ [2#8] })) } }) (bucket0 3)
     ∀ x ∈ shardOf s.dev 0, foldDue s.dev x = true ∧ x.exch = none ∧ pgExchanges (progOf s.dev (shProg x)) = true ∧ shN x 168 4 = 2) ∧
    (let x := { shard0 with entry := [7#8], landed := 3 }
     shKind x = 3 ∧ x.updated = false ∧ x.landed % 4 = 3) ∧
    (∀ x ∈ shardOf (bucket0 1).dev 0, foldDue (bucket0 1).dev x = false ∧ shKind x ≠ 3) := by
  decide +kernel

/-- Context 0 waits in SBEAT for the boundary at 1,000 ns of its first beat; the grid is enabled. -/
def sbeatAt (ns : Nat) : State :=
  withReg 0x200100 1 (withReg 0x200110 1000 (withReg 0x200114 500 (withReg 0x200118 1 (atTime ns (onCore 0 0#128 (fun k =>
    { ctx0 (fun x => { x with st := 4, wait := .sbeat 3 false }) k with
      beat := { k.beat with kept := true, n := 0, start := 0, lag := 0, enabled := true } }))))))

theorem witness_BeatsEndAndSlip :
    (∀ ns ∈ [999, 1000, 2001, 5001], let s := sbeatAt ns
      0 < coresTotal s.dev ∧ (ctxIn s 0 0).st = 4 ∧ (ctxIn s 0 0).wait = .sbeat 3 false ∧
        (∀ e, e < 8 → e ≠ 0 → (ctxIn s 0 e).st = 0 ∧ (ctxIn s 0 e).wait = .none) ∧ (coreOf s.dev 0).ops = [] ∧
        (coreOf s.dev 0).beat.enabled = true ∧ (coreOf s.dev 0).beat.kept = true ∧ beatEnable s.dev = true ∧
        (beatBoundary s.dev (coreOf s.dev 0).beat ≤ gtimeNs s.dev ↔ 1000 ≤ ns) ∧ InStore (ctxIn s 0 0) ∧
        (slipLimit s.dev < liveLag s.dev (coreOf s.dev 0).beat ↔ 2000 < ns) ∧
        (4 * slipLimit s.dev < liveLag s.dev (coreOf s.dev 0).beat ↔ 5000 < ns) ∧
        (coreOf s.dev 0).beat.slipArmed = true ∧ (coreOf s.dev 0).beat.lateArmed = true) := by
  decide +kernel

/-- The power state changed. -/
def withPwr (g : PwrState → PwrState) (s : State) : State := withDev (fun d => { d with pwr := g d.pwr }) s

theorem witness_PowerEntries :
    (∀ k ∈ [1, 2, 3], refusers host1.dev k = [] ∧ OwnerOn host1 1 ∧ host1.dev.pwr.st = 0 ∧ host1.dev.pwr.entering = false ∧
      (refusers (withReg 0x800 8 host1).dev k).head? = some 0x10FF) ∧
    OwnerOn (withPwr (fun p => { p with st := 1 }) host1) 1 ∧
    (let d := (withPwr (fun p => { p with entering := true, target := 2 }) host1).dev
     d.pwr.entering = true ∧ d.pwr.accepted = false ∧ delayers d = [] ∧ gtimeNs d ≤ d.pwr.goTime + delayMaxNs d) ∧
    (let d := (atTime 10000001 (withPwr (fun p => { p with entering := true, target := 2 })
        (withDev (fun d => { d with own := { d.own with verifying := [2] } }) host1))).dev
     d.pwr.entering = true ∧ d.pwr.accepted = false ∧ (delayers d).head? = some 0x0FFF ∧
       d.pwr.goTime + delayMaxNs d < gtimeNs d ∧ refusers d d.pwr.target = []) ∧
    (∀ l ∈ [true, false], ∀ k ∈ [1, 2, 3],
      let p := (withPwr (fun p => { p with entering := true, accepted := true, target := k, latched := l }) host1).dev.pwr
      p.entering = true ∧ p.accepted = true ∧ 1 ≤ p.target ∧ p.target ≤ 3 ∧ p.latched = l) := by
  decide +kernel

theorem witness_WakesAndExits :
    (let d := host1.dev
     portSt d 0 ≠ 3 ∧ portSt d 38 ≠ 3 ∧ d.pwr.tripped = false ∧ d.own.epo = false ∧ d.pwr.st = 0 ∧ d.pwr.entering = false) ∧
    (∀ k ∈ [1, 2, 3], let d := (withPwr (fun p => { p with st := k, exiting := true }) host1).dev
      d.pwr.exiting = true ∧ d.pwr.tripped = false ∧ d.host.later = [] ∧ d.pwr.entering = false ∧ d.pwr.st = k ∧
        (pickSlot d).isSome = true) ∧
    (let s := owned 1 (onCore 0 0#128 (ctx0 (fun x => { x with st := 5, wait := .waitm 9 })))
     OwnerOn s 1 ∧ 0 < coresTotal s.dev ∧ s.dev.pwr.entering = false ∧
       (∀ c, c < 8 → (ctxIn s 0 c).st = 5 → InStore (ctxIn s 0 c))) ∧
    (let d := (withPwr (fun p => { p with wakeN := true, wakeAt := 0 }) (withDev (fun d =>
        { d with boot := { d.boot with aonNs := 100000000 } }) host1)).dev
     d.pwr.wakeN = true ∧ d.pwr.wakeAt + 100000000 ≤ d.boot.aonNs) := by
  decide +kernel

theorem witness_LimitsTripsAndResets :
    (let d := host1.dev
     pkgCap d < 2400 ∧ d.pwr.tripped = false ∧ d.pwr.resetHeld = none ∧ smapGet d.pwr.throttled 3 false = false ∧
       anyHot d = false ∧ railTrips 1 1981 = true ∧ railTrips 1 1980 = false ∧ railTrips 5 2999 = true) ∧
    (∀ ns ∈ [99999, 100000],
     let d := (atTime ns (withPwr (fun p => { p with capping := true, capAt := 0, throttled := [(3, true)], thAt := [(3, 0)] }) host1)).dev
     pkgCap d < 2400 ∧ d.pwr.capping = true ∧ (gtimeNs d < d.pwr.capAt + 100000 ↔ ns = 99999) ∧
       smapGet d.pwr.throttled 3 false = true ∧ (smapGet d.pwr.thAt 3 0 + 100000 ≤ gtimeNs d ↔ ns = 100000)) ∧
    (let d := (atTime 1000000 (withPwr (fun p => { p with capClock := 1775, clocks := [(3, 400)], throttled := [(3, true)] }) host1)).dev
     0 * 100 < pkgCap d * 97 ∧ d.pwr.capClock < 1800 ∧ d.pwr.capAt + 1000000 ≤ gtimeNs d ∧ thermClock d 3 < 1800 ∧
       smapGet d.pwr.thAt 3 0 + 1000000 ≤ gtimeNs d ∧ smapGet d.pwr.throttled 3 false = true) ∧
    (let d := (withPwr (fun p => { p with tripped := true, temps := [(0, 116)] }) host1).dev
     d.pwr.tripped = true ∧ anyHot d = true) ∧
    (let d := (withPwr (fun p => { p with tripped := true, temps := [(0, 99)], resetHeld := some 7 }) host1).dev
     d.pwr.tripped = true ∧ anyHot d = false ∧ d.pwr.resetHeld = some 7 ∧ (∀ e ∈ d.pwr.temps, e.2 < 100) ∧
       (∀ e ∈ d.stk, e.2.temp < 100)) := by
  decide +kernel

/-- Bring-up running in stage `k`. -/
def inStage (k : Nat) : State := withReg 0x800 (k + 16) (st d960)

theorem witness_StagesRunInOrder :
    (∀ k ∈ [0, 1, 2, 3, 4, 5, 6, 7, 8], stageRuns (inStage k).dev = true ∧ bootStage (inStage k).dev = k) ∧
    stageRuns host1.dev = false ∧
    ((stageWork (inStage 0).dev 0 { sr0 with rails := 63 }).status ≠ 5 ∧ (stageWork (inStage 0).dev 0 { sr0 with rails := 31 }).status = 5 ∧
      (stageWork (inStage 3).dev 3 sr0).status ≠ 5 ∧ (stageWork (inStage 3).dev 3 { sr0 with linksBad := 128 }).status = 5) ∧
    joinReady (inStage 8).dev [] = false ∧
    joinReady (withReg 0x10 0x40000000 (withDev (fun d => { d with tm := { d.tm with st := 2 } }) (inStage 8))).dev [] = true ∧
    (∀ k ∈ [0, 1, 2, 3, 4, 5, 6, 7], ∀ ms ∈ stageBudget (inStage k).dev k,
      stageLate (inStage k).dev = false ∧ (inStage k).dev.boot.aonNs - (inStage k).dev.boot.stageStart ≤ ms * 1000000 ∧
      (let d := (withDev (fun d => { d with boot := { d.boot with aonNs := 70000000000, stageStart := 0 } }) (inStage k)).dev
       k = 7 ∨ ms * 1000000 < d.boot.aonNs - d.boot.stageStart)) ∧
    (∀ e ∈ [(6, 6), (7, 7), (38, 7)],
      let d := (withReg (portOff e.1) 1 (withDev (fun d => { d with boot := { d.boot with aonNs := 70000000000, stageStart := 0 } })
        (inStage e.2))).dev
      portSt d e.1 = 1 ∧ stageRuns d = true ∧ portSt host1.dev e.1 ≠ 1 ∧
        (if e.1 < 7 then regField d 0x1000060 16 16 else regField d 0x3000004 16 16) * 1000000 ≤ d.boot.aonNs - d.boot.stageStart) := by
  decide +kernel

theorem witness_SidebandAnswers :
    (let d := (owned 2 (st d960)).dev
     d.pwr.aonLost = false ∧ d.pwr.entering = false ∧ d.pwr.st = 0 ∧ i3cReady d = true ∧ i3cArmed d = false ∧ isOwner d 2 = true ∧
       accessGood 0x9000 4 = true ∧ accessGood 0x9000 8 = true ∧ accessGood 2 4 = false) ∧
    (let d := host1.dev
     isOwner d 2 = false ∧ exemptWrite (i3cDisarm d) 2 0x200020 4 1 = none ∧ exemptWrite (i3cDisarm d) 2 0x200020 8 1 = none) ∧
    i3cReady (st d960).dev = false ∧ (withPwr (fun p => { p with aonLost := true }) host1).dev.pwr.aonLost = true ∧
    (let d := (withDev (fun d => { d with own := { d.own with armed := some 1 } }) host1).dev
     i3cArmed d = true ∧ d.own.armed = some 1 ∧ d.boot.aonNs < 1) ∧
    (let d := (withDev (fun d => { d with own := { d.own with armed := some 0 } }) host1).dev
     0 ≤ d.boot.aonNs ∧ i3cArmed d = false) ∧ 0xFF % 256 ∉ [0x01, 0x02, 0x03, 0x04, 0x10, 0x11, 0x12, 0x20] := by
  decide +kernel

/-! ### The fabric, links and light -/

/-- A MGMT packet of sub-type `sub` from node 5 in the mailbox of a device whose manager list names node 5. -/
def mails (p : Packet) (s : State) : State :=
  withReg 0x3C00058 1 (withReg 0x3C00050 5 (withDev (fun d => { d with fab := { d.fab with mailbox := [p] } }) s))

theorem witness_ManagementPackets :
    (∀ k ∈ [0, 1, 3, 5, 8, 9], let s := withReg 0x3C00058 0 (mails (pk 8 k [0]) (st d960))
      (pk 8 k [0]) ∈ s.dev.fab.mailbox ∧ routerOn s.dev = true ∧ fmNode s.dev 5 = false) ∧
    (let p := pk 8 1 ([0, 0x90, 0, 0, 4, 0, 0, 0] ++ List.replicate 8 1)
     let s := mails p (owned 3 (st d960))
     p ∈ s.dev.fab.mailbox ∧ routerOn s.dev = true ∧ fmNode s.dev 5 = true ∧ payNat p 0 4 = 0x9000 ∧ accessGood 0x9000 (payNat p 4 1) = true ∧
       isOwner s.dev 3 = true ∧ isOwner (mails p host1).dev 3 = false ∧ exemptWrite (mails p host1).dev 3 0x9000 4 0 = none ∧
       accessGood 1 4 = false) ∧
    (let p := pk 8 3 [64, 0, 0, 0, 9]
     252 * payNat p 0 2 + ((p.payload.drop 4).take (min 252 (p.len - 4))).length ≤ 0x4000) ∧
    (pk 8 5 (List.replicate 64 0)).len = 64 ∧
    (let p := pk 8 4 [1, 0, 2, 0, 9]
     let c : FabCmd := ⟨5, 2, [(0, [1#8])], 0, false⟩
     let s := withDev (fun d => { d with fab := { d.fab with cmds := [c] } }) (mails p (st d960))
     s.dev.fab.cmds.find? (fun c => c.src == p.src && !fabWhole c && !c.verified && c.chunks == 2) = some c ∧ fabLate s.dev c = false ∧
       fabLate (late s).dev c = true) ∧
    (let p := pk 8 4 [46, 0, 47, 0, 1]
     payNat p 0 2 < payNat p 2 2 ∧ payNat p 2 2 ≤ 47 ∧ 5 ≤ p.len) ∧
    (let p := pk 8 4 [0, 0, 48, 0, 1]
     47 < payNat p 2 2) := by
  decide +kernel

/-- A fabric command of one chunk for node 0: KIND, SERIAL 1, APPLY_TIME, a body in range and a signature of zeros. -/
def fabCmd (kind time : Nat) (v : Bool) : FabCmd :=
  { src := 5, chunks := 1, last := 0, verified := v
    got := [(0, leBytes 2 kind ++ leBytes 2 0 ++ leBytes 4 (if kind = 1 then 8320 else 4624) ++ leBytes 8 1 ++ leBytes 8 time ++
      leBytes 40 0 ++ leBytes 8 (if kind = 1 then 0 else 0x0000000A_00020001) ++
      List.replicate ((if kind = 1 then 8312 else 4616) + 3309) 0#8)] }

theorem fabCmd_length (k t : Nat) (v : Bool) :
    (fabBytes (fabCmd k t v)).length = 64 + (8 + ((if k = 1 then 8312 else 4616) + 3309)) := by
  have e : ∀ n x, (leBytes n x).length = n := by
    intro n
    induction n with
    | zero => intro x; rfl
    | succ n ih => intro x; exact congrArg (fun m => m + 1) (ih _)
  simp only [fabBytes, fabCmd, List.flatMap_cons, List.flatMap_nil, List.append_nil, List.length_append, List.length_replicate, e]
  omega

theorem fabCmd_good (k t : Nat) (v : Bool) (h : (k, t) = (1, 0) ∨ (k, t) = (2, 0) ∨ (k, t) = (2, 7)) :
    fabReason (st d960).dev (fabBytes (fabCmd k t v)) true = 0 := by
  rw [show fabBytes (fabCmd k t v) = fabBytes (fabCmd k t false) from rfl]
  unfold fabReason fabRange
  rw [fabCmd_length]
  rcases h with h | h | h <;> obtain ⟨rfl, rfl⟩ := Prod.mk.inj h <;> decide +kernel

/-- A device with fabric command `c`. -/
def hears (c : FabCmd) : State := withDev (fun d => { d with fab := { d.fab with cmds := [c] } }) (st d960)

theorem witness_FabricCommandsApply (k t : Nat) (hk : k = 1 ∨ k = 2) (ht : t = 0 ∨ t = 7) :
    let c := fabCmd k t false
    (hears c).dev.fab.cmds.find? (fun c => !c.verified && fabWhole c) = some c ∧ fabReason (hears c).dev (fabBytes c) false = 1 ∧
      fabKind (fabBytes c) = k ∧ (fabTime (fabBytes c) ≤ gtimeNs (hears c).dev ↔ t = 0) := by
  rcases hk with rfl | rfl <;> rcases ht with rfl | rfl <;> exact ⟨rfl, rfl, rfl, by decide +kernel⟩

theorem witness_FabricCommandsApply_due :
    (st d960).dev.fab.cmds.find? (fun c => !c.verified && fabWhole c) = none ∧
    fabDue (hears (fabCmd 1 0 true)).dev 1 = some (fabCmd 1 0 true) ∧ fabDue (hears (fabCmd 2 0 true)).dev 2 = some (fabCmd 2 0 true) ∧
    (∀ k ∈ [1, 2], lastSerial (hears (fabCmd k 0 true)).dev k < fabSerial (fabBytes (fabCmd k 0 true)) ∧ fabDue (st d960).dev k = none ∧
      fabSerial (fabBytes (fabCmd k 0 true)) ≤ lastSerial (withReg 0x1000010 1 (withReg 0x1000028 1 (st d960))).dev k) ∧
    (let c := { fabCmd 1 0 false with chunks := 2 }
     let s := withDev (fun d => { d with boot := { d.boot with aonNs := 10000001 } }) (hears c)
     s.dev.fab.cmds.find? (fun c => !c.verified && !fabWhole c && decide (c.last + 10000000 < s.dev.boot.aonNs)) = some c) :=
  ⟨rfl, rfl, rfl, by decide +kernel, rfl⟩

/-- Router port `p` trained, open to slice 7 of which nodes 0 and 63 are members, and productive for node 63. -/
def up (p : Nat) (s : State) : State :=
  withReg (portOff p) (2 + 8 * 8 + 0x400 + 0x800) (withReg 0x1000020 0x8007 (withReg 0x1000000 0x0010000F (withDev (fun d => modLink { d with
    fab := { d.fab with members := 1 + 2 ^ 63, locals := [(63, BitVec.ofNat 64 (2 ^ p))] } } p (fun x => { x with mask := 255, farMask := 255, slots := 1 })) s)))
/-- A packet for node `dst` in slice 7. -/
def pkTo (typ dst : Nat) : Packet := sealPacket { pk typ 0 [1] with dst := dst, slice := 7 }

theorem witness_RouterCycles_sealed : packetCheck (pkTo 1 0) = (pkTo 1 0).check := packetCheck_sealPacket _

/-- A link changed. -/
def withLink (p : Nat) (g : LinkState → LinkState) (s : State) : State := withDev (fun d => modLink d p g) s

theorem witness_RouterCycles :
    (∀ port ∈ [0, 6, 7, 38], let s := up port (st d960)
      let p := { pk 1 0 [1] with dst := 63, slice := 7 }
      routerOn s.dev = true ∧ (∀ k, k < 39 → (linkOf s.dev k).held = none ∧ (linkOf s.dev k).align = []) ∧ s.dev.fab.copies = [] ∧ s.dev.ni.inject = [] ∧
        PortUp s port ∧ (linkOf s.dev port).slots % 64 ≠ 0 ∧ rateOpen s.dev port = true ∧ p.dst ≠ ownNode s.dev ∧ fenceBad s.dev p = false ∧ openTo s.dev port p.slice = true ∧
        ageNs s.dev p < maxAgeNs s.dev ∧ natBit (routeMask s.dev p.dst) port = true ∧ portTakes s.dev port p = true ∧
        portTakes (withLink port (fun x => { x with paused := some 0 }) s).dev port p = false ∧ isGolden s.dev p = false ∧ isGolden (atTime 15000 s).dev p = true ∧ ageNs (atTime 15000 s).dev p < maxAgeNs s.dev ∧
        maxAgeNs (atTime 16000 s).dev ≤ ageNs (atTime 16000 s).dev p ∧
        fenceBad s.dev { p with slice := 8 } = true ∧ isMember s.dev 63 = true) ∧
    (let s := up 6 (up 38 (st d960))
     natBit (routeMask s.dev 63) 38 = false ∧ portTakes s.dev 38 { pk 1 0 [1] with dst := 63, slice := 7 } = true ∧
       routeMask s.dev 63 ≠ 0 ∧ routeMask s.dev 62 = 0) ∧
    (let s := withReg 0x1000024 0x00010001 (up 6 (st d960))
     let p := { pk 1 0 [1] with dst := 63, slice := 7 }
     injMay s.dev p = true ∧ portTakes s.dev 6 (stampPacket s.dev p) = true) ∧
    routerOn (withPwr (fun p => { p with st := 2 }) (st d960)).dev = false ∧ (st d960).dev.fab.mailbox.length < 256 ∧
    ownSlice (up 6 (st d960)).dev = 7 ∧ sliceValid (up 6 (st d960)).dev = true ∧ ownNode (up 6 (st d960)).dev = 0 := by
  and_intros <;> decide +kernel

theorem witness_LinksAndTime :
    (let s := up 38 (st d960)
     PortUp s 38 ∧ (linkOf s.dev 38).ranges = [] ∧ (linkOf s.dev 38).waiting = [] ∧
       (0 % 256 + 256 - (linkOf s.dev 38).reqSeen) % 256 = 0 ∧ (127 % 256 + 256 - (linkOf s.dev 38).reqSeen) % 256 = 127 ∧
       (linkOf s.dev 38).reqSeen = 0 ∧ (linkOf s.dev 38).opEcho = 0 ∧
       (linkOf (withLink 38 (fun x => { x with slots := 64 }) s).dev 38).slots % 64 = 0 ∧ portSt (st d960).dev 38 ≠ 2 ∧
       (linkOf (withLink 38 (fun x => { x with trips := (320, 2) }) s).dev 38).trips.2 ≠ 0) ∧
    bytesNat (List.replicate 288 0#8) 24 1 = 0 ∧ bytesNat (List.replicate 288 0#8) 46 1 = 0 ∧
    (let d := (withDev (fun d => { d with tm := { d.tm with st := 2 } }) (st d960)).dev
     d.tm.st = 2 ∧ d.tm.root = false ∧ d.boot.aonNs < d.tm.heardAt + 100000) ∧ (st d960).dev.tm.st ≠ 2 ∧
    (let d := (late (withDev (fun d => { d with tm := { d.tm with st := 2 } }) (st d960))).dev
     d.tm.st = 2 ∧ d.tm.root = false ∧ d.tm.heardAt + 100000 ≤ d.boot.aonNs) ∧
    (∀ e ∈ [(999, true), (1000, false)], ((atTime e.1 (st d960)).dev.tm.tickUs = gtimeNs (atTime e.1 (st d960)).dev / 1000 ↔ e.2 = true)) ∧
    (let d := (atTime 1000000 (withReg 0x1000004 1000 (st d960))).dev
     routerOn d = true ∧ max 1 (regNat d 0x1000004) * 1000 ≤ gtimeNs d ∧
       gtimeNs d / 1000000 ≠ d.fab.mapStart / 1000000 ∧
       gtimeNs (atTime 999999 (withReg 0x1000004 1000 (st d960))).dev < max 1 (regNat d 0x1000004) * 1000) := by
  decide +kernel

/-- The marker of lane 7 with mask 0xFF and MODE 0, its CRC in place. -/
def marker7 : BitVec 64 := BitVec.ofNat 64 (7 + 255 * 2 ^ 8 + crc8 (leBytes 7 (7 + 255 * 2 ^ 8)) * 2 ^ 56)

theorem witness_LanesComeAndGo :
    ∀ port ∈ [0, 38], let s := up port (st d960)
      PortUp s port ∧ markerGood 7 marker7 = true ∧ markerGood 7 0#64 = false ∧ laneIn s.dev port 7 = true ∧
      2 ≤ smapGet (linkOf (withLink port (fun x => { x with badMarks := [(7, 2)] }) s).dev port).badMarks 7 0 ∧
      smapGet (linkOf s.dev port).badMarks 7 0 < 2 ∧
      0 + pauseMaxNs s.dev < gtimeNs (atTime 2000000000 s).dev ∧ gtimeNs s.dev ≤ 0 + pauseMaxNs s.dev ∧
      (uncorrMs (withLink port (fun x => { x with uncorr := List.replicate 65 0 }) s).dev port).length = 65 ∧ (uncorrMs s.dev port).length ≤ 64 ∧
      7 ≤ portLanes s.dev port ∧ portLanes (withReg (portOff port) (2 + 6 * 8) s).dev port = 6 ∧
      255 % 256 ≠ (linkOf s.dev port).opEcho ∧ 256 % 256 = (linkOf s.dev port).opEcho ∧ natBit (retiredLanes s.dev port) 7 = false ∧
      calBusy s.dev port = false ∧
      (∀ op ∈ [1, 2], let t := withLink port (fun x => { x with req := some (op, 7, 1), asked := [(op, 7, 1)] }) s
        laneAsked t.dev port 7 = some (op, 7, 1) ∧ (linkOf t.dev port).req = some (op, 7, 1) ∧ (linkOf t.dev port).ops = [] ∧
          calBusy t.dev port = false ∧ hoOf t.dev port = none) ∧
      (port = 0 →
        let t := withDev (fun d => modLane d port 7 (fun x => { x with saved := some (9, 0) }))
          (withLink port (fun x => { x with asked := [(1, 7, 2)] }) s)
        laneAsked t.dev port 7 = some (1, 7, 2) ∧ (portLane t.dev port 7).saved = some (9, 0)) ∧
      laneAsked s.dev port 7 = none ∧ (portLane s.dev port 7).test ≠ 2 ∧
      (portLane (withDev (fun d => modLane d port 7 (fun x => { x with test := 2 })) s).dev port 7).test = 2 := by
  decide +kernel

/-- Bobbin 7 of engine 7 changed. -/
def withLaser (g : LaserState → LaserState) (s : State) : State := withDev (fun d => modLaser d 7 7 g) s

theorem witness_RingsAndLasers :
    (let s := up 38 (st d960)
     let r := fun (x : LaneState) => { x with txLock := 3, rxLock := 3, txHeater := 12000, rxHeater := 12000 }
     let lane := fun (g : LaneState → LaneState) => portLane (withDev (fun d => modLane d 38 7 (fun x => g (r x))) s).dev 38 7
     s.dev.pwr.st ≠ 2 ∧ (linkOf s.dev 38).farMode ≠ 2 ∧ (lane id).txLock = 3 ∧ (lane id).rxLock = 3 ∧ (lane id).hopTx = false ∧
       (lane id).hopRx = false ∧ (∀ e ∈ [(11000, 11991), (12005, 12005), (13000, 12009)], slewed (lane id).txHeater e.1 = e.2) ∧
       slewed (lane (fun x => { x with txHeater := 23000 })).txHeater 24000 = 23009 ∧
       slewed (lane (fun x => { x with txHeater := 5 })).txHeater 0 = 0 ∧ slewed (lane (fun x => { x with txHeater := 24995 })).txHeater 25000 = 25000 ∧
       2 ≤ (lane (fun x => { x with badTx := (2, 0) })).badTx.1 ∧ (lane (fun x => { x with txLock := 5 })).txLock = 5 ∧
       (portLane s.dev 38 7).txLock ≠ 5 ∧ (portLane s.dev 38 7).rxLock ≠ 5) ∧
    (let s := withLink 38 (fun x => { x with mask := 127 }) (up 38 (st d960))
     let with_ := fun (g : LaneState → LaneState) => withDev (fun d => modLane d 38 7 g) s
     laneAway s.dev 38 7 = true ∧ rateCalm s.dev 38 7 40 = false ∧ rateCalm s.dev 38 7 (-39) = true ∧ rateCalm (late s).dev 38 7 40 = true ∧
       natBit (failedLanes s.dev 38) 7 = false ∧ (linkOf s.dev 38).addDue = none ∧ laneCount (linkOf s.dev 38) ≠ 0 ∧
       (portLane s.dev 38 7).attempts < 2 ∧ 2 ≤ (portLane (with_ (fun x => { x with attempts := 2 })).dev 38 7).attempts ∧
       natBit (failedLanes (withReg (optOff 38) 0x80000 s).dev 38) 7 = true ∧ laneAway (withReg (optOff 38) 0x80000 s).dev 38 7 = true ∧
       (portLane s.dev 38 7).txLock ≠ 1 ∧ (∀ k ∈ [6, 7], (portLane (with_ (fun x => { x with txLock := 1, retries := k })).dev 38 7).retries = k) ∧
       laneAway s.dev 38 6 = false) ∧
    (let s := withReg (portOff 38) (2 + 8 * 8 + 0x50000) (up 38 (st d960))
     PortUp s 38 ∧ turnNow s.dev 38 = true ∧ turnNow (withLink 38 (fun x => { x with turnDue := 1 }) s).dev 38 = false ∧
       leads s.dev 38 = true ∧ failedLanes s.dev 38 = 0 ∧ retiredLanes s.dev 38 = 0 ∧ (optPortOf s.dev 31).calNext = 0 ∧
       7 ≤ portLanes s.dev 38 ∧ laneIn s.dev 38 0 = true ∧ calBusy s.dev 38 = false ∧ hoHolds s.dev 38 = false ∧
       (linkOf s.dev 38).asked = [] ∧ leads (up 38 (st d960)).dev 38 = false) ∧
    (let s := withReg (optOff 38) (0xF0000000 : Nat) (withLink 38 (fun x => { x with mask := 127 }) (up 38 (st d960)))
     calBusy s.dev 38 = true ∧ calLane s.dev 38 = 7 ∧ laneIn s.dev 38 7 = false ∧ (linkOf s.dev 38).addDue = none ∧
       laneCount (linkOf s.dev 38) ≠ 0) ∧
    (let s := up 6 (st d960)
     PortUp s 6 ∧ turnNow s.dev 6 = true ∧ (linkOf s.dev 6).failed = 0 ∧ (linkOf s.dev 6).retired = 0 ∧ (linkOf s.dev 6).adaptNext = 0 ∧
       7 ≤ portLanes s.dev 6 ∧ laneIn s.dev 6 0 = true ∧ (linkOf s.dev 6).asked = []) ∧
    (∀ ok ∈ [true, false], let z := laserOf (withLaser (fun z => { z with st := 0, fadeRun := 1000, eolRun := 1000, spareOk := ok }) (st d960)).dev 7 7
      z.st = 0 ∧ 1000 ≤ z.fadeRun ∧ 1000 ≤ z.eolRun ∧ z.spareOk = ok) ∧ (st d960).dev.pwr.st ≤ 1 ∧
    (∀ p ∈ enginePorts 7, calBusy (st d960).dev p = false ∧ hoOf (st d960).dev p = none) ∧
    (∃ p ∈ enginePorts 7, calBusy (withReg (optOff 38) (2 ^ 31) (st d960)).dev p = true) ∧
    (let z := laserOf (withLaser (fun z => { z with st := 2, spareOk := true, retired := 0 }) (st d960)).dev 7 7
     z.st = 2 ∧ z.spareOk = true ∧ natBit z.retired z.active.toNat = false) ∧
    (∀ p ∈ enginePorts 7, hoClear (st d960).dev p 7 = true) ∧ (∃ p ∈ enginePorts 7, hoClear (up 38 (st d960)).dev p 7 = false) ∧
    (laserOf (st d960).dev 7 7).fadeRun < 1000 ∧ (laserOf (st d960).dev 7 7).eolRun < 1000 ∧ (laserOf (st d960).dev 7 7).st ≠ 2 := by
  and_intros <;> decide +kernel

theorem witness_EyeSafety :
    ∀ port ∈ [7, 38], let s := withDev (fun d => { d with boot := { d.boot with applied := padTo 52 [] ++ List.replicate 4 0xFF#8 } }) (up port (st d960))
      optEnabled s.dev (port - 7) = true ∧ optEnabled (st d960).dev (port - 7) = false ∧ portSt s.dev port ≠ 3 ∧ (lastHour s.dev (optPortOf s.dev (port - 7)).safeAt).length < 3 ∧
      lastHour s.dev (optPortOf s.dev (port - 7)).capAt = [] ∧
      (let o := optPortOf (withDev (fun d => modOptPort d (port - 7) (fun x => { x with safeAt := [0, 0, 0], capAt := [0] })) s).dev (port - 7)
       3 ≤ (lastHour s.dev o.safeAt).length ∧ lastHour s.dev o.capAt ≠ [] ∧ (lastHour s.dev o.capAt).length < 2) ∧
      (let m := regField (withReg (optOff port) 4 s).dev (optOff port) 0 4
       2 ≤ m ∧ m ≤ 4) ∧
      (let d := (withReg (optOff port) 1 (withReg (portOff port) 1 s)).dev
       portSt d port = 1 ∧ regField d (optOff port) 0 4 = 1 ∧ 6 ≤ popcount8 (63 % 256) ∧ popcount8 (31 % 256) < 6 ∧
         (optPortOf d (port - 7)).tries = 0 ∧ (port = 38 → fibreWrong d port 99 = false) ∧
         (port = 7 → fibreWrong d port (fibrePartner d 0) = false ∧ fibreWrong d port (fibrePartner d 0 + 1) = true)) := by
  decide +kernel

/-! ### Ageing, stacks and the monitor -/

/-- Physical core 0 aged. -/
def aged (g : PhysAge → PhysAge) (s : State) : State := withDev (fun d => modAge d 0 g) s

theorem witness_UnitsAge :
    (let s := onCore 0 0#128 id
     (∀ e ∈ [([], 1), (List.replicate 15 0, 16), (List.replicate 16 0, 17), (List.replicate 16 1, 17)],
       let d := (atTime 1000000 (withDev (fun d => { d with boot := { d.boot with linkRetry := [(511, e.1)] } }) s)).dev
       (gtimeNs d :: (smapGet d.boot.linkRetry (64 * 7 + 63 % 64) []).filter (fun t => decide (gtimeNs d < t + 1000000))).length =
         (if e.1.head? = some 1 then 17 else 1)) ∧
       natBit s.dev.boot.linksDown 7 = false ∧ natBit (natPut s.dev.boot.linksDown 7 1 1) 7 = true ∧
       coreInService s.dev 0 = true ∧ physOf s.dev 0 < 208 ∧ 30 < natGap 700 731 ∧ natGap 700 730 ≤ 30 ∧
       (coreOf s.dev 0).health.droops < 3 ∧ coreInService s.dev 192 = false ∧ commitEnabled (committing s).dev = true) ∧
    (let s := withDev (fun d => { d with boot := { d.boot with applied := d.boot.variant } }) (onCore 0 0#128 id)
     physInUse s.dev 0 = true ∧ physInUse s.dev 208 = false ∧ (ageOf s.dev 0).rise < maxRise s.dev ∧ (ageOf s.dev 0).lastRaise = none ∧
       maxRise s.dev ≤ (ageOf (aged (fun a => { a with rise := 100 }) s).dev 0).rise ∧
       (∃ x ∈ (ageOf (aged (fun a => { a with lastRaise := some 0 }) s).dev 0).lastRaise, gtimeNs s.dev < x + 100000000) ∧
       (5 : Int) < Int.ofNat (raisePs s.dev) ∧ (ageOf s.dev 0).rise + stepMv s.dev ≤ maxRise s.dev ∧
       Int.ofNat (lowerPs s.dev) ≤ 255) ∧
    ((st d960).dev.boot.opSeconds / 86400 ≤ (st d960).dev.boot.daysDone) ∧
    (∀ k ∈ [0, 3], let d := (withPwr (fun p => { p with st := k }) (withDev (fun d =>
        { d with boot := { d.boot with opSeconds := 86400, daysDone := 0 } }) (st d960))).dev
      d.boot.daysDone < d.boot.opSeconds / 86400 ∧ d.boot.dayHeld = none ∧ d.pwr.st = k) := by
  decide +kernel

/-- Stack 19 changed. -/
def withStack (g : StackState → StackState) (s : State) : State := withDev (fun d => modStack d 19 g) s

theorem witness_StacksThrottleAndScrub :
    (let d := (st d960).dev
     d.pwr.resetHeld = none ∧ (stackOf d 19).step = 0 ∧ stackWarm d ≤ 104 ∧ d.pwr.tripped = false ∧
       (stackOf d 19).step < 2 ∧ d.pwr.st ≤ 1 ∧ (stackOf d 19).failed = false ∧ 0 < linesPerPc d ∧ Machine.pcRetired d (64 * 19) = false ∧
       (stackOf d 19).scrubLine < 64 * linesPerPc d ∧ ueWithinDay d 1279 < 8 ∧ ceLastHour d 1279 ≤ 100000 ∧
       coreInService d 192 = false) ∧
    (let d := (atTime 100000000 (withStack (fun x => { x with step := 1, temp := 104, since := 0 }) (st d960))).dev
     (stackOf d 19).step = 1 ∧ stackWarm d ≤ (stackOf d 19).temp ∧ (stackOf d 19).since + stackDwell d ≤ gtimeNs d) ∧
    (let d := (atTime 100000000 (withStack (fun x => { x with step := 3, temp := 20, coolSince := some 0 }) (st d960))).dev
     (stackOf d 19).coolSince = some 0 ∧ 0 + stackDwell d ≤ gtimeNs d ∧ (stackOf d 19).temp < stackWarm d ∧ 1 ≤ (stackOf d 19).step ∧
       2 ≤ (stackOf d 19).step) ∧
    (let d := (withStack (fun x => { x with step := 1, since := 0 }) (st d960)).dev
     gtimeNs d < (stackOf d 19).since + stackDwell d ∧ (stackOf d 19).coolSince = none) ∧
    (let s := onCore 0 0#128 id
     coreInService s.dev 0 = true ∧ s.dev.pwr.st ≤ 1 ∧ (coreOf s.dev 0).health.scrubRow = 0 ∧ 383 / 384 = 0 ∧
       inRow 0 0 (.spad 0 383 2) = true ∧ inRow 0 0 (.spad 0 384 2) = false ∧ spadBase 0 + 8 * 383 ∉ s.mem.poison) ∧
    (let w := codeWord (List.replicate 64 1#8) false
     changedPlaces w [] = [] ∧ changedPlaces w [(71, 255)] = [(71, 255)] ∧ changedPlaces w [(0, 1), (71, 2)] = [(0, 1), (71, 2)] ∧
       (changedPlaces w [(0, 1), (8, 2), (71, 3)]).length = 3 ∧ (changedPlaces w [(0, 1), (8, 2), (71, 3), (9, 9)]).length = 4) ∧
    (let d := (withDev (fun d => { d with mm := { d.mm with
        ueLines := [(1279, [(0, 0), (1, 0), (2, 0), (3, 0), (4, 0), (5, 0), (6, 0), (7, 0)])], ceTimes := [(0, [(0, 100001)])] } }) (st d960)).dev
     8 ≤ ueWithinDay d 1279 ∧ Machine.pcRetired d 1279 = false ∧ 100000 < ceLastHour d 0) := by
  decide +kernel

/-- A line of characters. -/
def chars (x : String) : List Byte := x.toList.map (fun c => BitVec.ofNat 8 c.toNat)
/-- The same with its check code. -/
def signed (x : String) : List Byte :=
  let v := ((x.toList.map Char.toNat).foldl (fun a b => a + b) 0) % 256
  let h := fun n => BitVec.ofNat 8 (if n < 10 then 48 + n else 55 + n)
  chars x ++ [42#8, h (v / 16), h (v % 16)]
/-- The firmware monitor of a device that it owns. -/
def mon4 : State := withDev (fun d => { d with mon := { d.mon with mode := 1 } }) (owned 4 (st d960))
/-- The tokens of a line after its word. -/
def argsOf (line : List Byte) : List (List Nat) := ((monParse (editLine line)).toks).drop 1

theorem witness_MonitorCommands_heard :
    (∀ e ∈ [("HELP", "", chars "help"), ("ID", "", chars "ID"), ("PEN", "", chars "PEN"), ("RD", "", chars "RD 0x0"), ("WR", "", signed "WR 0x9000 1"),
        ("DUMP", "", chars "DUMP 0x100 256"), ("SHARD", "", chars "SHARD 0 0 0 8"), ("BUNT", "", chars "BUNT"), ("LEDGER", "", chars "LEDGER 0 64"),
        ("BEAT", "", chars "BEAT"), ("TEMP", "", chars "TEMP"), ("FAULTS", "", chars "FAULTS 64"), ("CLAIM", "GO", signed "CLAIM GO"),
        ("CLAIM", "", signed "CLAIM 0x3FFF FF"), ("BURGEE", "RENEW", signed "BURGEE RENEW"), ("BURGEE", "", signed "BURGEE RELEASE"),
        ("QUOTE", "", signed "QUOTE 00"), ("STAGE", "", signed "STAGE 0x100 FF"), ("FWUPD", "", signed "FWUPD 0x100"),
        ("VARIANT", "", signed "VARIANT 0x100"), ("KEYUPD", "", signed "KEYUPD 0x100"), ("BAUD", "", chars "BAUD 7")],
      MonTakes mon4 e.2.2 e.1 e.2.1 ((monParse (editLine e.2.2)).check) (argsOf e.2.2) ∧ (editLine e.2.2).length ≤ 512 ∧
        (monParse (editLine e.2.2)).right = true) ∧
    (MonHears mon4 (chars "ID\t") "ID\t" "" false ∧ ¬ (editLine (chars "ID\t")).all (fun x => decide (32 ≤ x ∧ x ≤ 126)) = true) ∧
    (MonHears mon4 (chars "ID*00") "ID" "" true ∧ (monParse (editLine (chars "ID*00"))).right = false) ∧
    (MonHears mon4 (chars "WR 0x9000 1") "WR" "" false ∧ (monParse (editLine (chars "WR 0x9000 1"))).right = true) ∧
    (MonHears { mon4 with dev := { mon4.dev with mon := { mon4.dev.mon with mode := 0 } } } (chars "BEAT") "BEAT" "" false) ∧
    (let c := monParse (editLine (chars "PING"))
     c.toks.length = 1 ∧ (∀ w ∈ c.toks, (monRow w).isNone = true) ∧ c.check = false ∧ mon4.dev.mon.due = none ∧
       mon4.dev.mon.buf = [] ∧ mon4.dev.mon.queue = [] ∧ monRuns mon4.dev = true) := by
  and_intros <;> decide +kernel

theorem witness_MonitorCommands :
    numArgs 0 1 (argsOf (chars "PEN 9")) = some [9] ∧ numArgs 1 2 (argsOf (chars "RD 0x9000")) = some [0x9000] ∧
    accessGood 0x9000 4 = true ∧ accessGood 1 4 = false ∧ bar0Region 0x1000 ∈ [0, 1, 8] ∧ bar0Region 0x2000000 ∉ [0, 1, 8] ∧
    (dumpRead mon4.dev mon4.mem 0x100 256).1 = 0 ∧ (dumpRead mon4.dev mon4.mem 0x100 257).1 = 6 ∧
    (dumpRead mon4.dev { mon4.mem with poison := [memKey 0x100] } 0x100 8).1 = 9 ∧ (shardRead mon4.dev mon4.mem 0 0 0 8).1 = 6 ∧
    (argsOf (chars "BUNT HEX")).map (fun w => isWord w "HEX") = [true] ∧ numArgs 0 2 (argsOf (chars "LEDGER 0 64")) = some [0, 64] ∧
    numArgs 0 1 (argsOf (chars "FAULTS 65")) = some [65] ∧
    monMine (editLine (signed "CLAIM 0x3FFF FF")) (monParse (editLine (signed "CLAIM 0x3FFF FF"))) "CLAIM" "GO" = false ∧
    numBytes (argsOf (signed "CLAIM 0x3FFF FF")) = some (0x3FFF, [255#8]) ∧ (argsOf (signed "CLAIM GO")).length = 1 ∧
    4 ∉ mon4.dev.own.verifying ∧ isOwner mon4.dev 4 = true ∧ isOwner host1.dev 4 = false ∧
    (argsOf (signed "BURGEE RELEASE")).map (fun w => isWord w "RELEASE") = [true] ∧
    (argsOf (signed "QUOTE 00")).map hexBytesOf = [some [0#8]] ∧ 4 ∉ mon4.dev.own.attestQueue ∧
    numArgs 2 3 (argsOf (signed "WR 0x9000 1")) = some [0x9000, 1] ∧ exemptWrite mon4.dev 4 0x9000 4 1 = none ∧
    numBytes (argsOf (signed "STAGE 0x100 FF")) = some (0x100, [255#8]) ∧ stageCode mon4.dev 0x100 1 = 0 ∧ stageCode mon4.dev 0x100 201 = 6 ∧
    rangeBad mon4.dev mon4.mem 0x100 1 = false ∧ numArgs 1 1 (argsOf (signed "FWUPD 0x100")) = some [0x100] ∧
    mon4.dev.own.fwUpd ≠ 1 ∧ mon4.dev.own.varUpd ≠ 1 ∧ mon4.dev.own.keyUpd ≠ 1 ∧ numArgs 1 1 (argsOf (chars "BAUD 8")) = some [8] ∧
    mon4.dev.mon.revert = none ∧
    (let s := withDev (fun d => { d with mon := { d.mon with revert := some 0 } }) mon4
     s.dev.mon.revert = some 0 ∧ s.dev.boot.aonNs < 0 + 5000000000) := by
  and_intros <;> decide +kernel
end Sys2Proof.Tests
end

section
/-! SUPPORT. Every command ends in `finish`: what a step does to memory is a list of memory operations. -/

namespace Sys2Proof.Machine

/-- Whatever the command, its effect is a device and a list of memory operations, put into the state by `finish`. -/
theorem exec_finishes (i : Instr) (s : State) : ∃ r, exec i s = finish s r := by
  cases i <;> exact ⟨_, rfl⟩

/-- So a step changes memory by a list of memory operations and in no other way. -/
theorem step_mem {s t : State} (h : step s = .next t) : ∃ ops, t.mem = memApplyAll s.mem ops := by
  cases hp : s.pending with
  | nil =>
    rw [step, hp] at h
    cases h
    exact ⟨_, rfl⟩
  | cons c rest =>
    obtain ⟨r, hr⟩ := exec_finishes c { s with pending := rest }
    rw [step, hp] at h
    simp only [hr, finish_next, Host.Outcome.next.injEq] at h
    exact ⟨r.2, by rw [← h]⟩

/-- Settles O4: a step applies memory operations, each of which keeps the canonical form. -/
theorem stepKeepsMemoryForm : Obligations.StepKeepsMemoryForm := by
  intro s t hs ht
  obtain ⟨ops, hops⟩ := step_mem ht
  show t.mem.wf = true
  rw [hops]
  exact memApplyAll_wf s.mem ops hs

/-- The state that a command's effect becomes. -/
def after (s : State) (r : Dev × List MemOp) : State := { pending := s.pending, dev := r.1, mem := memApplyAll s.mem r.2 }

@[simp] theorem after_dev (s : State) (r : Dev × List MemOp) : (after s r).dev = r.1 := rfl
@[simp] theorem after_mem (s : State) (r : Dev × List MemOp) : (after s r).mem = memApplyAll s.mem r.2 := rfl

/-- A command that ends in `finish` completes; what holds of its effect holds of the next state. -/
theorem does_finish {i : Instr} {s : State} {r : Dev × List MemOp} {P : State → Prop} (h : exec i s = finish s r)
    (hP : P (after s r)) : Does i s P := ⟨_, h, rfl, hP⟩

/-- A command without an effect leaves the block unchanged. -/
theorem does_unchanged {i : Instr} {s : State} (h : exec i s = finish s (s.dev, [])) : Does i s (fun t => Unchanged s t) :=
  does_finish h rfl

/-- What each of a list of changes keeps, all of them keep. -/
theorem foldl_keeps {σ α β : Type} (g : σ → β) (f : σ → α → σ) (l : List α) (d : σ)
    (h : ∀ e, ∀ x ∈ l, g (f e x) = g e) : g (l.foldl f d) = g d := by
  induction l generalizing d with
  | nil => rfl
  | cons x t ih => exact (ih (f d x) fun e y hy => h e y (by simp [hy])).trans (h d x (by simp))

end Sys2Proof.Machine
end

section
/-! SUPPORT. Bit fields of numbers and of register words: what a field reads after a write of the same field or of another. -/

namespace Sys2Proof.Machine

theorem testBit_natBits (x lo w j : Nat) : (natBits x lo w).testBit j = (decide (j < w) && x.testBit (lo + j)) := by
  simp [natBits, Nat.testBit_mod_two_pow, Nat.testBit_shiftRight]

theorem natBit_eq_testBit (x i : Nat) : natBit x i = x.testBit i := by
  rw [Bool.eq_iff_iff, Nat.testBit_eq_decide_div_mod_eq, decide_eq_true_iff]
  simp only [natBit, natBits, Nat.shiftRight_eq_div_pow, Nat.pow_one, beq_iff_eq]

/-- A field replaced: its bits come from the new value, the others stay. -/
theorem testBit_natPut (x lo w v i : Nat) :
    (natPut x lo w v).testBit i = if lo ≤ i ∧ i < lo + w then v.testBit (i - lo) else x.testBit i := by
  have low : ∀ m, 2 ^ lo * m + x % 2 ^ lo = m * 2 ^ lo + x % 2 ^ lo := fun m => by rw [Nat.mul_comm]
  have hx : x = 2 ^ lo * (2 ^ w * (x / 2 ^ lo / 2 ^ w) + natBits x lo w) + x % 2 ^ lo := by
    rw [natBits, Nat.shiftRight_eq_div_pow, Nat.div_add_mod, Nat.div_add_mod]
  have hput : natPut x lo w v = 2 ^ lo * (2 ^ w * (x / 2 ^ lo / 2 ^ w) + v % 2 ^ w) + x % 2 ^ lo := by
    unfold natPut
    rw [Nat.mul_add] at hx ⊢
    rw [Nat.mul_comm (natBits x lo w), Nat.mul_comm (v % 2 ^ w)]
    omega
  have hl : x % 2 ^ lo < 2 ^ lo := Nat.mod_lt _ (Nat.two_pow_pos lo)
  have hm : v % 2 ^ w < 2 ^ w := Nat.mod_lt _ (Nat.two_pow_pos w)
  rw [hput, Nat.testBit_two_pow_mul_add _ hl, Nat.testBit_two_pow_mul_add _ hm]
  by_cases h1 : i < lo
  · simp [h1, Nat.testBit_mod_two_pow, Nat.not_le.2 h1]
  · by_cases h2 : i < lo + w
    · have h3 : i - lo < w := by omega
      simp [h1, h2, h3, Nat.testBit_mod_two_pow, Nat.not_lt.1 h1]
    · have h3 : ¬ i - lo < w := by omega
      simp only [h1, h2, h3, if_false, and_false, Nat.testBit_div_two_pow]
      congr 1
      omega

theorem natBits_natPut_same (x lo w v : Nat) : natBits (natPut x lo w v) lo w = v % 2 ^ w := by
  apply Nat.eq_of_testBit_eq
  intro j
  rw [testBit_natBits, testBit_natPut, Nat.testBit_mod_two_pow]
  by_cases h : j < w <;> simp [h]

theorem natBits_natPut_other (x lo w v lo' w' : Nat) (h : lo' + w' ≤ lo ∨ lo + w ≤ lo') :
    natBits (natPut x lo w v) lo' w' = natBits x lo' w' := by
  apply Nat.eq_of_testBit_eq
  intro j
  rw [testBit_natBits, testBit_natBits, testBit_natPut]
  by_cases hj : j < w'
  · rw [if_neg (by omega)]
  · simp [hj]

/-- A field below bit `n` does not see what lies from bit `n` on. -/
theorem natBits_mod (x n lo w : Nat) (h : lo + w ≤ n) : natBits (x % 2 ^ n) lo w = natBits x lo w := by
  apply Nat.eq_of_testBit_eq
  intro j
  rw [testBit_natBits, testBit_natBits, Nat.testBit_mod_two_pow]
  by_cases hj : j < w
  · simp [hj, show lo + j < n by omega]
  · simp [hj]

theorem natBit_mod (x n i : Nat) (h : i < n) : natBit (x % 2 ^ n) i = natBit x i := by
  simp [natBit_eq_testBit, Nat.testBit_mod_two_pow, h]

theorem regBit_eq (d : Dev) (off i : Nat) : regBit d off i = (regNat d off).testBit i := by
  simp [regBit, regNat, BitVec.testBit_toNat]

theorem regField_eq (d : Dev) (off lo w : Nat) : regField d off lo w = natBits (regNat d off) lo w := rfl

theorem regNat_regPutField_same (d : Dev) (off lo w v : Nat) :
    regNat (regPutField d off lo w v) off = natPut (regNat d off) lo w v % 2 ^ 32 := by
  simp [regNat, regPutField, bvPut]

theorem regGet_regPutField_other (d : Dev) (off j lo w v : Nat) (h : j ≠ off) :
    regGet (regPutField d off lo w v) j = regGet d j := regGet_regPut_other d off j _ h

theorem regField_regPutField_same (d : Dev) (off lo w v : Nat) (h : lo + w ≤ 32) :
    regField (regPutField d off lo w v) off lo w = v % 2 ^ w := by
  rw [regField_eq, regNat_regPutField_same, natBits_mod _ _ _ _ h, natBits_natPut_same]

theorem regField_regPutField_other (d : Dev) (off lo w v lo' w' : Nat) (h32 : lo' + w' ≤ 32)
    (h : lo' + w' ≤ lo ∨ lo + w ≤ lo') :
    regField (regPutField d off lo w v) off lo' w' = regField d off lo' w' := by
  rw [regField_eq, regNat_regPutField_same, natBits_mod _ _ _ _ h32, natBits_natPut_other _ _ _ _ _ _ h, regField_eq]

theorem regField_congr {a b : Dev} {off : Nat} (h : regGet b off = regGet a off) (lo w : Nat) :
    regField b off lo w = regField a off lo w := by
  simp [regField, h]

theorem regNat_congr {a b : Dev} {off : Nat} (h : regGet b off = regGet a off) : regNat b off = regNat a off := by
  simp [regNat, h]

theorem regBit_regPutField (d : Dev) (off lo w v i : Nat) (hi : i < 32) :
    regBit (regPutField d off lo w v) off i = if lo ≤ i ∧ i < lo + w then v.testBit (i - lo) else regBit d off i := by
  rw [regBit_eq, regNat_regPutField_same, Nat.testBit_mod_two_pow, testBit_natPut, regBit_eq]
  simp [hi]

end Sys2Proof.Machine
end

section
/-! SUPPORT. What a fault record changes: its registers, the recorder, outputs, the monitor's lines and the packets of an interrupt,
and nothing else (R466 to R471, R507 to R510). -/

namespace Sys2Proof.Machine

/-- Device `a` with the reporting parts of `t`. -/
def withReports (a t : Dev) : Dev :=
  { a with
    regs := t.regs, rcd := t.rcd, out := t.out, mon := t.mon
    host := { a.host with msixPending := t.host.msixPending }
    ni := { a.ni with inject := t.ni.inject } }

theorem reports_iff (a t : Dev) :
    Reports a t ↔ (∀ off, off ∉ reportOffs → regGet t off = regGet a off) ∧ t = withReports a t := Iff.rfl

theorem reports_refl (a : Dev) : Reports a a := ⟨fun _ _ => rfl, rfl⟩

theorem Reports.trans {a b c : Dev} (h : Reports a b) (g : Reports b c) : Reports a c := by
  obtain ⟨hr, hw⟩ := (reports_iff a b).1 h
  obtain ⟨gr, gw⟩ := (reports_iff b c).1 g
  refine (reports_iff a c).2 ⟨fun off ho => (gr off ho).trans (hr off ho), ?_⟩
  calc c = withReports b c := gw
    _ = withReports (withReports a b) c := congrArg (fun x => withReports x c) hw
    _ = withReports a c := rfl

theorem Reports.regGet_eq {a t : Dev} (h : Reports a t) {off : Nat} (ho : off ∉ reportOffs) : regGet t off = regGet a off := h.1 off ho
theorem Reports.regNat_eq {a t : Dev} (h : Reports a t) {off : Nat} (ho : off ∉ reportOffs) : regNat t off = regNat a off :=
  regNat_congr (h.1 off ho)
theorem Reports.cores_eq {a t : Dev} (h : Reports a t) : t.cores = a.cores := (congrArg Dev.cores h.2 :)
theorem Reports.tm_eq {a t : Dev} (h : Reports a t) : t.tm = a.tm := (congrArg Dev.tm h.2 :)
theorem Reports.upd_eq {a t : Dev} (h : Reports a t) : t.upd = a.upd := (congrArg Dev.upd h.2 :)
theorem Reports.boot_eq {a t : Dev} (h : Reports a t) : t.boot = a.boot := (congrArg Dev.boot h.2 :)
theorem Reports.ni_eq {a t : Dev} (h : Reports a t) : t.ni = { a.ni with inject := t.ni.inject } := (congrArg Dev.ni h.2 :)

/-! ### The steps of a record -/

theorem reports_regPut (d : Dev) (off : Nat) (v : W32) (h : off ∈ reportOffs) : Reports d (regPut d off v) :=
  ⟨fun j hj => regGet_regPut_other d off j v (fun e => hj (e ▸ h)), rfl⟩

theorem reports_regPutNat (d : Dev) (off v : Nat) (h : off ∈ reportOffs) : Reports d (regPutNat d off v) := reports_regPut d off _ h

theorem reports_regBump (d : Dev) (off k : Nat) (h : off ∈ reportOffs) : Reports d (regBump d off k) := reports_regPut d off _ h

theorem reports_regPutField (d : Dev) (off lo w v : Nat) (h : off ∈ reportOffs) : Reports d (regPutField d off lo w v) :=
  reports_regPut d off _ h

theorem reports_emit (d : Dev) (o : Out) : Reports d (emit d o) := ⟨fun _ _ => rfl, rfl⟩

theorem reports_rcd (d : Dev) (g : RecState) : Reports d { d with rcd := g } := ⟨fun _ _ => rfl, rfl⟩

theorem reports_queueAt (d : Dev) (port : Nat) (p : Packet) : Reports d (queueAt d port p) := ⟨fun _ _ => rfl, rfl⟩

theorem reports_raiseVector (d : Dev) (v : Nat) : Reports d (raiseVector d v) := by
  unfold raiseVector
  split
  · exact ⟨fun _ _ => rfl, rfl⟩
  · exact reports_emit d _

theorem reports_monSay (d : Dev) (ws : List (MonWord)) : Reports d (monSay d ws) := by
  unfold monSay
  split
  · exact ⟨fun _ _ => rfl, rfl⟩
  · exact (reports_regBump d 0xA008 1 (by decide)).trans ⟨fun _ _ => rfl, rfl⟩

theorem reports_toRing (d : Dev) (bytes : List Byte) : Reports d (toRing d bytes).1 := by
  have drop : Reports d (regPutField (regBump d 0x3E00014 1) 0x3E00008 7 1 1) :=
    (reports_regBump d 0x3E00014 1 (by decide)).trans (reports_regPutField _ _ _ _ _ (by decide))
  unfold toRing
  split
  · exact reports_refl d
  · dsimp only
    split
    · exact drop
    · split
      · exact (reports_emit d _).trans (reports_regPutField _ _ _ _ _ (by decide))
      · exact drop.trans (reports_regBump _ _ _ (by decide))

theorem reports_ownerInterrupt (d : Dev) (bytes : List Byte) : Reports d (ownerInterrupt d bytes) := by
  unfold ownerInterrupt
  split
  · exact reports_raiseVector d 0
  · exact reports_emit d _
  · exact reports_queueAt d _ _
  · exact reports_monSay d _
  · exact reports_refl d

theorem reports_writeRecord (d : Dev) (r : RecArgs) (supp : Bool) (count : Nat) (ring : Bool) :
    Reports d (writeRecord d r supp count ring).1 := by
  have ring_reports : ∀ (e : Dev) (bytes : List Byte), Reports e (if ring then toRing e bytes else (e, false)).1 := by
    intro e bytes
    split
    · exact reports_toRing e bytes
    · exact reports_refl e
  have body : ∀ (g : RecState) (bytes : List Byte),
      Reports d (if ring then toRing { regPutNat d 0x3E08010 (regNat d 0x3E08010 + 1) with rcd := g } bytes
        else ({ regPutNat d 0x3E08010 (regNat d 0x3E08010 + 1) with rcd := g }, false)).1 := fun g bytes =>
    ((reports_regPutNat d 0x3E08010 _ (by decide)).trans (reports_rcd _ g)).trans (ring_reports _ bytes)
  unfold writeRecord
  dsimp only
  split
  · exact (body _ _).trans (reports_ownerInterrupt _ _)
  · exact body _ _

/-- A fault recorded reports, and does nothing else. -/
theorem reports_postRecord (d : Dev) (r : RecArgs) : Reports d (postRecord d r) := by
  unfold postRecord
  dsimp only
  split
  · split
    · exact (reports_rcd d _).trans (reports_rcd _ _)
    · exact ((reports_rcd d _).trans (reports_rcd _ _)).trans (reports_regBump _ _ _ (by decide))
  · have written : ∀ (g : RecState) (supp : Bool) (count : Nat), Reports d (writeRecord { d with rcd := g } r supp count true).1 :=
      fun g supp count => (reports_rcd d g).trans (reports_writeRecord _ r supp count true)
    split
    · exact ((written _ _ _).trans (reports_rcd _ _)).trans (reports_writeRecord _ _ _ _ _)
    · exact written _ _ _

/-- So does a write to host memory, whether a window lets it pass or not. -/
theorem reports_hostWrite (d : Dev) (a : Nat) (bytes : List Byte) : Reports d (hostWrite d a bytes) := by
  unfold hostWrite
  split
  · exact reports_emit d _
  · exact (reports_regBump d _ _ (by decide)).trans (reports_postRecord _ _)

/-! ### What it counts -/

theorem raiseVector_rcd (d : Dev) (v : Nat) : (raiseVector d v).rcd = d.rcd := by unfold raiseVector; split <;> rfl

theorem monSay_rcd (d : Dev) (ws : List MonWord) : (monSay d ws).rcd = d.rcd := by unfold monSay; split <;> rfl

theorem toRing_rcd (d : Dev) (bytes : List Byte) : (toRing d bytes).1.rcd = d.rcd := by
  unfold toRing
  split
  · rfl
  · dsimp only
    split
    · rfl
    · split <;> rfl

theorem ownerInterrupt_rcd (d : Dev) (bytes : List Byte) : (ownerInterrupt d bytes).rcd = d.rcd := by
  unfold ownerInterrupt
  split
  · exact raiseVector_rcd d 0
  · rfl
  · rfl
  · exact monSay_rcd d _
  · rfl

theorem writeRecord_counts (d : Dev) (r : RecArgs) (supp : Bool) (count : Nat) (ring : Bool) :
    (writeRecord d r supp count ring).1.rcd.counts = d.rcd.counts := by
  have ring_rcd : ∀ (e : Dev) (bytes : List Byte), (if ring then toRing e bytes else (e, false)).1.rcd = e.rcd := by
    intro e bytes
    split
    · exact toRing_rcd e bytes
    · rfl
  unfold writeRecord
  dsimp only
  split
  · rw [ownerInterrupt_rcd, ring_rcd]
    rfl
  · rw [ring_rcd]
    rfl

theorem recUnit_hostWindow (bytes : List Byte) : 65536 * 0x0F20 + recUnit (recOf 0x0F20 2 0xFF bytes) = 0xF200FFF := by
  simp [recUnit, recOf]

/-- A record raises the count of its event and unit; the one that may follow it is HOST_WINDOW's (R466, R507). -/
theorem records_postRecord (d : Dev) (r : RecArgs) (h : 65536 * r.ev + recUnit r ≠ 0xF200FFF) :
    Records d (postRecord d r) r.ev (recUnit r) := by
  unfold Records postRecord
  dsimp only
  split
  · split
    · exact smapGet_smapSet_same _ _ _ _
    · exact smapGet_smapSet_same _ _ _ _
  · split
    · rw [writeRecord_counts]
      dsimp only
      rw [recUnit_hostWindow, smapGet_smapSet_other _ _ _ _ _ h, writeRecord_counts]
      exact smapGet_smapSet_same _ _ _ _
    · rw [writeRecord_counts]
      exact smapGet_smapSet_same _ _ _ _

end Sys2Proof.Machine
end

section
/-! SUPPORT. Bring-up: what starting, closing and ending a stage leave, and the ports that stop training (R440 to R445). -/

namespace Sys2Proof.Machine

/-! ### BRINGUP_STATUS -/

theorem bootReady_eq (d : Dev) : bootReady d = (regField d 0x800 7 1 == 1) := rfl

theorem bootStage_lt (d : Dev) : bootStage d < 16 := Nat.mod_lt _ (by decide)

theorem bootStage_putStatus (d : Dev) (stage status : Nat) : bootStage (putStatus d stage status) = stage % 16 := by
  rw [bootStage, putStatus, regField_regPutField_other _ _ _ _ _ _ _ (by decide) (by decide)]
  exact regField_regPutField_same _ _ _ _ _ (by decide)

theorem bootStatus_putStatus (d : Dev) (stage status : Nat) : bootStatus (putStatus d stage status) = status % 8 := by
  rw [bootStatus, putStatus]
  exact regField_regPutField_same _ _ _ _ _ (by decide)

theorem bootReady_putStatus (d : Dev) (stage status : Nat) : bootReady (putStatus d stage status) = bootReady d := by
  simp only [bootReady_eq, putStatus, regField_regPutField_other _ _ _ _ _ _ _ (by decide : (7 : Nat) + 1 ≤ 32)
    (by decide : 7 + 1 ≤ 4 ∨ 4 + 3 ≤ 7), regField_regPutField_other _ _ _ _ _ _ _ (by decide : (7 : Nat) + 1 ≤ 32)
    (by decide : 7 + 1 ≤ 0 ∨ 0 + 4 ≤ 7)]

theorem regGet_putStatus (d : Dev) (stage status off : Nat) (h : off ≠ 0x800) :
    regGet (putStatus d stage status) off = regGet d off := by
  rw [putStatus, regGet_regPutField_other _ _ _ _ _ _ h, regGet_regPutField_other _ _ _ _ _ _ h]

theorem bootStage_congr {a b : Dev} (h : regGet b 0x800 = regGet a 0x800) : bootStage b = bootStage a := regField_congr h 0 4
theorem bootStatus_congr {a b : Dev} (h : regGet b 0x800 = regGet a 0x800) : bootStatus b = bootStatus a := regField_congr h 4 3
theorem bootReady_congr {a b : Dev} (h : regGet b 0x800 = regGet a 0x800) : bootReady b = bootReady a := by
  rw [bootReady_eq, bootReady_eq, regField_congr h]
theorem portSt_congr {a b : Dev} {p : Nat} (h : regGet b (portOff p) = regGet a (portOff p)) : portSt b p = portSt a p :=
  regField_congr h 0 3

/-- Bring-up does not run in a stage that has failed. -/
theorem stageRuns_failed (d : Dev) (h : bootStatus d = 5) : stageRuns d = false := by simp [stageRuns, h]

/-! ### A stage ends -/

/-- Byte 1 of a pennant is its status (R445). -/
theorem pennantBytes_status (stage status attempt flags starts t0 us ev unit new : Nat) (detail : List Byte) :
    bytesNat (pennantBytes stage status attempt flags starts t0 us ev unit new detail) 1 1 = status % 256 := by
  simp [bytesNat, pennantBytes, leBytes, leNat]

/-- A stage closed: its status and its pennant, and reports of it. -/
theorem closeStage_reports (d : Dev) (stage flags : Nat) (o : StageOut) :
    ∃ b, bytesNat b 1 1 = o.status % 256 ∧
      Reports (putPennant (putStatus o.dev stage o.status) stage b) (closeStage d stage flags o) :=
  ⟨_, pennantBytes_status .., (reports_raiseVector _ _).trans (reports_monSay _ _)⟩

theorem regGet_closeStage (d : Dev) (stage flags : Nat) (o : StageOut) (off : Nat) (h : off ∉ reportOffs) :
    regGet (closeStage d stage flags o) off = regGet (putStatus o.dev stage o.status) off := by
  obtain ⟨b, -, hr⟩ := closeStage_reports d stage flags o
  exact hr.regGet_eq h

theorem bootStage_closeStage (d : Dev) (stage flags : Nat) (o : StageOut) :
    bootStage (closeStage d stage flags o) = stage % 16 := by
  rw [bootStage_congr (regGet_closeStage d stage flags o 0x800 (by decide)), bootStage_putStatus]

theorem bootStatus_closeStage (d : Dev) (stage flags : Nat) (o : StageOut) :
    bootStatus (closeStage d stage flags o) = o.status % 8 := by
  rw [bootStatus_congr (regGet_closeStage d stage flags o 0x800 (by decide)), bootStatus_putStatus]

theorem bootReady_closeStage (d : Dev) (stage flags : Nat) (o : StageOut) :
    bootReady (closeStage d stage flags o) = bootReady o.dev := by
  rw [bootReady_congr (regGet_closeStage d stage flags o 0x800 (by decide)), bootReady_putStatus]

theorem portOff_bounds {q : Nat} (h : q < 39) : 0x1000100 ≤ portOff q ∧ portOff q < 0x1000238 := by
  unfold portOff; omega

theorem portOff_not_report {q : Nat} (h : q < 39) : portOff q ∉ reportOffs := by
  have := portOff_bounds h
  simp only [reportOffs, List.mem_cons, List.not_mem_nil, or_false]
  omega

theorem portSt_closeStage (d : Dev) (stage flags : Nat) (o : StageOut) (q : Nat) (h : q < 39) :
    portSt (closeStage d stage flags o) q = portSt o.dev q := by
  have hb := portOff_bounds h
  rw [portSt_congr (regGet_closeStage d stage flags o _ (portOff_not_report h)),
    portSt_congr (regGet_putStatus o.dev stage o.status _ (by omega))]

theorem boot_closeStage (d : Dev) (stage flags : Nat) (o : StageOut) :
    ∃ b, bytesNat b 1 1 = o.status % 256 ∧ (closeStage d stage flags o).boot =
      { o.dev.boot with pennants := smapSet o.dev.boot.pennants stage b } := by
  obtain ⟨b, hb, hr⟩ := closeStage_reports d stage flags o
  exact ⟨b, hb, hr.boot_eq⟩

/-! ### A stage starts -/

/-- The device as stage `stage` finds it: stage 8 locks a valid NODE_ID and sends it to the neighbours (R17, R18). -/
def lockNode (d : Dev) (stage : Nat) : Dev :=
  if stage == 8 && natBit (regNat d 0x10) 30 then sendNumbers (regPutField d 0x10 31 1 1) else d

/-- The status with which a stage starts: WAITING where stage 8 must wait. -/
def startStatus (d : Dev) (stage : Nat) : Nat := if stage = 8 ∧ !joinReady (lockNode d stage) [] then 2 else 1

/-- The enabled ports of stage 6 or 7 start to train. -/
def portsTrain (d : Dev) (stage : Nat) : Dev :=
  if stage = 6 then
    (rangeFrom 0 7).foldl (fun e p => if boardEnabled e p then regPutField e (portOff p) 0 3 1 else e) d
  else if stage = 7 then
    (rangeFrom 7 32).foldl (fun e p =>
      if optEnabled e (p - 7) then regPutField (regPutField e (portOff p) 0 3 1) (optOff p) 0 4 1 else e) d
  else d

theorem startStage_eq (d : Dev) (stage : Nat) : ∃ l n b, startStage d stage =
    putPennant (portsTrain { putStatus (lockNode d stage) stage (startStatus d stage) with boot :=
      { (lockNode d stage).boot with stageStart := (lockNode d stage).boot.aonNs, stageLedger := l, stageSeq := n } } stage)
      stage b := ⟨_, _, _, rfl⟩

theorem sendNumbers_regs (d : Dev) : (sendNumbers d).regs = d.regs :=
  foldl_keeps Dev.regs _ _ d fun _ _ _ => rfl

theorem sendNumbers_boot (d : Dev) : (sendNumbers d).boot = d.boot :=
  foldl_keeps Dev.boot _ _ d fun _ _ _ => rfl

theorem lockNode_boot (d : Dev) (stage : Nat) : (lockNode d stage).boot = d.boot := by
  unfold lockNode
  split
  · rw [sendNumbers_boot]; rfl
  · rfl

theorem regGet_lockNode (d : Dev) (stage off : Nat) (h : off ≠ 0x10) : regGet (lockNode d stage) off = regGet d off := by
  unfold lockNode
  split
  · rw [regGet, sendNumbers_regs]
    exact regGet_regPutField_other d 0x10 off 31 1 1 h
  · rfl

theorem portsTrain_boot (d : Dev) (stage : Nat) : (portsTrain d stage).boot = d.boot := by
  unfold portsTrain
  split
  · exact foldl_keeps Dev.boot _ _ d fun e p _ => by split <;> rfl
  · split
    · exact foldl_keeps Dev.boot _ _ d fun e p _ => by split <;> rfl
    · rfl

/-- The words of the ports that a stage trains: PORT_STATUS of the board ports, or PORT_STATUS and PORT_OPT of the optical ones. -/
def trainedWord (stage off : Nat) : Prop :=
  (stage = 6 ∧ ∃ p, p < 7 ∧ off = portOff p) ∨ (stage = 7 ∧ ∃ p, 7 ≤ p ∧ p < 39 ∧ (off = portOff p ∨ off = optOff p))

theorem regGet_portsTrain (d : Dev) (stage off : Nat) (h : ¬ trainedWord stage off) :
    regGet (portsTrain d stage) off = regGet d off := by
  unfold portsTrain
  split
  · rename_i h6
    refine foldl_keeps (fun e => regGet e off) _ _ d fun e p hp => ?_
    have hp7 := ((mem_rangeFrom _ _ _).1 hp).2
    have ho : off ≠ portOff p := fun he => h (.inl ⟨h6, p, by omega, he⟩)
    split
    · exact regGet_regPutField_other _ _ _ _ _ _ ho
    · rfl
  · split
    · rename_i h7
      refine foldl_keeps (fun e => regGet e off) _ _ d fun e p hp => ?_
      obtain ⟨hlo, hhi⟩ := (mem_rangeFrom _ _ _).1 hp
      have ho : off ≠ portOff p := fun he => h (.inr ⟨h7, p, hlo, by omega, .inl he⟩)
      have hq : off ≠ optOff p := fun he => h (.inr ⟨h7, p, hlo, by omega, .inr he⟩)
      split
      · exact (regGet_regPutField_other _ _ _ _ _ _ hq).trans (regGet_regPutField_other _ _ _ _ _ _ ho)
      · rfl
    · rfl

theorem regGet_startStage (d : Dev) (stage off : Nat) (h : ¬ trainedWord stage off) :
    regGet (startStage d stage) off = regGet (putStatus (lockNode d stage) stage (startStatus d stage)) off := by
  obtain ⟨l, n, b, he⟩ := startStage_eq d stage
  rw [he]
  exact regGet_portsTrain _ stage off h

theorem not_trainedWord_low (stage off : Nat) (h : off < 0x1000000) : ¬ trainedWord stage off := by
  unfold trainedWord portOff optOff
  omega

theorem bootStage_startStage (d : Dev) (stage : Nat) : bootStage (startStage d stage) = stage % 16 := by
  rw [bootStage_congr (regGet_startStage d stage 0x800 (not_trainedWord_low _ _ (by decide))), bootStage_putStatus]

theorem bootStatus_startStage (d : Dev) (stage : Nat) :
    bootStatus (startStage d stage) = if stage = 8 ∧ !joinReady (lockNode d stage) [] then 2 else 1 := by
  rw [bootStatus_congr (regGet_startStage d stage 0x800 (not_trainedWord_low _ _ (by decide))), bootStatus_putStatus, startStatus]
  split <;> rfl

/-- A stage starts without touching the ports of the other stage. -/
theorem portSt_startStage (d : Dev) (stage q : Nat) (hq : q < 39) (h6 : stage = 6 → 7 ≤ q) (h7 : stage = 7 → q < 7) :
    portSt (startStage d stage) q = portSt d q := by
  have hb := portOff_bounds hq
  have hn : ¬ trainedWord stage (portOff q) := by
    unfold trainedWord portOff optOff
    omega
  rw [portSt_congr (regGet_startStage d stage _ hn), portSt_congr (regGet_putStatus _ _ _ _ (by omega)),
    portSt_congr (regGet_lockNode d stage _ (by omega))]

theorem boot_startStage (d : Dev) (stage : Nat) : ∃ l n b, (startStage d stage).boot =
    { d.boot with stageStart := d.boot.aonNs, stageLedger := l, stageSeq := n, pennants := smapSet d.boot.pennants stage b } := by
  obtain ⟨l, n, b, he⟩ := startStage_eq d stage
  refine ⟨l, n, b, ?_⟩
  rw [he, putPennant, portsTrain_boot, lockNode_boot]

/-! ### How a stage's end goes on (R441) -/

theorem endStage_fail (d : Dev) (stage flags : Nat) (o : StageOut) (h : o.status = 5) :
    endStage d stage flags o = (closeStage d stage flags o, o.ops) := by
  simp [endStage, h]

theorem endStage_next (d : Dev) (stage flags : Nat) (o : StageOut) (h : o.status ≠ 5) (hs : stage < 8) :
    endStage d stage flags o = (startStage (closeStage d stage flags o) (stage + 1), o.ops) := by
  simp [endStage, h, show stage ≠ 9 by omega, show stage ≠ 8 by omega]

/-- Stage 9 follows stage 8 at once. -/
theorem endStage_join (d : Dev) (flags : Nat) (o : StageOut) (h : o.status ≠ 5) :
    endStage d 8 flags o =
      (closeStage (startStage (closeStage d 8 flags o) 9) 9 0 (stage9 (startStage (closeStage d 8 flags o) 9)), o.ops) := by
  simp [endStage, h]

/-! ### Ports that found no partner -/

theorem portOff_inj {p q : Nat} (h : portOff p = portOff q) : p = q := by unfold portOff at h; omega

theorem portSt_regPutField_same (d : Dev) (p v : Nat) : portSt (regPutField d (portOff p) 0 3 v) p = v % 8 :=
  regField_regPutField_same d (portOff p) 0 3 v (by decide)

theorem portSt_regPutField_other (d : Dev) (p q v : Nat) (h : q ≠ p) : portSt (regPutField d (portOff p) 0 3 v) q = portSt d q :=
  portSt_congr (regGet_regPutField_other _ _ _ _ _ _ fun e => h (portOff_inj e))

/-- The ports of the list that were training are untrained; every other port is as it was. -/
theorem portSt_dropTraining (d : Dev) (ps : List Nat) (q : Nat) :
    portSt (dropTraining d ps) q = if q ∈ ps ∧ portSt d q = 1 then 0 else portSt d q := by
  unfold dropTraining
  induction ps generalizing d with
  | nil => simp
  | cons p t ih =>
    rw [List.foldl_cons, ih]
    by_cases hqp : q = p
    · subst hqp
      by_cases hs : portSt d q = 1
      · simp [hs, portSt_regPutField_same]
      · simp [hs]
    · have hq : portSt (if portSt d p = 1 then regPutField d (portOff p) 0 3 0 else d) q = portSt d q := by
        split
        · exact portSt_regPutField_other d p q 0 hqp
        · rfl
      simp [hq, hqp]

/-! ### The commands -/

theorem stageLate_eq {d : Dev} {ms : Nat} (h : stageBudget d (bootStage d) = some ms) :
    stageLate d = decide (ms * 1000000 < d.boot.aonNs - d.boot.stageStart) := by simp [stageLate, h]

theorem stageLate_join {d : Dev} (h : bootStage d = 8) : stageLate d = false := by simp [stageLate, stageBudget, h]

theorem exec_stageEnd_stopped (r : StageResult) {s : State} (h : stageRuns s.dev = false) :
    exec (.stageEnd r) s = finish s (s.dev, []) := by
  show execStageEnd r s = _
  simp [execStageEnd, h]

theorem exec_stageEnd_late (r : StageResult) {s : State} (h : stageRuns s.dev = true) (hl : stageLate s.dev = true) :
    exec (.stageEnd r) s = finish s (endLate s.dev) := by
  show execStageEnd r s = _
  simp only [execStageEnd, h, hl, Bool.not_true, Bool.false_eq_true, if_false, if_true]

theorem exec_stageEnd_waits (r : StageResult) {s : State} (h : stageRuns s.dev = true) (hs : bootStage s.dev = 8)
    (hj : joinReady s.dev r.numbers = false) : exec (.stageEnd r) s = finish s (putStatus s.dev 8 2, []) := by
  show execStageEnd r s = _
  simp [execStageEnd, h, stageLate_join hs, hs, hj]

theorem exec_stageEnd_ends (r : StageResult) {s : State} (h : stageRuns s.dev = true) (hl : stageLate s.dev = false)
    (hj : bootStage s.dev = 8 → joinReady s.dev r.numbers = true) :
    exec (.stageEnd r) s = finish s (endStage s.dev (bootStage s.dev) 0 (stageWork s.dev (bootStage s.dev) r)) := by
  show execStageEnd r s = _
  have hw : ¬ (bootStage s.dev = 8 ∧ (!joinReady s.dev r.numbers) = true) := by
    rintro ⟨h8, hn⟩
    simp [hj h8] at hn
  simp only [execStageEnd, h, hl, hw, Bool.not_true, Bool.false_eq_true, if_false]

theorem exec_stageTimeout_late {s : State} (h : stageRuns s.dev = true) (hl : stageLate s.dev = true) :
    exec .stageTimeout s = finish s (endLate s.dev) := by
  show execStageTimeout s = _
  simp [execStageTimeout, h, hl]

theorem exec_stageTimeout_early {s : State} (h : stageRuns s.dev = false ∨ stageLate s.dev = false) :
    exec .stageTimeout s = finish s (s.dev, []) := by
  show execStageTimeout s = _
  have hn : ¬ (stageRuns s.dev && stageLate s.dev) = true := by
    rcases h with h | h <;> simp [h]
  simp only [execStageTimeout, hn]
  rfl

end Sys2Proof.Machine
end

section
/-! CERTIFICATE. O48: bring-up stages run in order, fail, wait and time out. -/

namespace Sys2Proof.Machine

theorem passOr_cases (bad : Bool) : passOr bad = 3 ∨ passOr bad = 4 := by cases bad <;> simp [passOr]

theorem passOr_ne (bad : Bool) : passOr bad ≠ 5 := by cases bad <;> simp [passOr]

/-- A stage that ends without failing starts the next one below 8. -/
theorem stageEnd_starts_next (r : StageResult) (s : State) (hr : stageRuns s.dev = true) (hl : stageLate s.dev = false)
    (hs : bootStage s.dev < 7) (ho : (stageWork s.dev (bootStage s.dev) r).status ≠ 5) :
    Does (.stageEnd r) s (fun t =>
      t.mem = memApplyAll s.mem (stageWork s.dev (bootStage s.dev) r).ops ∧ bootStage t.dev = bootStage s.dev + 1 ∧
      bootStatus t.dev = 1 ∧ t.dev.boot.stageStart = (stageWork s.dev (bootStage s.dev) r).dev.boot.aonNs ∧
      bytesNat (smapGet t.dev.boot.pennants (bootStage s.dev) []) 1 1 =
        (stageWork s.dev (bootStage s.dev) r).status % 256) := by
  refine does_finish (exec_stageEnd_ends r hr hl fun h8 => by omega) ?_
  generalize stageWork s.dev (bootStage s.dev) r = o at ho ⊢
  generalize bootStage s.dev = stage at hs ⊢
  rw [endStage_next _ _ _ _ ho (by omega)]
  obtain ⟨b, hb, hclose⟩ := boot_closeStage s.dev stage 0 o
  obtain ⟨l, n, c, hstart⟩ := boot_startStage (closeStage s.dev stage 0 o) (stage + 1)
  refine ⟨rfl, ?_, ?_, ?_, ?_⟩
  · rw [after_dev, bootStage_startStage]
    omega
  · rw [after_dev, bootStatus_startStage, if_neg (by omega)]
  · rw [after_dev, hstart, hclose]
  · rw [after_dev, hstart, hclose]
    dsimp only
    rw [smapGet_smapSet_other _ _ _ _ _ (by omega), smapGet_smapSet_same, hb]

/-- A stage that fails stops bring-up. -/
theorem stageEnd_stops (r : StageResult) (s : State) (hr : stageRuns s.dev = true) (hl : stageLate s.dev = false)
    (hs : bootStage s.dev < 8) (ho : (stageWork s.dev (bootStage s.dev) r).status = 5) :
    Does (.stageEnd r) s (fun t =>
      t.mem = memApplyAll s.mem (stageWork s.dev (bootStage s.dev) r).ops ∧ bootStage t.dev = bootStage s.dev ∧
      bootStatus t.dev = 5 ∧ stageRuns t.dev = false) := by
  refine does_finish (exec_stageEnd_ends r hr hl fun h8 => by omega) ?_
  generalize stageWork s.dev (bootStage s.dev) r = o at ho ⊢
  have hstage := bootStage_lt s.dev
  generalize bootStage s.dev = stage at hstage ⊢
  rw [endStage_fail _ _ _ _ ho]
  have h5 : bootStatus (closeStage s.dev stage 0 o) = 5 := by rw [bootStatus_closeStage, ho]
  exact ⟨rfl, by rw [after_dev, bootStage_closeStage]; omega, h5, stageRuns_failed _ h5⟩

theorem stage0_fails_iff (d : Dev) (r : StageResult) : (stageWork d 0 r).status = 5 ↔ r.rails % 64 ≠ 63 := by
  simp only [stageWork, stage0, stageOut]
  split <;> simp_all

theorem stage3_fails_iff (d : Dev) (r : StageResult) : (stageWork d 3 r).status = 5 ↔ r.linksBad % 256 ≠ 0 := by
  simp only [stageWork, stage3, stageOut]
  by_cases h : r.linksBad % 256 = 0
  · rw [if_pos h]
    omega
  · rw [if_neg h]
    omega

theorem stage7_passes (d : Dev) (r : StageResult) : (stageWork d 7 r).status ≠ 5 := by
  show (stage7 d r).status ≠ 5
  unfold stage7 stageOut
  dsimp only
  exact passOr_ne _

/-- Stage 7 never fails: stage 8 follows, running or waiting. -/
theorem stageEnd_starts_join (r : StageResult) (s : State) (hr : stageRuns s.dev = true) (hl : stageLate s.dev = false)
    (hs : bootStage s.dev = 7) :
    Does (.stageEnd r) s (fun t => bootStage t.dev = 8 ∧ (bootStatus t.dev = 1 ∨ bootStatus t.dev = 2)) := by
  refine does_finish (exec_stageEnd_ends r hr hl fun h8 => by omega) ?_
  rw [hs, endStage_next _ _ _ _ (stage7_passes _ _) (by decide)]
  refine ⟨bootStage_startStage _ _, ?_⟩
  rw [after_dev, bootStatus_startStage]
  split
  · exact .inr rfl
  · exact .inl rfl

/-- Stage 8 goes on waiting for what it has not got. -/
theorem stageEnd_waits (r : StageResult) (s : State) (hr : stageRuns s.dev = true) (hs : bootStage s.dev = 8)
    (hj : joinReady s.dev r.numbers = false) :
    Does (.stageEnd r) s (fun t => OnlyRegs s t [0x800] ∧ bootStatus t.dev = 2) :=
  does_finish (exec_stageEnd_waits r hr hs hj)
    ⟨⟨rfl, fun off ho => regGet_putStatus _ _ _ _ fun he => ho (by simp [he]), rfl⟩, bootStatus_putStatus _ _ _⟩

/-- With all of it, stage 8 ends, and stage 9 at once after it: the device is ready. -/
theorem stageEnd_ready (r : StageResult) (s : State) (hr : stageRuns s.dev = true) (hs : bootStage s.dev = 8)
    (hj : joinReady s.dev r.numbers = true) :
    Does (.stageEnd r) s (fun t => t.mem = s.mem ∧ bootStage t.dev = 9 ∧ bootReady t.dev = true ∧
      (bootStatus t.dev = 3 ∨ bootStatus t.dev = 4)) := by
  refine does_finish (exec_stageEnd_ends r hr (stageLate_join hs) fun _ => hj) ?_
  have h5 : (stageWork s.dev 8 r).status ≠ 5 := by
    show (stage8 s.dev r).status ≠ 5
    unfold stage8 stageOut
    dsimp only
    exact passOr_ne _
  rw [hs, endStage_join _ _ _ h5]
  generalize startStage (closeStage s.dev 8 0 (stageWork s.dev 8 r)) 9 = d9
  refine ⟨rfl, bootStage_closeStage _ _ _ _, ?_, ?_⟩
  · rw [after_dev, bootReady_closeStage, bootReady_eq]
    show (regField (regPutField d9 0x800 7 1 1) 0x800 7 1 == 1) = true
    rw [regField_regPutField_same _ _ _ _ _ (by decide)]
    rfl
  · rw [after_dev, bootStatus_closeStage]
    have hp : (stage9 d9).status = passOr (absentCount d9 != 0) := rfl
    rcases passOr_cases (absentCount d9 != 0) with h | h
    · exact .inl (by rw [hp, h])
    · exact .inr (by rw [hp, h])

/-! ### Stages past their budget -/

/-- Any other late stage fails. -/
theorem endLate_fails (d : Dev) (h : bootStage d < 6) :
    (endLate d).2 = [] ∧ bootStage (endLate d).1 = bootStage d ∧ bootStatus (endLate d).1 = 5 := by
  have he : endLate d = endStage d (bootStage d) 1 (stageOut d 5 []) := by
    simp only [endLate, show bootStage d ≠ 6 by omega, show bootStage d ≠ 7 by omega, if_false]
  rw [he, endStage_fail _ _ _ _ rfl]
  exact ⟨rfl, (bootStage_closeStage _ _ _ _).trans (Nat.mod_eq_of_lt (bootStage_lt d)), bootStatus_closeStage _ _ _ _⟩

/-- The ports of the stage that are still training when it is late. -/
def latePorts (stage : Nat) : List Nat := if stage = 6 then rangeFrom 0 7 else rangeFrom 7 32

theorem mem_latePorts {stage q : Nat} (hq : q < 39) (h : q < 7 ↔ stage = 6) :
    q ∈ latePorts stage := by
  unfold latePorts
  split <;> rw [mem_rangeFrom] <;> omega

/-- Stages 6 and 7 go on without the ports that found no partner. -/
theorem endLate_eq (d : Dev) (h : bootStage d = 6 ∨ bootStage d = 7) : ∃ detail,
    endLate d = endStage d (bootStage d) 1 (stageOut (dropTraining d (latePorts (bootStage d))) 4 detail) := by
  rcases h with h | h
  · exact ⟨_, by simp only [endLate, latePorts, h, if_true]; rfl⟩
  · exact ⟨_, by simp only [endLate, latePorts, h, if_true, if_neg (by decide : ¬ (7 : Nat) = 6)]; rfl⟩

theorem endLate_goes_on (d : Dev) (h : bootStage d = 6 ∨ bootStage d = 7) :
    (endLate d).2 = [] ∧ bootStage (endLate d).1 = bootStage d + 1 ∧
      ∀ q, q < 39 → (q < 7 ↔ bootStage d = 6) →
        portSt (endLate d).1 q = if portSt d q = 1 then 0 else portSt d q := by
  obtain ⟨detail, he⟩ := endLate_eq d h
  rw [he, endStage_next _ _ _ _ (by decide : (4 : Nat) ≠ 5) (by omega)]
  refine ⟨rfl, ?_, fun q hq hqs => ?_⟩
  · rw [bootStage_startStage]
    omega
  · rw [portSt_startStage _ _ _ hq (by omega) (by omega), portSt_closeStage _ _ _ _ _ hq]
    show portSt (dropTraining d _) q = _
    rw [portSt_dropTraining]
    simp [mem_latePorts hq hqs]

theorem does_late (i : Instr) (s : State) (h : exec i s = finish s (endLate s.dev)) :
    (bootStage s.dev < 6 → Does i s (fun t => t.mem = s.mem ∧ bootStage t.dev = bootStage s.dev ∧ bootStatus t.dev = 5)) ∧
    (bootStage s.dev = 6 ∨ bootStage s.dev = 7 → Does i s (fun t => t.mem = s.mem ∧ bootStage t.dev = bootStage s.dev + 1 ∧
      ∀ q, q < 39 → (q < 7 ↔ bootStage s.dev = 6) →
        portSt t.dev q = if portSt s.dev q = 1 then 0 else portSt s.dev q)) := by
  refine ⟨fun hs => does_finish h ?_, fun hs => does_finish h ?_⟩
  · obtain ⟨hops, hrest⟩ := endLate_fails s.dev hs
    exact ⟨by rw [after_mem, hops]; rfl, hrest⟩
  · obtain ⟨hops, hrest⟩ := endLate_goes_on s.dev hs
    exact ⟨by rw [after_mem, hops]; rfl, hrest⟩

/-- A port that saw no partner while its stage's window ran is untrained. -/
theorem trainWindowExpiry_untrains (port : Nat) (s : State) (hp : port < 39) (ht : portSt s.dev port = 1)
    (hs : bootStage s.dev = (if port < 7 then 6 else 7)) (hr : stageRuns s.dev = true)
    (hw : (if port < 7 then regField s.dev 0x1000060 16 16 else regField s.dev 0x3000004 16 16) * 1000000 ≤
      s.dev.boot.aonNs - s.dev.boot.stageStart) :
    Does (.trainWindowExpiry port) s (fun t => OnlyRegs s t [portOff port] ∧ portSt t.dev port = 0) := by
  have he : exec (.trainWindowExpiry port) s = finish s (regPutField s.dev (portOff port) 0 3 0, []) := by
    show execTrainWindowExpiry port s = _
    unfold execTrainWindowExpiry
    dsimp only
    rw [if_pos ⟨hp, ht, hs, hr, hw⟩]
    rfl
  exact does_finish he ⟨⟨rfl, fun off ho => regGet_regPutField_other _ _ _ _ _ _ fun e => ho (by simp [e]), rfl⟩,
    portSt_regPutField_same _ _ _⟩

theorem trainWindowExpiry_idle (port : Nat) (s : State) (ht : portSt s.dev port ≠ 1) :
    Does (.trainWindowExpiry port) s (fun t => Unchanged s t) := by
  refine does_unchanged ?_
  show execTrainWindowExpiry port s = _
  simp [execTrainWindowExpiry, ht, finishDev]

/-- Settles O48, clause by clause. -/
theorem stagesRunInOrder : Obligations.StagesRunInOrder := by
  intro r port s
  refine ⟨fun hr => ⟨does_unchanged (exec_stageEnd_stopped r hr), does_unchanged (exec_stageTimeout_early (.inl hr))⟩,
    fun hr => ⟨fun hl hs ho => stageEnd_starts_next r s hr hl hs ho, fun hl hs ho => stageEnd_stops r s hr hl hs ho,
      fun hs => ?_, fun hs => ?_, fun hs => ?_, fun hs hl => stageEnd_starts_join r s hr hl hs,
      fun hs hj => stageEnd_waits r s hr hs hj, fun hs hj => stageEnd_ready r s hr hs hj, fun ms hb => ⟨fun hlate i hi => ?_,
        fun hearly => ?_⟩,
      fun hp ht hs hw => trainWindowExpiry_untrains port s hp ht hs hr hw⟩, fun ht => trainWindowExpiry_idle port s ht⟩
  · rw [hs]
    exact stage0_fails_iff s.dev r
  · rw [hs]
    exact stage3_fails_iff s.dev r
  · rw [hs]
    exact stage7_passes s.dev r
  · have hl : stageLate s.dev = true := by rw [stageLate_eq hb]; exact decide_eq_true hlate
    simp only [List.mem_cons, List.not_mem_nil, or_false] at hi
    rcases hi with rfl | rfl
    · exact does_late _ s (exec_stageTimeout_late hr hl)
    · exact does_late _ s (exec_stageEnd_late r hr hl)
  · have hl : stageLate s.dev = false := by rw [stageLate_eq hb]; exact decide_eq_false (by omega)
    exact does_unchanged (exec_stageTimeout_early (.inr hl))

end Sys2Proof.Machine
end

section
/-! SUPPORT. The owner's register writes: the path of a write to the word it reaches, and what changes register words alone
(R6, R10, R29, R30, R499). -/

namespace Sys2Proof.Machine

/-! ### Words of registers that change alone -/

/-- Device `t` is `a` but for register words at the listed offsets. -/
def OnlyWords (a t : Dev) (offs : List Nat) : Prop :=
  (∀ off, off ∉ offs → regGet t off = regGet a off) ∧ t = { a with regs := t.regs }

theorem onlyWords_refl (a : Dev) (offs : List Nat) : OnlyWords a a offs := ⟨fun _ _ => rfl, rfl⟩

theorem onlyWords_regPut (d : Dev) (off : Nat) (v : W32) (offs : List Nat) (h : off ∈ offs) : OnlyWords d (regPut d off v) offs :=
  ⟨fun j hj => regGet_regPut_other d off j v (fun e => hj (e ▸ h)), rfl⟩

theorem onlyWords_regPutNat (d : Dev) (off v : Nat) (offs : List Nat) (h : off ∈ offs) : OnlyWords d (regPutNat d off v) offs :=
  onlyWords_regPut d off _ offs h

theorem onlyWords_regPutField (d : Dev) (off lo w v : Nat) (offs : List Nat) (h : off ∈ offs) :
    OnlyWords d (regPutField d off lo w v) offs := onlyWords_regPut d off _ offs h

theorem OnlyWords.trans {a b c : Dev} {offs : List Nat} (h : OnlyWords a b offs) (g : OnlyWords b c offs) : OnlyWords a c offs :=
  ⟨fun off ho => (g.1 off ho).trans (h.1 off ho), g.2.trans (congrArg (fun x : Dev => { x with regs := c.regs }) h.2)⟩

/-- Such a change of the device, as the whole effect of a command. -/
theorem OnlyWords.onlyRegs {s : State} {t : Dev} {offs : List Nat} (h : OnlyWords s.dev t offs) : OnlyRegs s (after s (t, [])) offs :=
  ⟨rfl, h.1, (congrArg (fun x : Dev => { x with regs := s.dev.regs }) h.2 :)⟩

/-! ### The path of a write -/

/-- The owner's write to the part of BAR0 that R500 exempts from nothing reaches its words. -/
theorem masterWrite_owner {s : State} {m : Nat} (off width v : Nat) (ho : OwnerOn s m) (hg : accessGood off width = true)
    (hx : 0x200000 ≤ off ∧ off < 0x3C04000) :
    masterWrite m off width v s = finish s (wOut (ownerWrite (workOf s) m off width v)) := by
  obtain ⟨hown, hreach⟩ := ho
  have hm : 1 ≤ m ∧ m ≤ 4 := by rcases hreach with ⟨h, -⟩ | ⟨h2, h4, -⟩ <;> omega
  have hex : exemptWrite s.dev m off width v = none := by
    unfold exemptWrite
    dsimp only
    rw [if_neg (by omega), if_neg (by omega), if_neg (by omega), if_neg (by omega), if_neg (by omega), if_neg (by omega)]
  have hbus : (busWrite (workOf s) m off width v).1 = ownerWrite (workOf s) m off width v := by
    have hid : (off == 0x10) = false := by simp; omega
    simp only [busWrite, workOf, hex, hown, hid, Bool.not_true, Bool.false_and, Bool.or_self, Bool.false_eq_true, if_false]
  unfold masterWrite masterPut
  rcases hreach with ⟨h1, ht⟩ | ⟨h2, h4, ha⟩
  · have ht' : hostTakes (workOf s).dev = 0 := ht
    rw [if_pos h1, ht', if_pos hg, hbus]
    rfl
  · rw [if_neg (by omega), if_pos ⟨h2, h4, ha, hg⟩, hbus]

/-- A 32-bit write of the owner, as the effect of a command. -/
theorem does_ownerWord {i : Instr} {s : State} {m off v : Nat} {P : State → Prop} (ho : OwnerOn s m)
    (hi : exec i s = masterWrite m off 4 v s) (h4 : off % 4 = 0) (hx : 0x200000 ≤ off ∧ off < 0x3C04000)
    (hP : P (after s (wOut (wordWrite (workOf s) m off (v % 2 ^ 32))))) : Does i s P := by
  have hg : accessGood off 4 = true := by
    simp [accessGood, h4]
    omega
  refine does_finish (hi.trans (masterWrite_owner off 4 v ho hg hx)) ?_
  rwa [ownerWrite, if_pos (by decide)]

/-! ### The words of a core's block (R29) -/

theorem coreOff_bounds {n o : Nat} (hn : n < 256) (ho : o < 0x1000) : 0x400000 ≤ coreOff n o ∧ coreOff n o < 0x500000 := by
  unfold coreOff coreBase; omega

theorem coreOff_ne {n o p : Nat} (h : o ≠ p) : coreOff n o ≠ coreOff n p := by unfold coreOff; omega

theorem wordWrite_core (w : Work) (m n o v : Nat) (hn : n < 256) (ho : o < 0x1000) :
    wordWrite w m (coreOff n o) v = wDev w (fun d => coreWordWrite d n o v) := by
  have hb := coreOff_bounds hn ho
  have hin : inCoreBlock (coreOff n o) = true := decide_eq_true (by unfold coreBase coreEnd; omega)
  have hdiv : (coreOff n o - coreBase) / 0x1000 = n := by unfold coreOff; omega
  have hmod : (coreOff n o - coreBase) % 0x1000 = o := by unfold coreOff; omega
  rw [wordWrite, if_pos hin, hdiv, hmod]

/-- The owner's write of a word of a core's block, as the effect of a command. -/
theorem does_coreWord {i : Instr} {s : State} {m n o v : Nat} {P : State → Prop} (ho : OwnerOn s m)
    (hi : exec i s = masterWrite m (coreOff n o) 4 v s) (h4 : o % 4 = 0) (hn : n < 256) (ho' : o < 0x1000)
    (hP : P (after s (coreWordWrite s.dev n o (v % 2 ^ 32), []))) : Does i s P := by
  have hb := coreOff_bounds hn ho'
  refine does_ownerWord ho hi (by unfold coreOff coreBase; omega) (by omega) ?_
  rw [wordWrite_core _ _ _ _ _ hn ho']
  exact hP

/-- The owner's write of a word that the device takes as a whole, as the effect of a command. -/
theorem does_devWord {i : Instr} {s : State} {m off v : Nat} {P : State → Prop} (g : Dev → Dev) (ho : OwnerOn s m)
    (hi : exec i s = masterWrite m off 4 v s) (h4 : off % 4 = 0) (hx : 0x200000 ≤ off ∧ off < 0x3C04000)
    (hw : wordWrite (workOf s) m off (v % 2 ^ 32) = wDev (workOf s) g) (hP : P (after s (g s.dev, []))) : Does i s P := by
  refine does_ownerWord ho hi h4 hx ?_
  rw [hw]
  exact hP

end Sys2Proof.Machine
end

section
/-! SUPPORT. Clip limits and counters, and the flags of NUM_STATUS (R58 to R61). -/

namespace Sys2Proof.Machine

theorem onlyWords_setWiden (d : Dev) (n b : Nat) (offs : List Nat) (h : coreOff n 0x304 ∈ offs) :
    OnlyWords d (setWiden d n b) offs := by
  unfold setWiden
  dsimp only
  split
  · exact onlyWords_refl d offs
  · exact (onlyWords_regPutField _ _ _ _ _ _ h).trans (onlyWords_regPutField _ _ _ _ _ _ h)

theorem regGet_setWiden (d : Dev) (n b off : Nat) (h : off ≠ coreOff n 0x304) : regGet (setWiden d n b) off = regGet d off :=
  (onlyWords_setWiden d n b [coreOff n 0x304] (by simp)).1 off (by simpa using h)

theorem regBit_setWiden (d : Dev) (n b : Nat) : regBit (setWiden d n b) (coreOff n 0x304) 0 = true := by
  unfold setWiden
  dsimp only
  split
  · rename_i h
    rwa [regBit_eq, ← natBit_eq_testBit]
  · rw [regBit_regPutField _ _ _ _ _ _ (by decide), if_neg (by decide), regBit_regPutField _ _ _ _ _ _ (by decide),
      if_pos (by decide)]
    rfl

/-- WIDEN set on a condition. -/
theorem regBit_setWiden_if (d : Dev) (n b : Nat) (c : Bool) :
    regBit (if c then setWiden d n b else d) (coreOff n 0x304) 0 = (regBit d (coreOff n 0x304) 0 || c) := by
  cases c
  · simp
  · simp only [if_true, Bool.or_true, regBit_setWiden]

theorem clipGet_regPutNat (d : Dev) (n b o v : Nat) (h : o ≠ 0x380 + 4 * b) :
    clipGet (regPutNat d (coreOff n o) v) n b = clipGet d n b :=
  regNat_regPutNat_other _ _ _ _ (coreOff_ne h.symm)

/-! ### CLIP_LIMIT -/

/-- CLIP_LIMIT written, and WIDEN set where some counter is above it. -/
theorem clipLimitSet_eq (d : Dev) (n v : Nat) : ∃ b, clipLimitSet d n v =
    if (rangeFrom 0 32).any (fun b => clipOver (regPutNat d (coreOff n 0x300) v) n b)
      then setWiden (regPutNat d (coreOff n 0x300) v) n b else regPutNat d (coreOff n 0x300) v := by
  unfold clipLimitSet
  dsimp only
  split
  · rename_i b hb
    have hany : (rangeFrom 0 32).any (fun b => clipOver (regPutNat d (coreOff n 0x300) v) n b) = true :=
      List.any_eq_true.2 ⟨b, List.mem_of_find?_eq_some hb, by simpa using List.find?_some hb⟩
    exact ⟨b, by rw [if_pos hany]⟩
  · rename_i hb
    have hany : ¬ (rangeFrom 0 32).any (fun b => clipOver (regPutNat d (coreOff n 0x300) v) n b) = true := by
      rw [List.any_eq_true]
      rintro ⟨b, hmem, hov⟩
      exact List.find?_eq_none.1 hb b hmem hov
    exact ⟨0, by rw [if_neg hany]⟩

theorem clipOver_limit (d : Dev) (n v b : Nat) (hv : v < 2 ^ 32) :
    clipOver (regPutNat d (coreOff n 0x300) v) n b = decide (v < clipGet d n b) := by
  rw [clipOver, clipGet_regPutNat _ _ _ _ _ (by omega), regNat_regPutNat_same, Nat.mod_eq_of_lt hv]

theorem rangeFrom_zero (k : Nat) : rangeFrom 0 k = List.range k := by
  have h : ∀ lo, rangeFrom lo k = List.range' lo k := by
    induction k with
    | zero => intro lo; rfl
    | succ k ih => intro lo; simp [rangeFrom, List.range'_succ, ih]
  rw [h, List.range_eq_range']

theorem onlyWords_clipLimitSet (d : Dev) (n v : Nat) :
    OnlyWords d (clipLimitSet d n v) [coreOff n 0x300, coreOff n 0x304] := by
  obtain ⟨b, he⟩ := clipLimitSet_eq d n v
  rw [he]
  have hput := onlyWords_regPutNat d (coreOff n 0x300) v [coreOff n 0x300, coreOff n 0x304] (by simp)
  split
  · exact hput.trans (onlyWords_setWiden _ _ _ _ (by simp))
  · exact hput

theorem regNat_clipLimitSet (d : Dev) (n v : Nat) : regNat (clipLimitSet d n v) (coreOff n 0x300) = v % 2 ^ 32 := by
  obtain ⟨b, he⟩ := clipLimitSet_eq d n v
  rw [he]
  split
  · rw [regNat_congr (regGet_setWiden _ _ _ _ (coreOff_ne (by decide))), regNat_regPutNat_same]
  · exact regNat_regPutNat_same _ _ _

theorem regBit_regPutNat_other (d : Dev) (off j v i : Nat) (h : j ≠ off) : regBit (regPutNat d off v) j i = regBit d j i := by
  rw [regBit_eq, regBit_eq, regNat_regPutNat_other _ _ _ _ h]

/-- WIDEN after a write of CLIP_LIMIT: as it was, or some counter is above the limit. -/
theorem regBit_clipLimitSet (d : Dev) (n v : Nat) (hv : v < 2 ^ 32) :
    regBit (clipLimitSet d n v) (coreOff n 0x304) 0 =
      (regBit d (coreOff n 0x304) 0 || (List.range 32).any (fun j => decide (v < clipGet d n j))) := by
  obtain ⟨b, he⟩ := clipLimitSet_eq d n v
  rw [he, regBit_setWiden_if, regBit_regPutNat_other _ _ _ _ _ (coreOff_ne (by decide)), rangeFrom_zero]
  simp only [clipOver_limit _ _ _ _ hv]

/-! ### The clip counters -/

theorem onlyWords_clipSet (d : Dev) (n b v : Nat) :
    OnlyWords d (clipSet d n b v) [coreOff n (0x380 + 4 * b), coreOff n 0x304] := by
  have hput := onlyWords_regPutNat d (coreOff n (0x380 + 4 * b)) v [coreOff n (0x380 + 4 * b), coreOff n 0x304] (by simp)
  unfold clipSet
  dsimp only
  split
  · exact hput.trans (onlyWords_setWiden _ _ _ _ (by simp))
  · exact hput

theorem clipGet_clipSet (d : Dev) (n b v : Nat) : clipGet (clipSet d n b v) n b = v % 2 ^ 32 := by
  unfold clipSet
  dsimp only
  split
  · rw [clipGet, regNat_congr (regGet_setWiden _ _ _ _ (coreOff_ne (by omega))), regNat_regPutNat_same]
  · exact regNat_regPutNat_same _ _ _

/-- WIDEN after a write of a clip counter: as it was, or the counter is above CLIP_LIMIT. -/
theorem regBit_clipSet (d : Dev) (n b v : Nat) (hv : v < 2 ^ 32) :
    regBit (clipSet d n b v) (coreOff n 0x304) 0 =
      (regBit d (coreOff n 0x304) 0 || decide (regNat d (coreOff n 0x300) < v)) := by
  unfold clipSet
  dsimp only
  rw [regBit_setWiden_if, regBit_regPutNat_other _ _ _ _ _ (coreOff_ne (by omega)), clipOver, clipGet, regNat_regPutNat_same,
    regNat_regPutNat_other _ _ _ _ (coreOff_ne (by omega)), Nat.mod_eq_of_lt hv]

/-! ### NUM_STATUS -/

/-- Numbers without a common bit add without a carry. -/
theorem add_eq_or_of_disjoint (a b : Nat) (h : a &&& b = 0) : a + b = a ||| b := by
  have hlt : a + b < 2 ^ (a + b) := Nat.lt_two_pow_self
  have hor : (BitVec.ofNat (a + b) a + BitVec.ofNat (a + b) b) = BitVec.ofNat (a + b) a ||| BitVec.ofNat (a + b) b := by
    refine BitVec.add_eq_or_of_and_eq_zero _ _ (BitVec.eq_of_toNat_eq ?_)
    rw [BitVec.toNat_and, BitVec.toNat_ofNat, BitVec.toNat_ofNat, Nat.mod_eq_of_lt (by omega), Nat.mod_eq_of_lt (by omega), h]
    simp
  have hn := congrArg BitVec.toNat hor
  rwa [BitVec.toNat_add, BitVec.toNat_or, BitVec.toNat_ofNat, BitVec.toNat_ofNat, Nat.mod_eq_of_lt (by omega : a < 2 ^ (a + b)),
    Nat.mod_eq_of_lt (by omega : b < 2 ^ (a + b)), Nat.mod_eq_of_lt hlt] at hn

/-- A number less those of its bits that a mask names. -/
theorem testBit_sub_and (x mask i : Nat) : (x - (x &&& mask)).testBit i = (x.testBit i && !mask.testBit i) := by
  have hx : x = (x &&& mask) ||| (x ^^^ (x &&& mask)) := by
    apply Nat.eq_of_testBit_eq
    intro j
    simp only [Nat.testBit_or, Nat.testBit_xor, Nat.testBit_and]
    cases x.testBit j <;> cases mask.testBit j <;> rfl
  have hdisj : (x &&& mask) &&& (x ^^^ (x &&& mask)) = 0 := by
    apply Nat.eq_of_testBit_eq
    intro j
    simp only [Nat.testBit_xor, Nat.testBit_and, Nat.zero_testBit]
    cases x.testBit j <;> cases mask.testBit j <;> rfl
  have hadd := add_eq_or_of_disjoint _ _ hdisj
  have hsub : x - (x &&& mask) = x ^^^ (x &&& mask) := by omega
  rw [hsub, Nat.testBit_xor, Nat.testBit_and]
  cases x.testBit i <;> cases mask.testBit i <;> rfl

theorem onlyWords_clearNumStatus (d : Dev) (n mask : Nat) : OnlyWords d (clearNumStatus d n mask) [coreOff n 0x304] :=
  onlyWords_regPutNat _ _ _ _ (by simp)

theorem regBit_clearNumStatus (d : Dev) (n mask i : Nat) (hi : i < 4) :
    regBit (clearNumStatus d n mask) (coreOff n 0x304) i = (regBit d (coreOff n 0x304) i && !natBit mask i) := by
  have hmask : ∀ x : Nat, (x - (x &&& mask % 16)).testBit i = (x.testBit i && !natBit mask i) := by
    intro x
    rw [testBit_sub_and, show (16 : Nat) = 2 ^ 4 from rfl, Nat.testBit_mod_two_pow, natBit_eq_testBit]
    simp [hi]
  unfold clearNumStatus
  dsimp only
  rw [regBit_eq, regNat_regPutNat_same, Nat.testBit_mod_two_pow, regBit_eq]
  split
  · rw [testBit_natPut, if_neg (by omega), hmask]
    simp [show i < 32 by omega]
  · rw [hmask]
    simp [show i < 32 by omega]

/-- Clearing WIDEN clears FIRST_BANK (R59). -/
theorem firstBank_clearNumStatus (d : Dev) (n mask : Nat) (h : natBit mask 0 = true) :
    regField (clearNumStatus d n mask) (coreOff n 0x304) 8 5 = 0 := by
  unfold clearNumStatus
  dsimp only
  rw [regField_eq, regNat_regPutNat_same, natBits_mod _ _ _ _ (by decide), if_pos h]
  exact natBits_natPut_same _ _ _ _

end Sys2Proof.Machine
end

section
/-! SUPPORT. The beat grid's configuration, root and parent, and the results of a validation (R253, R257 to R259, R265, R378, R382). -/

namespace Sys2Proof.Machine

/-! ### Root and parent (R253) -/

/-- A device that offers itself, with no lower root among the offers, is its own root. -/
theorem winningRoot_self (d : Dev) (he : rootEnable d = true) (h : ∀ o ∈ rootOffers d, ownNode d ≤ o.2.1) :
    winningRoot d = some (ownNode d) := by
  unfold winningRoot
  simp only [he, if_true, List.cons_append, List.nil_append, List.foldl_cons]
  generalize rootOffers d = l at h
  induction l with
  | nil => rfl
  | cons o t ih =>
    simp only [List.map_cons, List.foldl_cons, Nat.min_eq_left (h o (by simp))]
    exact ih fun q hq => h q (by simp [hq])

theorem chooseRoot_self (d : Dev) (he : rootEnable d = true) (h : ∀ o ∈ rootOffers d, ownNode d ≤ o.2.1) :
    chooseRoot d = { d with tm := { d.tm with
      root := true, rootNode := ownNode d, depth := 0, parent := 63, st := 2, setDue := false, fromHoldover := false
      offset := 0, slew := 0 } } := by
  simp [chooseRoot, winningRoot_self d he h, he]

/-- Without an offer a device that does not offer itself follows none. -/
theorem chooseRoot_none (d : Dev) (he : rootEnable d = false) (h : rootOffers d = []) : chooseRoot d = followNone d := by
  simp [chooseRoot, winningRoot, he, h]

/-- A withdrawn root becomes FREE (R257). -/
theorem followNone_root (d : Dev) (h : d.tm.root = true) : (followNone d).tm.st = 0 := by simp [followNone, h]

/-- What a device hears does not depend on TIME_CTL. -/
theorem rootOffers_timeCtl (d : Dev) (v : Nat) : rootOffers (regPutField d 0x200020 0 1 v) = rootOffers d := by
  have hown : ownNode (regPutField d 0x200020 0 1 v) = ownNode d := regField_congr (regGet_regPutField_other _ _ _ _ _ _ (by decide)) 0 16
  have hup : upPorts (regPutField d 0x200020 0 1 v) = upPorts d := by
    refine List.filter_congr fun p _ => ?_
    rw [portSt_congr (regGet_regPutField_other _ _ _ _ _ _ (by unfold portOff; omega))]
  unfold rootOffers
  rw [hup, hown]
  rfl

theorem ownNode_timeCtl (d : Dev) (v : Nat) : ownNode (regPutField d 0x200020 0 1 v) = ownNode d :=
  regField_congr (regGet_regPutField_other _ _ _ _ _ _ (by decide)) 0 16

theorem rootEnable_timeCtl (d : Dev) (v : Nat) : rootEnable (regPutField d 0x200020 0 1 v) = natBit v 0 := by
  have h : natBits (natPut (regNat d 0x200020) 0 1 v) 0 1 = v % 2 ^ 1 := natBits_natPut_same _ _ _ _
  rw [rootEnable, regNat_regPutField_same, natBit_mod _ _ _ (by decide), natBit, h]
  simp [natBit, natBits]

/-! ### The beat grid (R259, R265) -/

theorem anyLive_congr {a b : Dev} (hc : b.cores = a.cores) (hb : b.boot = a.boot) : anyLive b = anyLive a := by
  have hcore : ∀ n, coreOf b n = coreOf a n := fun n => by rw [coreOf, coreOf, hc]
  simp only [anyLive, coresTotal, coresPerDie, hb, hcore]

/-- A beat configuration write that is accepted: its word, and the differences seen are forgotten where the check changes. -/
theorem beatCfgWrite_accepted (d : Dev) (off v : Nat) (hl : anyLive d = false) (ho : off ≠ 0x200118)
    (h1 : off = 0x200110 → beatRanges v (beatMin d) = true) (h2 : off = 0x200114 → beatRanges (beatLen d) v = true) :
    ∃ seen, beatCfgWrite d off v = { regPutNat d off v with tm := { d.tm with mismatch := seen } } := by
  have hok : (if off = 0x200110 then beatRanges v (beatMin d) else if off = 0x200114 then beatRanges (beatLen d) v else true) =
      true := by
    split
    · exact h1 ‹_›
    · split
      · exact h2 ‹_›
      · rfl
  unfold beatCfgWrite
  simp only [hok, hl, Bool.not_true, Bool.or_self, Bool.false_eq_true, if_false, if_neg ho]
  split
  · exact ⟨d.tm.mismatch, rfl⟩
  · exact ⟨[], rfl⟩

theorem beatCfgWrite_rejected (d : Dev) (off v : Nat) (h : anyLive d = true ∨ (off = 0x200110 ∧ beatRanges v (beatMin d) = false)) :
    beatCfgWrite d off v = beatReject d := by
  unfold beatCfgWrite
  rcases h with h | ⟨rfl, h⟩ <;> simp [h]

/-- A rejected write marks CFG_REJECT and is recorded. -/
theorem reports_beatReject (d : Dev) : Reports (regPutField d 0x200120 0 1 1) (beatReject d) := reports_postRecord _ _

theorem regNat_beatReject (d : Dev) (off : Nat) (h : off ≠ 0x200120) (hr : off ∉ reportOffs) : regNat (beatReject d) off = regNat d off :=
  ((reports_beatReject d).regNat_eq hr).trans (regNat_congr (regGet_regPutField_other _ _ _ _ _ _ h))

theorem regBit_beatReject (d : Dev) : regBit (beatReject d) 0x200120 0 = true := by
  rw [regBit_eq, (reports_beatReject d).regNat_eq (by decide), ← regBit_eq, regBit_regPutField _ _ _ _ _ _ (by decide)]
  rfl

/-- A rejected write leaves the grid as it was. -/
theorem beatReject_grid (d : Dev) : beatT0 (beatReject d) = beatT0 d ∧ beatLen (beatReject d) = beatLen d ∧
    beatMin (beatReject d) = beatMin d ∧ regBit (beatReject d) 0x200120 0 = true := by
  refine ⟨?_, regNat_beatReject d _ (by decide) (by decide), regNat_beatReject d _ (by decide) (by decide), regBit_beatReject d⟩
  simp only [beatT0, regNat64, regNat_beatReject d 0x200108 (by decide) (by decide),
    regNat_beatReject d (0x200108 + 4) (by decide) (by decide)]

/-- A core takes BEAT_CTL at once where it has no started context. -/
def coreEnabled (b : Bool) (k : Core) : Core :=
  if (List.range 8).any (fun c => ctxLive (ctxOf k c)) then k else { k with beat := { k.beat with enabled := b } }

theorem coreEnabled_twice (b : Bool) (k : Core) : coreEnabled b (coreEnabled b k) = coreEnabled b k := by
  by_cases h : (List.range 8).any (fun c => ctxLive (ctxOf k c)) = true
  · simp [coreEnabled, h]
  · have h' : ¬ (List.range 8).any (fun c => ctxLive (ctxOf { k with beat := { k.beat with enabled := b } } c)) = true := h
    simp only [coreEnabled, if_neg h, if_neg h']

/-- One core takes BEAT_CTL. -/
def enableCore (e : Dev) (n : Nat) : Dev :=
  if (rangeFrom 0 8).any (fun c => ctxLive (ctxOf (coreOf e n) c)) then e
  else modCore e n (fun k => { k with beat := { k.beat with enabled := beatEnable e } })

theorem beatCtlWrite_eq (d : Dev) (v : Nat) :
    beatCtlWrite d v = (rangeFrom 0 (coresTotal (beatEnableWrite d v))).foldl enableCore (beatEnableWrite d v) := rfl

theorem enableCore_regs (e : Dev) (n : Nat) : (enableCore e n).regs = e.regs := by unfold enableCore; split <;> rfl

theorem coreOf_enableCore (e : Dev) (n m : Nat) :
    coreOf (enableCore e n) m = if m = n then coreEnabled (beatEnable e) (coreOf e m) else coreOf e m := by
  unfold enableCore coreEnabled
  rw [rangeFrom_zero]
  by_cases hm : m = n
  · subst hm
    split <;> simp_all
  · rw [if_neg hm]
    split
    · rfl
    · exact coreOf_modCore_other _ _ _ _ hm

theorem coreOf_enableCores (d : Dev) (l : List Nat) (n : Nat) :
    coreOf (l.foldl enableCore d) n = if n ∈ l then coreEnabled (beatEnable d) (coreOf d n) else coreOf d n := by
  induction l generalizing d with
  | nil => simp
  | cons x t ih =>
    have hen : beatEnable (enableCore d x) = beatEnable d := by simp only [beatEnable, regNat, regGet, enableCore_regs]
    rw [List.foldl_cons, ih, hen, coreOf_enableCore]
    by_cases hx : n = x
    · subst hx
      by_cases ht : n ∈ t <;> simp [ht, coreEnabled_twice]
    · simp [hx]

theorem enableCores_regs (d : Dev) (l : List Nat) : (l.foldl enableCore d).regs = d.regs :=
  foldl_keeps Dev.regs _ _ d fun e n _ => enableCore_regs e n

theorem natBit_natPut_low (x v : Nat) : natBit (natPut x 0 1 v) 0 = natBit v 0 := by
  rw [natBit_eq_testBit, testBit_natPut, if_pos (by decide), natBit_eq_testBit]

/-- BEAT_CTL.ENABLE written: its word, the differences seen, and nothing else. -/
theorem beatEnableWrite_spec (d : Dev) (v : Nat) : beatEnable (beatEnableWrite d v) = natBit v 0 ∧
    (beatEnableWrite d v).cores = d.cores ∧ (beatEnableWrite d v).boot = d.boot ∧
    ∀ off, off ≠ 0x200100 → regGet (beatEnableWrite d v) off = regGet d off := by
  unfold beatEnableWrite
  split
  · exact ⟨‹_›, rfl, rfl, fun _ _ => rfl⟩
  · refine ⟨?_, rfl, rfl, fun off ho => regGet_regPutField_other _ _ _ _ _ _ ho⟩
    show natBit (regNat (regPutField d 0x200100 0 1 v) 0x200100) 0 = _
    rw [regNat_regPutField_same, natBit_mod _ _ _ (by decide), natBit_natPut_low]

/-! ### Validation (R378, R382, R585) -/

@[simp] theorem smapFind_smapSet_same {α : Type} (m : SMap α) (k : Nat) (v : α) : smapFind (smapSet m k v) k = some v := by
  induction m with
  | nil => simp [smapSet, smapFind]
  | cons e t ih =>
    obtain ⟨k', v'⟩ := e
    unfold smapSet
    split
    · simp [smapFind]
    · split
      · simp [smapFind]
      · rename_i h
        simp [smapFind, Ne.symm h, ih]

theorem smapFind_smapDrop_same {α : Type} (m : SMap α) (k : Nat) : smapFind (smapDrop m (fun x => x == k)) k = none := by
  unfold smapDrop
  induction m with
  | nil => rfl
  | cons e t ih =>
    obtain ⟨k', v'⟩ := e
    by_cases h : k' = k
    · simp [h, ih]
    · simp [h, smapFind, ih]

/-- CFG_RESULT takes the code; a rejection is recorded. -/
theorem reports_cfgResult (d : Dev) (ev code num : Nat) : Reports (regPutField d 0x1200068 0 8 code) (cfgResult d ev code num) := by
  unfold cfgResult
  dsimp only
  split
  · exact reports_refl _
  · exact reports_postRecord _ _

theorem cfgResult_ok (d : Dev) (ev num : Nat) : cfgResult d ev 0 num = regPutField d 0x1200068 0 8 0 := rfl

theorem cfgResult_code (d : Dev) (ev code num : Nat) : regField (cfgResult d ev code num) 0x1200068 0 8 = code % 256 := by
  rw [regField_congr ((reports_cfgResult d ev code num).regGet_eq (by decide))]
  exact regField_regPutField_same _ _ _ _ _ (by decide)

theorem cfgResult_upd (d : Dev) (ev code num : Nat) : (cfgResult d ev code num).upd = d.upd := (reports_cfgResult d ev code num).upd_eq

/-- The shards in force that use program `p`. -/
def progUsers (d : Dev) (p : Nat) : List Nat :=
  (d.upd.shards.filter (fun e => shKind e.2 != 2 && shProg e.2 == p)).map (fun e => e.1)

theorem progUsers_nil (d : Dev) (p : Nat) (h : ∀ e ∈ d.upd.shards, shKind e.2 = 2 ∨ shProg e.2 ≠ p) : progUsers d p = [] := by
  unfold progUsers
  rw [List.filter_eq_nil_iff.2, List.map_nil]
  intro e he
  rcases h e he with h | h <;> simp [h]

theorem progValidate_busy (d : Dev) (p : Nat) (hl : anyLive d = true)
    (h : ∃ e ∈ d.upd.shards, shKind e.2 ≠ 2 ∧ shProg e.2 = p) : progValidate d p = cfgResult d 0x0C20 8 p := by
  obtain ⟨e, he, hk, hp⟩ := h
  have hne : progUsers d p ≠ [] := by
    unfold progUsers
    rw [Ne, List.map_eq_nil_iff, List.filter_eq_nil_iff]
    exact fun hn => hn e he (by simp [hk, hp])
  have hu : (!(progUsers d p).isEmpty && anyLive d) = true := by simp [hl, hne]
  show (if (!(progUsers d p).isEmpty && anyLive d) = true then _ else _) = _
  rw [if_pos hu]

theorem progValidate_free (d : Dev) (p : Nat) (h : progUsers d p = []) : progValidate d p =
    if progCode (storeImage d p) = 0 then
      cfgResult { d with upd := { d.upd with progs := smapSet d.upd.progs p (storeImage d p) } } 0x0C20 0 p
    else cfgResult { d with upd := { d.upd with progs := smapDrop d.upd.progs (fun k => k == p) } } 0x0C20
      (progCode (storeImage d p)) p := by
  show (if (!(progUsers d p).isEmpty && anyLive d) = true then _ else
    if progCode (storeImage d p) = 0 then _ else
      cfgResult ((progUsers d p).foldl shardDrop _) 0x0C20 (progCode (storeImage d p)) p) = _
  rw [h, if_neg (by simp)]
  rfl

theorem slotsOpen_upd (d : Dev) (t : Nat) (x : Shard) : (slotsOpen d t x).upd = d.upd := by
  unfold slotsOpen
  split
  · rfl
  · exact foldl_keeps Dev.upd _ _ d fun _ _ _ => rfl

theorem shardValidate_accepted (d : Dev) (t : Nat) (hk : shKind (shardNew (storeEntry d t)) ≠ 0)
    (hc : entryCode d t (shardNew (storeEntry d t)) = 0) :
    regField (shardValidate d t) 0x1200068 0 8 = 0 ∧
      smapFind (shardValidate d t).upd.shards t = some (shardNew (storeEntry d t)) := by
  unfold shardValidate
  simp only [if_neg hk, hc, if_true]
  refine ⟨cfgResult_code _ _ _ _, ?_⟩
  rw [cfgResult_upd, slotsOpen_upd]
  exact smapFind_smapSet_same _ _ _

theorem shardValidate_rejected (d : Dev) (t : Nat) (hk : shKind (shardNew (storeEntry d t)) ≠ 0)
    (hc : entryCode d t (shardNew (storeEntry d t)) ≠ 0) :
    shardValidate d t = cfgResult d 0x0C21 (entryCode d t (shardNew (storeEntry d t))) t := by
  unfold shardValidate
  simp only [if_neg hk, if_neg hc]

end Sys2Proof.Machine
end

section
/-! SUPPORT. What memory operations leave alone, and the bands that change view (R26). -/

namespace Sys2Proof.Machine

/-- A memory operation that leaves the byte at key `k` alone. -/
def opSpares (k : Nat) (op : MemOp) : Prop :=
  match op with
  | .wr a _ => k ≠ a
  | .undef r => inUndef r k = false
  | _ => True

theorem memByte_undef_other (m : Mem) (r : UndefRange) (k : Nat) (h : inUndef r k = false) :
    memByte (memApply m (.undef r)) k = memByte m k := by
  have hd : memDefault (r :: m.undef) k = memDefault m.undef k := by simp [memDefault, undefAt, h]
  show smapGet (smapDrop m.cells (inUndef r)) k (memDefault (r :: m.undef) k) = _
  rw [hd, smapGet_smapDrop, h]
  rfl

theorem memByte_memApply_spared (m : Mem) (op : MemOp) (k : Nat) (h : opSpares k op) : memByte (memApply m op) k = memByte m k := by
  cases op with
  | wr a b => exact memByte_wr_other m a k b h
  | poison u => exact memByte_poison m u k
  | unpoison u t => exact memByte_unpoison m u t k
  | undef r => exact memByte_undef_other m r k h
  | flaw u l => exact memByte_setFlaws m u k l

/-- Operations that leave a byte alone one by one leave it alone together. -/
theorem memByte_memApplyAll_spared (m : Mem) (ops : List MemOp) (k : Nat) (h : ∀ op ∈ ops, opSpares k op) :
    memByte (memApplyAll m ops) k = memByte m k := by
  induction ops generalizing m with
  | nil => rfl
  | cons op t ih =>
    rw [memApplyAll_cons, ih _ fun q hq => h q (by simp [hq]), memByte_memApply_spared m op k (h op (by simp))]

/-- A band's bytes lie at the keys with its number, in every channel. -/
theorem bandsUndef_spares (salt : Nat) (bs : List Nat) (k : Nat) (hb : ∀ b ∈ bs, b < 0x300)
    (h : 1280 * 0x30000000 ≤ k ∨ k % 0x30000000 / 0x100000 ∉ bs) : ∀ op ∈ bandsUndef salt bs, opSpares k op := by
  intro op hop
  obtain ⟨b, hbs, rfl⟩ := List.mem_map.1 hop
  have hlt := hb b hbs
  show inUndef _ k = false
  have hout : ¬ (b * 0x100000 ≤ k ∧ k < 1280 * 0x30000000 ∧ (k - b * 0x100000) % 0x30000000 < 0x100000) := by
    rintro ⟨h1, h2, h3⟩
    have hband : k % 0x30000000 / 0x100000 = b := by omega
    rcases h with h | h
    · omega
    · exact h (hband ▸ hbs)
  simp only [inUndef, Bool.and_eq_false_iff]
  left
  by_cases h1 : b * 0x100000 ≤ k ∧ k < 1280 * 0x30000000
  · right
    have h3 : ¬ (k - b * 0x100000) % 0x30000000 < 0x100000 := fun h3 => hout ⟨h1.1, h1.2, h3⟩
    simpa using h3
  · left
    exact decide_eq_false h1

end Sys2Proof.Machine
end

section
/-! CERTIFICATE. O38: the owner's configuration writes. -/

namespace Sys2Proof.Machine

/-! ### Band views (R26) -/

/-- The bands of word `i` that change view. -/
def changedBands (d : Dev) (i v : Nat) : List Nat :=
  ((rangeFrom 0 32).filter (fun b => natBit (regNat d (0x2000100 + 4 * i)) b !=
    natBit (natBits v 0 (min 32 (partBands d.boot.part - 32 * i))) b)).map (fun b => 32 * i + b)

theorem bandViewWrite_eq (s : State) (i v : Nat) : ∃ (salt : Nat) (bad : List Nat),
    wOut (bandViewWrite (workOf s) i v) =
      ((freshSalt (regPutNat s.dev (0x2000100 + 4 * i) (natBits v 0 (min 32 (partBands s.dev.boot.part - 32 * i))))).2,
        bandsUndef salt (changedBands s.dev i v) ++ bad.map (fun k => MemOp.poison k)) := ⟨_, _, rfl⟩

theorem band_not_changed (d : Dev) (i v k : Nat)
    (h : k % 0x30000000 / 0x100000 / 32 ≠ i ∨ natBit (regNat d (0x2000100 + 4 * i)) (k % 0x30000000 / 0x100000 % 32) =
      natBit (natBits v 0 (min 32 (partBands d.boot.part - 32 * i))) (k % 0x30000000 / 0x100000 % 32)) :
    k % 0x30000000 / 0x100000 ∉ changedBands d i v := by
  intro hmem
  obtain ⟨b, hb, hk⟩ := List.mem_map.1 hmem
  obtain ⟨hr, hne⟩ := List.mem_filter.1 hb
  have hlt := ((mem_rangeFrom _ _ _).1 hr).2
  have hmod : k % 0x30000000 / 0x100000 % 32 = b := by omega
  rw [hmod] at h
  rcases h with h | h
  · omega
  · simp [h] at hne

theorem changedBands_lt (d : Dev) (i v b : Nat) (hi : i < 24) (h : b ∈ changedBands d i v) : b < 0x300 := by
  obtain ⟨c, hc, rfl⟩ := List.mem_map.1 h
  have hlt := ((mem_rangeFrom _ _ _).1 (List.mem_filter.1 hc).1).2
  omega

theorem natBits_lt (x lo w n : Nat) (h : w ≤ n) : natBits x lo w < 2 ^ n :=
  Nat.lt_of_lt_of_le (Nat.mod_lt _ (Nat.two_pow_pos w)) (Nat.pow_le_pow_right (by decide) h)

theorem wordWrite_bandView (w : Work) (m i v : Nat) (hi : i < 24) :
    wordWrite w m (0x2000100 + 4 * i) v = bandViewWrite w i v := by
  have hcore : inCoreBlock (0x2000100 + 4 * i) = false := decide_eq_false (by unfold coreBase coreEnd; omega)
  rw [wordWrite, hcore, if_neg Bool.false_ne_true, if_neg (by omega), if_pos (by omega), show (0x2000100 + 4 * i - 0x2000100) / 4 = i by omega]

theorem does_bandViewWrite (m v i : Nat) (s : State) (ho : OwnerOn s m) (hi : i < 24) :
    Does (.bandViewWrite m i v) s (fun t => SameRegsBut s t [0x2000100 + 4 * i] ∧
      regNat t.dev (0x2000100 + 4 * i) = natBits v 0 (min 32 (partBands s.dev.boot.part - 32 * i)) ∧ t.dev.cores = s.dev.cores ∧
      ∀ k, (1280 * 0x30000000 ≤ k ∨ k % 0x30000000 / 0x100000 / 32 ≠ i ∨
          natBit (regNat s.dev (0x2000100 + 4 * i)) (k % 0x30000000 / 0x100000 % 32) =
            natBit (natBits v 0 (min 32 (partBands s.dev.boot.part - 32 * i))) (k % 0x30000000 / 0x100000 % 32)) →
        memByte t.mem k = memByte s.mem k) := by
  have hexec : exec (.bandViewWrite m i v) s = masterWrite m (0x2000100 + 4 * i) 4 v s := by
    show masterWrite m (0x2000100 + 4 * (i % 24)) 4 v s = _
    rw [Nat.mod_eq_of_lt hi]
  refine does_ownerWord ho hexec (by omega) (by omega) ?_
  rw [wordWrite_bandView _ _ _ _ hi]
  obtain ⟨salt, bad, he⟩ := bandViewWrite_eq s i (v % 2 ^ 32)
  have hnew : natBits (v % 2 ^ 32) 0 (min 32 (partBands s.dev.boot.part - 32 * i)) =
      natBits v 0 (min 32 (partBands s.dev.boot.part - 32 * i)) := natBits_mod _ _ _ _ (by omega)
  rw [he, hnew]
  refine ⟨fun off hoff => ?_, ?_, rfl, fun k hk => ?_⟩
  · exact regGet_regPut_other _ _ _ _ (by simpa using hoff)
  · exact (regNat_regPutNat_same _ _ _).trans (Nat.mod_eq_of_lt (natBits_lt _ _ _ _ (by omega)))
  · refine memByte_memApplyAll_spared _ _ _ fun op hop => ?_
    rcases List.mem_append.1 hop with hop | hop
    · refine bandsUndef_spares salt _ k (fun b hb => changedBands_lt _ _ _ _ hi hb) ?_ op hop
      rcases hk with hk | hk
      · exact .inl hk
      · exact .inr (band_not_changed s.dev i (v % 2 ^ 32) k (by rw [hnew]; exact hk))
    · obtain ⟨u, -, rfl⟩ := List.mem_map.1 hop
      trivial

/-! ### Clip limits and counters (R58, R59, R61) -/

theorem does_clipLimitWrite (m v n : Nat) (s : State) (ho : OwnerOn s m) (hc : n < coresTotal s.dev) (hn : n < 256) :
    Does (.clipLimitWrite m n v) s (fun t => OnlyRegs s t [coreOff n 0x300, coreOff n 0x304] ∧
      regNat t.dev (coreOff n 0x300) = v % 2 ^ 32 ∧ regBit t.dev (coreOff n 0x304) 0 =
        (regBit s.dev (coreOff n 0x304) 0 || (List.range 32).any (fun j => decide (v % 2 ^ 32 < clipGet s.dev n j)))) := by
  have hexec : exec (.clipLimitWrite m n v) s = masterWrite m (coreOff n 0x300) 4 v s := by
    show masterWrite m (coreOff (n % 256) 0x300) 4 v s = _
    rw [Nat.mod_eq_of_lt hn]
  refine does_coreWord ho hexec (by decide) hn (by decide) ?_
  have hw : coreWordWrite s.dev n 0x300 (v % 2 ^ 32) = clipLimitSet s.dev n (v % 2 ^ 32) := by
    simp [coreWordWrite, Nat.not_le.2 hc]
  rw [hw]
  exact ⟨(onlyWords_clipLimitSet _ _ _).onlyRegs, (regNat_clipLimitSet _ _ _).trans (Nat.mod_mod _ _),
    regBit_clipLimitSet _ _ _ (Nat.mod_lt _ (by decide))⟩

theorem does_clipcntWrite (m v n b : Nat) (s : State) (ho : OwnerOn s m) (hc : n < coresTotal s.dev) (hn : n < 256) (hb : b < 32) :
    Does (.clipcntWrite m n b v) s (fun t => OnlyRegs s t [coreOff n (0x380 + 4 * b), coreOff n 0x304] ∧
      clipGet t.dev n b = v % 2 ^ 32 ∧ regBit t.dev (coreOff n 0x304) 0 =
        (regBit s.dev (coreOff n 0x304) 0 || decide (regNat s.dev (coreOff n 0x300) < v % 2 ^ 32))) := by
  have hexec : exec (.clipcntWrite m n b v) s = masterWrite m (coreOff n (0x380 + 4 * b)) 4 v s := by
    show masterWrite m (coreOff (n % 256) (0x380 + 4 * (b % 32))) 4 v s = _
    rw [Nat.mod_eq_of_lt hn, Nat.mod_eq_of_lt hb]
  refine does_coreWord ho hexec (by omega) hn (by omega) ?_
  have hw : coreWordWrite s.dev n (0x380 + 4 * b) (v % 2 ^ 32) = clipSet s.dev n b (v % 2 ^ 32) := by
    rw [coreWordWrite, if_neg (by omega), if_neg (by omega), if_neg (by omega), if_pos (by omega),
      show (0x380 + 4 * b - 0x380) / 4 = b by omega]
  rw [hw]
  exact ⟨(onlyWords_clipSet _ _ _ _).onlyRegs, (clipGet_clipSet _ _ _ _).trans (Nat.mod_mod _ _),
    regBit_clipSet _ _ _ _ (Nat.mod_lt _ (by decide))⟩

theorem does_numStatusClear (m v n : Nat) (s : State) (ho : OwnerOn s m) (hc : n < coresTotal s.dev) (hn : n < 256) :
    Does (.numStatusClear m n v) s (fun t => OnlyRegs s t [coreOff n 0x304] ∧
      (∀ i, i < 4 → regBit t.dev (coreOff n 0x304) i = (regBit s.dev (coreOff n 0x304) i && !natBit v i)) ∧
      (natBit v 0 = true → regField t.dev (coreOff n 0x304) 8 5 = 0)) := by
  have hexec : exec (.numStatusClear m n v) s = masterWrite m (coreOff n 0x304) 4 v s := by
    show masterWrite m (coreOff (n % 256) 0x304) 4 v s = _
    rw [Nat.mod_eq_of_lt hn]
  refine does_coreWord ho hexec (by decide) hn (by decide) ?_
  have hw : coreWordWrite s.dev n 0x304 (v % 2 ^ 32) = clearNumStatus s.dev n (v % 2 ^ 32) := by
    simp [coreWordWrite, Nat.not_le.2 hc]
  rw [hw]
  refine ⟨(onlyWords_clearNumStatus _ _ _).onlyRegs, fun i hi => ?_, fun h0 => ?_⟩
  · rw [after_dev, regBit_clearNumStatus _ _ _ _ hi, natBit_mod _ _ _ (by omega)]
  · exact firstBank_clearNumStatus _ _ _ (by rwa [natBit_mod _ _ _ (by decide)])

/-! ### Time (R253, R258) -/

/-- TIME_SET is written as a whole. -/
theorem exec_timeSetWrite (m v : Nat) (s : State) (ho : OwnerOn s m) :
    exec (.timeSetWrite m v) s = finish s (timeSetWrite s.dev (v % 2 ^ 64), []) :=
  masterWrite_owner 0x200010 8 v ho (by decide) (by decide)

theorem does_timeSetWrite_free (m v : Nat) (s : State) (ho : OwnerOn s m) (hf : s.dev.tm.st = 0) :
    Does (.timeSetWrite m v) s (fun t => t.mem = s.mem ∧ SameRegsBut s t [0x200010, 0x200014] ∧
      t.dev.tm = { s.dev.tm with gt := v % 2 ^ 64 * 16 } ∧ t.dev.cores = s.dev.cores) := by
  refine does_finish (exec_timeSetWrite m v s ho) ?_
  have hg : v % 2 ^ 64 % 2 ^ 64 * 16 % 2 ^ 68 = v % 2 ^ 64 * 16 := by omega
  rw [timeSetWrite, if_pos hf]
  refine ⟨rfl, fun off hoff => ?_, ?_, rfl⟩
  · simp only [List.mem_cons, List.not_mem_nil, or_false, not_or] at hoff
    exact (regGet_regPut_other _ _ _ _ hoff.2).trans (regGet_regPut_other _ _ _ _ hoff.1)
  · show { s.dev.tm with gt := v % 2 ^ 64 % 2 ^ 64 * 16 % 2 ^ 68 } = _
    rw [hg]

theorem does_timeSetWrite_followed (m v : Nat) (s : State) (ho : OwnerOn s m) (hf : s.dev.tm.st ≠ 0) :
    Does (.timeSetWrite m v) s (fun t => Unchanged s t) := by
  refine does_unchanged ?_
  rw [exec_timeSetWrite m v s ho, timeSetWrite, if_neg hf]

theorem does_rootEnableWrite (m v : Nat) (s : State) (ho : OwnerOn s m) {P : State → Prop}
    (hP : P (after s (chooseRoot (regPutField s.dev 0x200020 0 1 (v % 2 ^ 32)), []))) : Does (.rootEnableWrite m v) s P :=
  does_devWord (fun d => rootEnableWrite d (v % 2 ^ 32)) ho rfl (by decide) (by decide) rfl hP

theorem regGet_timeCtl (d : Dev) (v off : Nat) (h : off ∉ [0x200020]) :
    regGet (regPutField d 0x200020 0 1 v) off = regGet d off :=
  regGet_regPutField_other _ _ _ _ _ _ (by simpa using h)

theorem does_rootEnableWrite_on (m v : Nat) (s : State) (ho : OwnerOn s m) (hv : natBit v 0 = true)
    (hr : ∀ o ∈ rootOffers s.dev, ownNode s.dev ≤ o.2.1) :
    Does (.rootEnableWrite m v) s (fun t => t.mem = s.mem ∧ SameRegsBut s t [0x200020] ∧ rootEnable t.dev = true ∧
      t.dev.tm.root = true ∧ t.dev.tm.st = 2 ∧ t.dev.tm.depth = 0 ∧ t.dev.tm.rootNode = ownNode s.dev ∧ t.dev.tm.parent = 63) := by
  refine does_rootEnableWrite m v s ho ?_
  have hen : rootEnable (regPutField s.dev 0x200020 0 1 (v % 2 ^ 32)) = true := by
    rw [rootEnable_timeCtl, natBit_mod _ _ _ (by decide), hv]
  rw [chooseRoot_self _ hen (by rwa [rootOffers_timeCtl, ownNode_timeCtl]), ownNode_timeCtl]
  exact ⟨rfl, fun off hoff => regGet_timeCtl _ _ _ hoff, hen, rfl, rfl, rfl, rfl, rfl⟩

theorem does_rootEnableWrite_off (m v : Nat) (s : State) (ho : OwnerOn s m) (hv : natBit v 0 = false)
    (hroot : s.dev.tm.root = true) (hr : rootOffers s.dev = []) :
    Does (.rootEnableWrite m v) s (fun t => t.mem = s.mem ∧ SameRegsBut s t [0x200020] ∧ rootEnable t.dev = false ∧
      t.dev.tm.root = false ∧ t.dev.tm.st = 0) := by
  refine does_rootEnableWrite m v s ho ?_
  have hen : rootEnable (regPutField s.dev 0x200020 0 1 (v % 2 ^ 32)) = false := by
    rw [rootEnable_timeCtl, natBit_mod _ _ _ (by decide), hv]
  rw [chooseRoot_none _ hen (by rwa [rootOffers_timeCtl])]
  exact ⟨rfl, fun off hoff => regGet_timeCtl _ _ _ hoff, hen, rfl, followNone_root _ hroot⟩

/-! ### The beat grid (R259, R265) -/

/-- BEAT_T0 is written in its two halves, which act one after the other while no context runs. -/
theorem exec_beatT0Write (m v : Nat) (s : State) (ho : OwnerOn s m) (hl : anyLive s.dev = false) :
    exec (.beatCfgWrite m 0 v) s =
      finish s (beatCfgWrite (beatCfgWrite s.dev 0x200108 (v % 2 ^ 32)) 0x20010C (v / 2 ^ 32 % 2 ^ 32), []) := by
  refine (masterWrite_owner 0x200108 8 v ho (by decide) (by decide)).trans ?_
  rw [ownerWrite, if_neg (by decide), if_neg (by decide), if_neg (fun h => by simp [workOf, hl] at h), if_neg (by decide), if_neg (by decide)]
  rfl

theorem does_beatT0Write (m v : Nat) (s : State) (ho : OwnerOn s m) (hl : anyLive s.dev = false) :
    Does (.beatCfgWrite m 0 v) s (fun t => KeepsCores s t ∧ SameRegsBut s t [0x200108, 0x20010C] ∧
      beatT0 t.dev = v % 2 ^ 64 ∧ { t.dev.tm with mismatch := s.dev.tm.mismatch } = s.dev.tm) := by
  refine does_finish (exec_beatT0Write m v s ho hl) ?_
  obtain ⟨x, hx⟩ := beatCfgWrite_accepted s.dev 0x200108 (v % 2 ^ 32) hl (by decide) (fun h => absurd h (by decide))
    (fun h => absurd h (by decide))
  rw [hx]
  obtain ⟨y, hy⟩ := beatCfgWrite_accepted _ 0x20010C (v / 2 ^ 32 % 2 ^ 32)
    ((anyLive_congr rfl rfl).trans hl : anyLive { regPutNat s.dev 0x200108 (v % 2 ^ 32) with tm := { s.dev.tm with mismatch := x } } = false)
    (by decide) (fun h => absurd h (by decide)) (fun h => absurd h (by decide))
  rw [hy]
  have hlo : ∀ e : Dev, regNat (regPutNat (regPutNat e 0x200108 (v % 2 ^ 32)) 0x20010C (v / 2 ^ 32 % 2 ^ 32)) 0x200108 = v % 2 ^ 32 :=
    fun e => by rw [regNat_regPutNat_other _ _ _ _ (by decide), regNat_regPutNat_same, Nat.mod_mod]
  have hhi : ∀ e : Dev, regNat (regPutNat e 0x20010C (v / 2 ^ 32 % 2 ^ 32)) 0x20010C = v / 2 ^ 32 % 2 ^ 32 :=
    fun e => by rw [regNat_regPutNat_same, Nat.mod_mod]
  refine ⟨⟨rfl, rfl⟩, fun off hoff => ?_, ?_, rfl⟩
  · simp only [List.mem_cons, List.not_mem_nil, or_false, not_or] at hoff
    exact (regGet_regPut_other _ _ _ _ hoff.2).trans (regGet_regPut_other _ _ _ _ hoff.1)
  · have hsum : v % 2 ^ 32 + 2 ^ 32 * (v / 2 ^ 32 % 2 ^ 32) = v % 2 ^ 64 := by omega
    refine Eq.trans ?_ hsum
    exact congr (congrArg (fun a b => a + 2 ^ 32 * b) (hlo s.dev)) (hhi _)

/-- A word of the beat configuration, written by the owner. -/
theorem does_beatWord (m f v off : Nat) (s : State) (ho : OwnerOn s m) {P : State → Prop}
    (hf : f = 1 ∧ off = 0x200110 ∨ f = 2 ∧ off = 0x200114 ∨ f = 3 ∧ off = 0x200118)
    (hP : P (after s (beatCfgWrite s.dev off (v % 2 ^ 32), []))) : Does (.beatCfgWrite m f v) s P := by
  rcases hf with ⟨rfl, rfl⟩ | ⟨rfl, rfl⟩ | ⟨rfl, rfl⟩
  · exact does_devWord (fun d => beatCfgWrite d 0x200110 (v % 2 ^ 32)) ho rfl (by decide) (by decide) rfl hP
  · exact does_devWord (fun d => beatCfgWrite d 0x200114 (v % 2 ^ 32)) ho rfl (by decide) (by decide) rfl hP
  · exact does_devWord (fun d => beatCfgWrite d 0x200118 (v % 2 ^ 32)) ho rfl (by decide) (by decide) rfl hP

theorem does_beatWord_accepted (m f v off : Nat) (s : State) (ho : OwnerOn s m) (hl : anyLive s.dev = false) (hv : v < 2 ^ 32)
    (hf : f = 1 ∧ off = 0x200110 ∧ beatRanges v (beatMin s.dev) = true ∨ f = 2 ∧ off = 0x200114 ∧ beatRanges (beatLen s.dev) v = true) :
    Does (.beatCfgWrite m f v) s (fun t => KeepsCores s t ∧ SameRegsBut s t [off] ∧ regNat t.dev off = v) := by
  refine does_beatWord m f v off s ho (by omega) ?_
  rw [Nat.mod_eq_of_lt hv]
  have hlen : off = 0x200110 → beatRanges v (beatMin s.dev) = true := fun h => by
    rcases hf with ⟨-, -, hr⟩ | ⟨-, ho, -⟩
    · exact hr
    · omega
  have hmin : off = 0x200114 → beatRanges (beatLen s.dev) v = true := fun h => by
    rcases hf with ⟨-, ho, -⟩ | ⟨-, -, hr⟩
    · omega
    · exact hr
  obtain ⟨x, hx⟩ := beatCfgWrite_accepted s.dev off v hl (by omega) hlen hmin
  rw [hx]
  exact ⟨⟨rfl, rfl⟩, fun j hj => regGet_regPut_other _ _ _ _ (by simpa using hj),
    (regNat_regPutNat_same s.dev off v).trans (Nat.mod_eq_of_lt hv)⟩

theorem does_beatLenWrite_rejected (m v : Nat) (s : State) (ho : OwnerOn s m) (hv : v < 2 ^ 32)
    (hr : beatRanges v (beatMin s.dev) = false) :
    Does (.beatCfgWrite m 1 v) s (fun t => t.mem = s.mem ∧ beatLen t.dev = beatLen s.dev ∧ regBit t.dev 0x200120 0 = true) := by
  refine does_beatWord m 1 v 0x200110 s ho (.inl ⟨rfl, rfl⟩) ?_
  rw [Nat.mod_eq_of_lt hv, beatCfgWrite_rejected _ _ _ (.inr ⟨rfl, hr⟩)]
  obtain ⟨-, hlen, -, hbit⟩ := beatReject_grid s.dev
  exact ⟨rfl, hlen, hbit⟩

theorem exec_beatT0Write_live (m v : Nat) (s : State) (ho : OwnerOn s m) (hl : anyLive s.dev = true) :
    exec (.beatCfgWrite m 0 v) s = finish s (beatCfgWrite s.dev 0x200108 (v % 2 ^ 32), []) := by
  refine (masterWrite_owner 0x200108 8 v ho (by decide) (by decide)).trans ?_
  rw [ownerWrite, if_neg (by decide), if_neg (by decide), if_pos ⟨rfl, hl⟩]
  rfl

/-- While a context runs every beat configuration write is rejected. -/
theorem does_beatCfgWrite_live (m f v : Nat) (s : State) (ho : OwnerOn s m) (hl : anyLive s.dev = true) (hf : f < 4) :
    Does (.beatCfgWrite m f v) s (fun t => t.mem = s.mem ∧ beatT0 t.dev = beatT0 s.dev ∧
      beatLen t.dev = beatLen s.dev ∧ beatMin t.dev = beatMin s.dev ∧ regBit t.dev 0x200120 0 = true) := by
  have hrej : ∀ off w, (after s (beatCfgWrite s.dev off w, [])) = after s (beatReject s.dev, []) := fun off w => by
    rw [beatCfgWrite_rejected _ _ _ (.inl hl)]
  by_cases h0 : f = 0
  · subst h0
    refine does_finish (exec_beatT0Write_live m v s ho hl) ?_
    rw [hrej]
    exact ⟨rfl, beatReject_grid s.dev⟩
  · refine does_beatWord m f v (0x20010C + 4 * f) s ho (by omega) ?_
    rw [hrej]
    exact ⟨rfl, beatReject_grid s.dev⟩

theorem does_beatEnableWrite (m v : Nat) (s : State) (ho : OwnerOn s m) :
    Does (.beatEnableWrite m v) s (fun t => t.mem = s.mem ∧ SameRegsBut s t [0x200100] ∧ beatEnable t.dev = natBit v 0 ∧
      ∀ n, n < coresTotal s.dev → coreOf t.dev n = if (List.range 8).any (fun c => ctxLive (ctxIn s n c)) then coreOf s.dev n
        else { coreOf s.dev n with beat := { (coreOf s.dev n).beat with enabled := natBit v 0 } }) := by
  refine does_devWord (fun d => beatCtlWrite d (v % 2 ^ 32)) ho rfl (by decide) (by decide) rfl ?_
  obtain ⟨hen, hcores, hboot, hregs⟩ := beatEnableWrite_spec s.dev (v % 2 ^ 32)
  rw [natBit_mod _ _ _ (by decide)] at hen
  rw [beatCtlWrite_eq]
  have hreg : ∀ off, regGet ((rangeFrom 0 (coresTotal (beatEnableWrite s.dev (v % 2 ^ 32)))).foldl enableCore
      (beatEnableWrite s.dev (v % 2 ^ 32))) off = regGet (beatEnableWrite s.dev (v % 2 ^ 32)) off := fun off => by
    rw [regGet, enableCores_regs, regGet]
  refine ⟨rfl, fun off hoff => (hreg off).trans (hregs off (by simpa using hoff)), ?_, fun n hn => ?_⟩
  · exact (congrArg (fun x => natBit x 0) (regNat_congr (hreg 0x200100)) :).trans hen
  · have htotal : coresTotal (beatEnableWrite s.dev (v % 2 ^ 32)) = coresTotal s.dev := by
      simp only [coresTotal, coresPerDie, hboot]
    have hcore : coreOf (beatEnableWrite s.dev (v % 2 ^ 32)) n = coreOf s.dev n := by rw [coreOf, hcores, coreOf]
    rw [after_dev, coreOf_enableCores, if_pos ((mem_rangeFrom _ _ _).2 ⟨by omega, by omega⟩), hen, hcore]
    rfl

/-! ### Programs and shard entries (R378, R382) -/

theorem does_progValidate (m v : Nat) (s : State) (ho : OwnerOn s m) (hv : v < 256) {P : State → Prop}
    (hP : P (after s (progValidate s.dev v, []))) : Does (.progValidate m v) s P := by
  refine does_devWord (fun d => progValidate d (v % 2 ^ 32 % 256)) ho rfl (by decide) (by decide) rfl ?_
  rwa [Nat.mod_eq_of_lt (by omega : v < 2 ^ 32), Nat.mod_eq_of_lt hv]

theorem does_progValidate_accepted (m v : Nat) (s : State) (ho : OwnerOn s m) (hv : v < 256) (hu : progUsers s.dev v = [])
    (hc : progCode (storeImage s.dev v) = 0) :
    Does (.progValidate m v) s (fun t => t.mem = s.mem ∧ SameRegsBut s t [0x1200068] ∧
      regField t.dev 0x1200068 0 8 = 0 ∧ smapFind t.dev.upd.progs v = some (storeImage s.dev v)) := by
  refine does_progValidate m v s ho hv ?_
  rw [progValidate_free _ _ hu, if_pos hc, cfgResult_ok]
  exact ⟨rfl, fun off hoff => regGet_regPutField_other _ _ _ _ _ _ (by simpa using hoff),
    regField_regPutField_same _ _ _ _ _ (by decide), smapFind_smapSet_same _ _ _⟩

theorem does_progValidate_rejected (m v : Nat) (s : State) (ho : OwnerOn s m) (hv : v < 256) (hu : progUsers s.dev v = [])
    (hc : progCode (storeImage s.dev v) ≠ 0) :
    Does (.progValidate m v) s (fun t => t.mem = s.mem ∧
      regField t.dev 0x1200068 0 8 = progCode (storeImage s.dev v) % 256 ∧ smapFind t.dev.upd.progs v = none) := by
  refine does_progValidate m v s ho hv ?_
  rw [progValidate_free _ _ hu, if_neg hc]
  refine ⟨rfl, cfgResult_code _ _ _ _, ?_⟩
  rw [after_dev, cfgResult_upd]
  exact smapFind_smapDrop_same _ _

theorem does_shardValidate (m v : Nat) (s : State) (ho : OwnerOn s m) (hv : v < 4096) {P : State → Prop}
    (hP : P (after s (shardValidate s.dev v, []))) : Does (.shardValidate m v) s P := by
  refine does_devWord (fun d => shardValidate d (v % 2 ^ 32 % 4096)) ho rfl (by decide) (by decide) rfl ?_
  rwa [Nat.mod_eq_of_lt (by omega : v < 2 ^ 32), Nat.mod_eq_of_lt hv]

/-- Settles O38, clause by clause. -/
theorem configurationWrites : Obligations.ConfigurationWrites := by
  intro m v s ho
  refine ⟨fun i hi => does_bandViewWrite m v i s ho hi,
    fun n b hc hn hb => ⟨does_clipLimitWrite m v n s ho hc hn, does_clipcntWrite m v n b s ho hc hn hb,
      does_numStatusClear m v n s ho hc hn⟩,
    does_timeSetWrite_free m v s ho, does_timeSetWrite_followed m v s ho, does_rootEnableWrite_on m v s ho,
    does_rootEnableWrite_off m v s ho, does_beatT0Write m v s ho, fun hl hv => ⟨fun hr => ?_, fun hr => ?_, fun hr => ?_⟩,
    fun hl f hf => does_beatCfgWrite_live m f v s ho hl hf, does_beatEnableWrite m v s ho, fun hv hl hu => ?_,
    fun hv hu => ⟨?_, ?_⟩, fun hv hk => ⟨fun hc => ?_, fun hc => ?_⟩⟩
  · exact does_beatWord_accepted m 1 v 0x200110 s ho hl hv (.inl ⟨rfl, rfl, hr⟩)
  · exact does_beatWord_accepted m 2 v 0x200114 s ho hl hv (.inr ⟨rfl, rfl, hr⟩)
  · exact does_beatLenWrite_rejected m v s ho hv hr
  · refine does_progValidate m v s ho hv ?_
    rw [progValidate_busy _ _ hl hu]
    exact ⟨rfl, cfgResult_code _ _ _ _, cfgResult_upd _ _ _ _⟩
  · exact does_progValidate_accepted m v s ho hv (progUsers_nil _ _ hu)
  · exact does_progValidate_rejected m v s ho hv (progUsers_nil _ _ hu)
  · exact does_shardValidate m v s ho hv ⟨rfl, shardValidate_accepted _ _ hk hc⟩
  · refine does_shardValidate m v s ho hv ?_
    rw [shardValidate_rejected _ _ hk hc]
    exact ⟨rfl, cfgResult_code _ _ _ _, cfgResult_upd _ _ _ _⟩

end Sys2Proof.Machine
end

section
/-! SUPPORT. Packets of board channels at both ends: a packet taken, its reply, and the request that a reply retires
(R290, R335 to R338). -/

namespace Sys2Proof.Machine

/-- A packet of its row that passes the checks at ejection is handled. -/
theorem onPacket_taken {s : State} {p : Packet} {typ sub : Nat} {d : Dev} (h : Taken s p typ sub d)
    (go : Dev → Dev × List MemOp) : onPacket s.dev p typ sub go = go d := by
  obtain ⟨ht, hs, hr, hd⟩ := h
  simp only [onPacket, ht, hs, hr, hd, Bool.false_eq_true, and_false, and_self, true_or, if_false, if_true]

/-! ### Replies (R336) -/

/-- A reply to a peer that is not drained is one packet to be injected. -/
theorem sendReply_eq (d : Dev) (p : Packet) (sub : Nat) (bs : List Byte) (h : drainOver d p.src = false) :
    ∃ q, (q.typ = 5 ∧ q.sub = sub ∧ q.dst = p.src ∧ q.seq = p.seq ∧ q.payload = padTo 256 bs) ∧
      sendReply d p sub bs = queuePacket d q := by
  refine ⟨_, ⟨?_, ?_, ?_, ?_, ?_⟩, by rw [sendReply, h, if_neg Bool.false_ne_true]⟩ <;> rfl

/-- Where nothing has joined the packets to be injected before it, that is the answer. -/
theorem replies_sendReply {a d : Dev} (p : Packet) (sub : Nat) (bs : List Byte) (h : drainOver d p.src = false)
    (hi : d.ni.inject = a.ni.inject) : Replies a (sendReply d p sub bs) p sub bs := by
  obtain ⟨q, hq, he⟩ := sendReply_eq d p sub bs h
  refine ⟨39, q, ?_, hq⟩
  rw [he, ← hi]
  rfl

/-- A reply changes nothing but the packets to be injected. -/
theorem sendReply_keeps (d : Dev) (p : Packet) (sub : Nat) (bs : List Byte) :
    (sendReply d p sub bs).regs = d.regs ∧ (sendReply d p sub bs).cores = d.cores ∧
      (sendReply d p sub bs).ni.boardSeen = d.ni.boardSeen := by
  unfold sendReply
  split <;> exact ⟨rfl, rfl, rfl⟩

/-- The same of an answer of either kind. -/
theorem answerReq_keeps (d : Dev) (p : Packet) (sub ans : Nat) :
    (answerReq d p sub ans).regs = d.regs ∧ (answerReq d p sub ans).cores = d.cores ∧
      (answerReq d p sub ans).ni.boardSeen = d.ni.boardSeen := by
  unfold answerReq faultReply
  split <;> exact sendReply_keeps _ _ _ _

theorem boardSeen_answerReq (d : Dev) (p : Packet) (sub ans : Nat) : boardSeen (answerReq d p sub ans) p = boardSeen d p := by
  rw [boardSeen, boardSeen, (answerReq_keeps d p sub ans).2.2]

theorem answerReq_ok (d : Dev) (p : Packet) (sub : Nat) : answerReq d p sub 0 = sendReply d p sub (leBytes 8 0) := rfl

theorem answerReq_fault (d : Dev) (p : Packet) (sub : Nat) {ans : Nat} (h : ans ≠ 0) :
    answerReq d p sub ans = sendReply d p 4 (leBytes 8 (if ans = 5 then 1 else ans)) := by
  rw [answerReq, if_neg h, faultReply]

/-- A request is remembered with what it was answered (R338). -/
theorem boardSeen_boardTaken (d : Dev) (p : Packet) (ans : Nat) : boardSeen (boardTaken d p ans) p = some ans := by
  simp [boardSeen, boardTaken]

/-- A duplicate is counted (R332, R338). -/
theorem counts_boardDup (d : Dev) : Counts d (boardDup d) 0x1100024 := by
  show regNat (regPutNat d 0x1100024 (satAdd32 (regNat d 0x1100024) 1)) 0x1100024 = _
  rw [regNat_regPutNat_same, Nat.mod_eq_of_lt (by unfold satAdd32; omega)]

/-! ### Requests answered (R335) -/

/-- Requests that may leave do so: they are marked, and their packets join those to be injected. -/
theorem pumpSome_eq (fuel : Nat) (d : Dev) (slot : Nat) : ∃ b i,
    pumpSome fuel d slot = { d with ni := { d.ni with board := b, inject := i } } ∧ b.length = d.ni.board.length := by
  induction fuel generalizing d with
  | zero => exact ⟨d.ni.board, d.ni.inject, rfl, rfl⟩
  | succ fuel ih =>
    unfold pumpSome
    split
    · split
      · rename_i r _
        obtain ⟨b, i, he, hl⟩ := ih (queueReq
          { d with ni := { d.ni with board := d.ni.board.map (fun q => if q == r then { q with sent := true, sentAt := d.boot.aonNs } else q) } }
          r (reqPacket
            { d with ni := { d.ni with board := d.ni.board.map (fun q => if q == r then { q with sent := true, sentAt := d.boot.aonNs } else q) } } r))
        refine ⟨b, i, he.trans ?_, hl.trans ?_⟩
        · unfold queueReq
          split <;> rfl
        · unfold queueReq
          split <;> exact List.length_map _
      · exact ⟨d.ni.board, d.ni.inject, rfl, rfl⟩
    · exact ⟨d.ni.board, d.ni.inject, rfl, rfl⟩

/-- A request answered leaves the requests and the packets to be injected alone changed, and there is one request less. -/
theorem boardRetire_eq (d : Dev) (r : BoardReq) : ∃ b i,
    boardRetire d r = { d with ni := { d.ni with board := b, inject := i } } ∧
      b.length = (d.ni.board.filter (fun q => q != r)).length := by
  obtain ⟨b, i, he, hl⟩ := pumpSome_eq 256 { d with ni := { d.ni with board := d.ni.board.filter (fun q => q != r) } } r.slot
  exact ⟨b, i, he, hl⟩

theorem boardRetire_length (d : Dev) (r : BoardReq) (h : r ∈ d.ni.board) :
    (boardRetire d r).ni.board.length < d.ni.board.length := by
  obtain ⟨b, i, he, hl⟩ := boardRetire_eq d r
  rw [he]
  show b.length < _
  rw [hl]
  exact List.length_filter_lt_length_iff_exists.2 ⟨r, h, by simp⟩

theorem boardRetire_host (d : Dev) (r : BoardReq) : (boardRetire d r).host = d.host := by
  obtain ⟨b, i, he, -⟩ := boardRetire_eq d r
  rw [he]

theorem coreOf_boardRetire (d : Dev) (r : BoardReq) (n : Nat) : coreOf (boardRetire d r) n = coreOf d n := by
  obtain ⟨b, i, he, -⟩ := boardRetire_eq d r
  rw [he]
  rfl

/-! ### Long operations and host reads that wait -/

/-- Long operation `id` of a core, if it is outstanding. -/
abbrev opOf (k : Core) (id : Nat) : Option LongOp := k.ops.find? (fun o => o.id == id)

/-- A long operation that keeps its number, once changed. -/
theorem opOf_modOp (d : Dev) (n id : Nat) (g : LongOp → LongOp) (o : LongOp) (hg : ∀ o, (g o).id = o.id)
    (h : opOf (coreOf d n) id = some o) : opOf (coreOf (modOp d n id g) n) id = some (g o) := by
  have hid : o.id = id := by simpa using List.find?_some h
  have hsame : ((fun o : LongOp => o.id == id) ∘ fun o => if o.id = id then g o else o) = fun o => o.id == id := by
    funext x
    dsimp only [Function.comp]
    split <;> simp [hg]
  rw [modOp, coreOf_modCore_same, opOf, List.find?_map, hsame]
  show Option.map _ (opOf (coreOf d n) id) = _
  rw [h, Option.map_some, if_pos hid]

/-- One reply fewer awaited: the operation that waited, once the request is retired. -/
theorem opOf_opAnswered (d : Dev) (r : BoardReq) (g : LongOp → LongOp) (o : LongOp) (hg : ∀ o, (g o).id = o.id)
    (h : opOf (coreOf d r.core) r.op = some o) :
    opOf (coreOf (opAnswered (boardRetire d r) r g) r.core) r.op = some (g { o with awaiting := o.awaiting - 1 }) := by
  refine opOf_modOp (boardRetire d r) r.core r.op (fun o => g { o with awaiting := o.awaiting - 1 }) o (fun o => hg _) ?_
  rw [coreOf_boardRetire]
  exact h

/-- Data that is not whole has no effect yet. -/
theorem boardDataDone_waits (d : Dev) (m : Mem) (n id : Nat) (o : LongOp) (h : opOf (coreOf d n) id = some o) (ha : o.awaiting ≠ 0) :
    boardDataDone d m n id = (d, []) := by
  unfold boardDataDone
  split
  · rfl
  · rename_i q hq
    obtain rfl := Option.some.inj (hq.symm.trans h)
    simp [ha]

theorem smapFind_smapSet_other {α : Type} (m : SMap α) (k j : Nat) (v : α) (h : j ≠ k) :
    smapFind (smapSet m k v) j = smapFind m j := by
  induction m with
  | nil => simp [smapSet, smapFind, Ne.symm h]
  | cons e t ih =>
    obtain ⟨k', v'⟩ := e
    unfold smapSet
    split
    · simp [smapFind, Ne.symm h]
    · split
      · rename_i h2
        simp [smapFind, ← h2, Ne.symm h]
      · simp only [smapFind, ih]

/-- Bytes that land from key `a + n` on leave the keys before it alone. -/
theorem smapFind_landed_before (bs : List Byte) (m : SMap Byte) (a n k : Nat) (h : k < a + n) :
    smapFind ((bs.zipIdx n).foldl (fun acc b => smapSet acc (a + b.2) b.1) m) k = smapFind m k := by
  induction bs generalizing m n with
  | nil => rfl
  | cons b t ih =>
    rw [List.zipIdx_cons, List.foldl_cons, ih _ _ (by omega)]
    exact smapFind_smapSet_other _ _ _ _ (by omega)

/-- Bytes that land are found in order. -/
theorem smapFind_landed (bs : List Byte) (m : SMap Byte) (a n j : Nat) (h : j < bs.length) :
    smapFind ((bs.zipIdx n).foldl (fun acc b => smapSet acc (a + b.2) b.1) m) (a + n + j) = bs[j]? := by
  induction bs generalizing m n j with
  | nil => simp at h
  | cons b t ih =>
    rw [List.zipIdx_cons, List.foldl_cons]
    cases j with
    | zero =>
      rw [smapFind_landed_before _ _ _ _ _ (by omega)]
      exact smapFind_smapSet_same _ _ _
    | succ j =>
      rw [show a + n + (j + 1) = a + (n + 1) + j by omega, ih _ _ _ (by simpa using h)]
      rfl

/-- The host reads under way once the read numbered `num` is `r`, or is over. -/
def readsAfter (num : Nat) (r : PeerRead) (l : List PeerRead) : List PeerRead :=
  l.filterMap (fun q => if q.num = num then (if r.left = 0 then none else some r) else some q)

theorem find_readsAfter (num : Nat) (r z : PeerRead) (l : List PeerRead) (hn : r.num = num) (hl : r.left ≠ 0)
    (h : l.find? (fun q => q.num == num) = some z) : (readsAfter num r l).find? (fun q => q.num == num) = some r := by
  induction l with
  | nil => simp at h
  | cons q t ih =>
    by_cases hq : q.num = num
    · simp [readsAfter, hq, hl, hn]
    · rw [List.find?_cons, show (q.num == num) = false by simpa using hq] at h
      simpa [readsAfter, hq] using ih h

/-- The read `r` as its replies leave it: its device, with the reads that go on. -/
def withRead (d : Dev) (num : Nat) (r : PeerRead) : Dev :=
  { d with host := { d.host with peerReads := readsAfter num r d.host.peerReads } }

/-- The host's answer to a read whose lines have all come (R335, R503). -/
def readAnswer (e : Dev) (r : PeerRead) : Dev :=
  match r.refused with
  | some reason => bar2Refuse e reason
  | none => if r.bad then emit e (.bar2 true true (List.replicate r.len 0#8))
    else emit e (.bar2 true false ((rangeFrom r.addr r.len).map (fun a => smapGet r.got a 0#8)))

theorem peerReadLine_eq (d : Dev) (num : Nat) (g : PeerRead → PeerRead) (z : PeerRead)
    (h : d.host.peerReads.find? (fun q => q.num == num) = some z) : peerReadLine d num g =
      (let r := g { z with left := z.left - 1 }
       let e := withRead d num r
       if r.left ≠ 0 then e
       else if r.lost then emit e (.bar2 false true [])
       else readAnswer e r) := by
  simp only [peerReadLine, h]
  rfl

end Sys2Proof.Machine
end

section
/-! CERTIFICATE. O33: board replies complete what waited for them. -/

namespace Sys2Proof.Machine

/-- Load data that lands from address `a` on. -/
def landed (bs : List Byte) (a : Nat) (m : SMap Byte) : SMap Byte := bs.zipIdx.foldl (fun acc b => smapSet acc (a + b.2) b.1) m

theorem smapFind_landed_at (bs : List Byte) (m : SMap Byte) (a j : Nat) (h : j < bs.length) :
    smapFind (landed bs a m) (a + j) = bs[j]? := smapFind_landed bs m a 0 j h

/-- What a reply makes of the host read that waits for it. -/
def readReply (p : Packet) (sub : Nat) (r : BoardReq) (q : PeerRead) : PeerRead :=
  match sub with
  | 0 => { q with got := landed (p.payload.take r.len) r.addr q.got }
  | 3 => { q with bad := true }
  | _ => { q with refused := some (payNat p 0 1) }

/-- The fault of a FAULT reply (R338). -/
def replyFault (p : Packet) (r : BoardReq) : OpFault :=
  if payNat p 0 1 = 4 then ⟨0x0642, 0, wordDetail r.word⟩ else ⟨0x0B58, 2, wordDetail r.word ++ leBytes 1 (payNat p 0 1)⟩

/-- What a reply makes of the long operation that waits for it, beside the count of those awaited. -/
def opReply (p : Packet) (sub : Nat) (r : BoardReq) (o : LongOp) : LongOp :=
  match sub with
  | 0 => { o with buf := landed (p.payload.take r.len) r.addr o.buf }
  | 3 => { o with bufPoison := o.bufPoison ++ rangeFrom r.addr r.len }
  | 4 => { o with fault := orFault o.fault (some (replyFault p r)) }
  | _ => o

theorem opReply_id (p : Packet) (sub : Nat) (r : BoardReq) (o : LongOp) : (opReply p sub r o).id = o.id := by
  unfold opReply; split <;> rfl

/-- The commands of the replies, by SUB (R336). -/
abbrev IsReply (p : Packet) (sub : Nat) (i : Instr) : Prop :=
  (sub, i) ∈ [(0, Instr.lsReplyData p), (1, .writeAck p), (2, .signalAck p), (3, .dataPoison p), (4, .lsReplyFault p)]

section
variable {p : Packet} {s : State} {d : Dev} {sub : Nat} {i : Instr} {r : BoardReq}

/-- A reply that nothing waits for is counted. -/
theorem exec_reply_unknown (hi : IsReply p sub i) (ht : Taken s p 5 sub d) (hf : boardFind d p = none) :
    exec i s = finish s (regBump d 0x1100024 1, []) := by
  simp only [IsReply, List.mem_cons, Prod.mk.injEq, List.not_mem_nil, or_false] at hi
  rcases hi with ⟨rfl, rfl⟩ | ⟨rfl, rfl⟩ | ⟨rfl, rfl⟩ | ⟨rfl, rfl⟩ | ⟨rfl, rfl⟩
  all_goals exact congrArg (finish s) ((onPacket_taken ht _).trans (by simp only [hf]))

/-- A reply to a host read of a peer is one line of it. -/
theorem exec_reply_read (hi : IsReply p sub i) (ht : Taken s p 5 sub d) (hf : boardFind d p = some r) (hk : r.kind = 3)
    (hs : sub = 0 ∨ sub = 3 ∨ sub = 4) :
    exec i s = finish s (peerReadLine (boardRetire d r) r.op (readReply p sub r), []) := by
  simp only [IsReply, List.mem_cons, Prod.mk.injEq, List.not_mem_nil, or_false] at hi
  rcases hi with ⟨rfl, rfl⟩ | ⟨rfl, rfl⟩ | ⟨rfl, rfl⟩ | ⟨rfl, rfl⟩ | ⟨rfl, rfl⟩
  · exact congrArg (finish s) ((onPacket_taken ht _).trans (by simp only [hf, if_pos hk]; rfl))
  · omega
  · omega
  · exact congrArg (finish s) ((onPacket_taken ht _).trans (by simp only [hf, if_pos hk]; rfl))
  · exact congrArg (finish s) ((onPacket_taken ht _).trans (by simp only [hf, if_pos hk]; rfl))

/-- Data or a poisoned reply that a long operation waits for. -/
theorem exec_reply_data (hi : IsReply p sub i) (ht : Taken s p 5 sub d) (hf : boardFind d p = some r) (hk : r.kind ≠ 3)
    (hs : sub = 0 ∨ sub = 3) : exec i s = finish s
      (boardDataDone (opAnswered (boardRetire d r) r (opReply p sub r)) s.mem r.core r.op) := by
  simp only [IsReply, List.mem_cons, Prod.mk.injEq, List.not_mem_nil, or_false] at hi
  rcases hi with ⟨rfl, rfl⟩ | ⟨rfl, rfl⟩ | ⟨rfl, rfl⟩ | ⟨rfl, rfl⟩ | ⟨rfl, rfl⟩
  · exact congrArg (finish s) ((onPacket_taken ht _).trans (by simp only [hf, if_neg hk]; rfl))
  · omega
  · omega
  · exact congrArg (finish s) ((onPacket_taken ht _).trans (by simp only [hf, if_neg hk]; rfl))
  · omega

theorem exec_writeAck (ht : Taken s p 5 1 d) (hf : boardFind d p = some r) : exec (.writeAck p) s = finish s
    (if r.kind = 4 then bar2Resume (boardRetire d r) s.mem else (opAnswered (boardRetire d r) r (fun o => o), [])) :=
  congrArg (finish s) ((onPacket_taken ht _).trans (by simp only [hf]))

theorem exec_signalAck (ht : Taken s p 5 2 d) (hf : boardFind d p = some r) :
    exec (.signalAck p) s = finish s (boardRetire d r, []) :=
  congrArg (finish s) ((onPacket_taken ht _).trans (by simp only [hf]))

theorem exec_lsReplyFault (ht : Taken s p 5 4 d) (hf : boardFind d p = some r) (hk : r.kind ≤ 1) : exec (.lsReplyFault p) s =
    finish s (opAnswered (boardRetire d r) r (opReply p 4 r), []) := by
  refine congrArg (finish s) ((onPacket_taken ht _).trans ?_)
  dsimp only
  rw [hf]
  dsimp only
  rw [if_neg (by omega), if_neg (by omega), boardFault, if_neg (by omega)]
  rfl

/-! ### Host reads of a peer (R335, R503) -/

/-- A read that still waits for other lines keeps what has come. -/
theorem read_goes_on (e : Dev) (num : Nat) (g : PeerRead → PeerRead) (z : PeerRead)
    (h : e.host.peerReads.find? (fun q => q.num == num) = some z) (hl : (g { z with left := z.left - 1 }).left ≠ 0)
    (hn : (g { z with left := z.left - 1 }).num = num) :
    (peerReadLine e num g).out = e.out ∧
      (peerReadLine e num g).host.peerReads.find? (fun q => q.num == num) = some (g { z with left := z.left - 1 }) := by
  rw [peerReadLine_eq e num g z h]
  dsimp only
  rw [if_pos hl]
  exact ⟨rfl, find_readsAfter num _ z _ hn hl h⟩

theorem readReply_left (q : PeerRead) : (readReply p sub r q).left = q.left := by unfold readReply; split <;> rfl
theorem readReply_num (q : PeerRead) : (readReply p sub r q).num = q.num := by unfold readReply; split <;> rfl

theorem reply_read_goes_on (hi : IsReply p sub i) (ht : Taken s p 5 sub d) (hf : boardFind d p = some r) (z : PeerRead)
    (hk : r.kind = 3) (hz : d.host.peerReads.find? (fun q => q.num == r.op) = some z) (hl : 2 ≤ z.left)
    (hs : sub = 0 ∨ sub = 3 ∨ sub = 4) :
    Does i s (fun t => t.mem = s.mem ∧ t.dev.out = (boardRetire d r).out ∧
      ∃ y, t.dev.host.peerReads.find? (fun q => q.num == r.op) = some y ∧ y.left = z.left - 1 ∧
        y.refused = (if sub = 4 then some (payNat p 0 1) else z.refused) ∧ y.bad = (z.bad || sub == 3) ∧
        (sub = 0 → ∀ j, j < (p.payload.take r.len).length →
          smapFind y.got (r.addr + j) = (p.payload.take r.len)[j]?)) := by
  have hnum : z.num = r.op := by simpa using List.find?_some hz
  obtain ⟨hout, hfind⟩ := read_goes_on (boardRetire d r) r.op (readReply p sub r) z (by rwa [boardRetire_host])
    (by rw [readReply_left]; show z.left - 1 ≠ 0; omega) (by rw [readReply_num]; exact hnum)
  refine does_finish (exec_reply_read hi ht hf hk hs) ⟨rfl, hout, _, hfind, readReply_left _, ?_, ?_, ?_⟩
  · rcases hs with rfl | rfl | rfl <;> rfl
  · rcases hs with rfl | rfl | rfl <;> simp [readReply]
  · rintro rfl j hj
    exact smapFind_landed_at _ _ _ _ hj

/-- The last line of a read that no line was lost or refused of: the host has its answer. -/
theorem read_ends (e : Dev) (num : Nat) (g : PeerRead → PeerRead) (z : PeerRead)
    (h : e.host.peerReads.find? (fun q => q.num == num) = some z) (hl : (g { z with left := z.left - 1 }).left = 0)
    (hlost : (g { z with left := z.left - 1 }).lost = false) : peerReadLine e num g =
      readAnswer (withRead e num (g { z with left := z.left - 1 })) (g { z with left := z.left - 1 }) := by
  rw [peerReadLine_eq e num g z h]
  dsimp only
  rw [if_neg (by simp [hl]), hlost, if_neg Bool.false_ne_true]

theorem bar2Refuse_plain (e : Dev) {reason : Nat} (h : reason ≠ 3) : bar2Refuse e reason = emit e (.bar2 false false []) := by
  rw [bar2Refuse, if_neg h]

/-- A refusal for a band in the other view is recorded (R25). -/
theorem bar2Refuse_view {a e : Dev} (h : e.rcd = a.rcd) : Records a (bar2Refuse e 3) 0x0522 0x05FF ∧
    ∃ o, (bar2Refuse e 3).out = o ++ [.bar2 false false []] := by
  refine ⟨?_, _, rfl⟩
  have hrec := records_postRecord e (recOf 0x0522 2 0xFF []) (by decide)
  rw [Records, h] at hrec
  exact hrec

theorem reply_read_ends (hi : IsReply p sub i) (ht : Taken s p 5 sub d) (hf : boardFind d p = some r) (z : PeerRead)
    (hk : r.kind = 3) (hz : d.host.peerReads.find? (fun q => q.num == r.op) = some z) (hl : z.left = 1) (hlost : z.lost = false)
    (hrefused : z.refused = none) :
    (sub = 0 → z.bad = false → Does i s (fun t => t.mem = s.mem ∧ t.dev.out = (boardRetire d r).out ++
      [.bar2 true false ((rangeFrom z.addr z.len).map (fun a => smapGet (landed (p.payload.take r.len) r.addr z.got) a 0#8))])) ∧
    (sub = 3 ∨ sub = 0 ∧ z.bad = true → Does i s (fun t => t.mem = s.mem ∧ t.dev.out = (boardRetire d r).out ++
      [.bar2 true true (List.replicate z.len 0#8)])) ∧
    (sub = 4 → payNat p 0 1 ≠ 3 → Does i s (fun t => t.mem = s.mem ∧ t.dev.out = (boardRetire d r).out ++ [.bar2 false false []])) ∧
    (sub = 4 → payNat p 0 1 = 3 → Does i s (fun t => t.mem = s.mem ∧ Records (boardRetire d r) t.dev 0x0522 0x05FF ∧
      ∃ o, t.dev.out = o ++ [.bar2 false false []])) := by
  have hz' : (boardRetire d r).host.peerReads.find? (fun q => q.num == r.op) = some z := by rwa [boardRetire_host]
  have hleft : (readReply p sub r { z with left := z.left - 1 }).left = 0 := by rw [readReply_left]; show z.left - 1 = 0; omega
  have hl' : (readReply p sub r { z with left := z.left - 1 }).lost = false := by
    unfold readReply; split <;> exact hlost
  have hexec := exec_reply_read hi ht hf hk
  have hends := read_ends (boardRetire d r) r.op (readReply p sub r) z hz' hleft hl'
  generalize boardRetire d r = e at hexec hends
  refine ⟨?_, ?_, ?_, ?_⟩
  · rintro rfl hb
    refine does_finish (hexec (by omega)) ⟨rfl, ?_⟩
    rw [after_dev, hends]
    simp only [readAnswer, readReply, hrefused, hb, Bool.false_eq_true, if_false]
    rfl
  · rintro (rfl | ⟨rfl, hb⟩)
    · refine does_finish (hexec (by omega)) ⟨rfl, ?_⟩
      rw [after_dev, hends]
      simp only [readAnswer, readReply, hrefused, if_true]
      rfl
    · refine does_finish (hexec (by omega)) ⟨rfl, ?_⟩
      rw [after_dev, hends]
      simp only [readAnswer, readReply, hrefused, hb, if_true]
      rfl
  · rintro rfl hreason
    refine does_finish (hexec (by omega)) ⟨rfl, ?_⟩
    rw [after_dev, hends]
    simp only [readAnswer, readReply]
    rw [bar2Refuse_plain _ hreason]
    rfl
  · rintro rfl hreason
    refine does_finish (hexec (by omega)) ⟨rfl, ?_⟩
    rw [after_dev, hends]
    simp only [readAnswer, readReply, hreason]
    exact bar2Refuse_view rfl

/-! ### Acknowledgements and long operations (R77, R337, R338) -/

theorem bar2Resume_idle (e : Dev) (m : Mem) (h : bar2Busy e = true ∨ e.host.reads = []) : bar2Resume e m = (e, []) := by
  unfold bar2Resume
  split
  · rfl
  · rename_i hb
    rcases h with h | h
    · exact absurd h hb
    · rw [h, bar2ReadAll]
      exact congrArg (fun l => ({ e with host := { e.host with reads := l } }, ([] : List MemOp))) h.symm

/-- A reply that a long operation waited for, with others still awaited. -/
theorem reply_op (hi : IsReply p sub i) (ht : Taken s p 5 sub d) (hf : boardFind d p = some r) (o : LongOp)
    (ho : opOf (coreOf d r.core) r.op = some o) (ha : 2 ≤ o.awaiting)
    (hk : (sub = 0 ∨ sub = 3) ∧ r.kind = 0 ∨ sub = 1 ∧ r.kind = 1 ∨ sub = 4 ∧ r.kind ≤ 1) :
    Does i s (fun t => t.mem = s.mem ∧
      opOf (coreOf t.dev r.core) r.op = some (opReply p sub r { o with awaiting := o.awaiting - 1 })) := by
  have hop := opOf_opAnswered d r (opReply p sub r) o (opReply_id p sub r) ho
  rcases hk with ⟨hs, hk⟩ | ⟨rfl, hk⟩ | ⟨rfl, hk⟩
  · have hwait : (opReply p sub r { o with awaiting := o.awaiting - 1 }).awaiting ≠ 0 := by
      have hsame : (opReply p sub r { o with awaiting := o.awaiting - 1 }).awaiting = o.awaiting - 1 := by
        unfold opReply; split <;> rfl
      omega
    have hexec := exec_reply_data hi ht hf (by omega : r.kind ≠ 3) hs
    rw [boardDataDone_waits _ _ _ _ _ hop hwait] at hexec
    exact does_finish hexec ⟨rfl, hop⟩
  · obtain rfl : i = .writeAck p := by simpa [IsReply] using hi
    have hexec := exec_writeAck ht hf
    rw [if_neg (by omega)] at hexec
    exact does_finish hexec ⟨rfl, hop⟩
  · obtain rfl : i = .lsReplyFault p := by simpa [IsReply] using hi
    exact does_finish (exec_lsReplyFault ht hf hk) ⟨rfl, hop⟩

end

/-- Settles O33, clause by clause. -/
theorem boardRepliesComplete : Obligations.BoardRepliesComplete := by
  intro p s d sub i hi ht
  refine ⟨fun hf => does_finish (exec_reply_unknown hi ht hf) ⟨rfl, rfl⟩, fun r hf => ⟨?_, ?_, ?_, ?_, ?_, ?_⟩⟩
  · exact boardRetire_length d r (List.mem_of_find?_eq_some hf)
  · exact fun z hk hz hl hs => reply_read_goes_on hi ht hf z hk hz hl hs
  · exact fun z hk hz hl hlost hrefused => reply_read_ends hi ht hf z hk hz hl hlost hrefused
  · rintro rfl hk hidle
    obtain rfl : i = .writeAck p := by simpa using hi
    have hexec := exec_writeAck ht hf
    rw [if_pos hk, bar2Resume_idle _ _ hidle] at hexec
    exact does_finish hexec ⟨rfl, rfl⟩
  · rintro rfl
    obtain rfl : i = .signalAck p := by simpa using hi
    exact does_finish (exec_signalAck ht hf) ⟨rfl, rfl⟩
  · intro o ho ha
    have hreply := fun hk => reply_op hi ht hf o ho ha hk
    refine ⟨?_, ?_, ?_, ?_⟩
    · rintro rfl hk
      obtain ⟨t, he, hp, hm, hq⟩ := hreply (.inl ⟨.inl rfl, hk⟩)
      exact ⟨t, he, hp, hm, _, hq, rfl, fun j hj => smapFind_landed_at _ _ _ _ hj⟩
    · rintro rfl hk
      obtain ⟨t, he, hp, hm, hq⟩ := hreply (.inl ⟨.inr rfl, hk⟩)
      exact ⟨t, he, hp, hm, _, hq, rfl, rfl⟩
    · rintro rfl hk
      obtain ⟨t, he, hp, hm, hq⟩ := hreply (.inr (.inl ⟨rfl, hk⟩))
      exact ⟨t, he, hp, hm, _, hq, rfl⟩
    · rintro rfl hk hfault
      obtain ⟨t, he, hp, hm, hq⟩ := hreply (.inr (.inr ⟨rfl, hk⟩))
      refine ⟨t, he, hp, hm, _, hq, rfl, ?_⟩
      show orFault o.fault (some (replyFault p r)) = _
      rw [hfault]
      rfl

end Sys2Proof.Machine
end

section
/-! SUPPORT. What the ends of waits and contexts leave alone: a core wake event, an end of work or a fault changes no word of a
core's block, no time, no collective or stream, and makes no context wait in SWAIT (R93, R136, R262 to R265, R513, R516, R541). -/

namespace Sys2Proof.Machine

/-- From `a` to `t` no word of a core's block has changed, nor time, nor the network interface but for packets to be injected;
and no context waits in SWAIT that did not before. -/
def Calm (a t : Dev) : Prop :=
  (∀ off, inCoreBlock off = true → regGet t off = regGet a off) ∧ t.tm = a.tm ∧ t.ni = { a.ni with inject := t.ni.inject } ∧
    ∀ n, NoSwait a n → NoSwait t n

theorem calm_refl (a : Dev) : Calm a a := ⟨fun _ _ => rfl, rfl, rfl, fun _ h => h⟩

theorem Calm.trans {a b c : Dev} (h : Calm a b) (g : Calm b c) : Calm a c := by
  obtain ⟨hr, ht, hn, hw⟩ := h
  obtain ⟨gr, gt, gn, gw⟩ := g
  refine ⟨fun off ho => (gr off ho).trans (hr off ho), gt.trans ht, ?_, fun n h0 => gw n (hw n h0)⟩
  calc c.ni = { b.ni with inject := c.ni.inject } := gn
    _ = { a.ni with inject := c.ni.inject } := by rw [hn]

theorem Calm.noSwait {a t : Dev} (h : Calm a t) {n : Nat} (hn : NoSwait a n) : NoSwait t n := by
  obtain ⟨-, -, -, hw⟩ := h
  exact hw n hn

theorem Calm.evGet_eq {a t : Dev} (h : Calm a t) {n k : Nat} (hn : n < 256) (hk : k < 64) : evGet t n k = evGet a n k := by
  refine regNat_congr (h.1 _ (decide_eq_true ?_))
  have := coreOff_bounds hn (by omega : 0x400 + 4 * k < 0x1000)
  unfold coreBase coreEnd
  omega

theorem Calm.drainOver_eq {a t : Dev} (h : Calm a t) (peer : Nat) : drainOver t peer = drainOver a peer := by
  obtain ⟨-, ht, hn, -⟩ := h
  have hd : t.ni.draining = a.ni.draining := by rw [hn]
  have hb : t.ni.drainBy = a.ni.drainBy := by rw [hn]
  rw [drainOver, drainOver, gtimeNs, gtimeNs, hd, hb, ht]

/-! ### One change at a time -/

theorem not_report_of_core {off : Nat} (h : inCoreBlock off = true) : off ∉ reportOffs := by
  have hb := of_decide_eq_true h
  unfold coreBase coreEnd at hb
  simp only [reportOffs, List.mem_cons, List.not_mem_nil, or_false]
  omega

theorem noSwait_congr {a t : Dev} (h : t.cores = a.cores) (n : Nat) (hn : NoSwait a n) : NoSwait t n := by
  intro e he k v dec
  rw [coreOf, h]
  exact hn e he k v dec

theorem Reports.calm {a t : Dev} (h : Reports a t) : Calm a t :=
  ⟨fun _ ho => h.regGet_eq (not_report_of_core ho), h.tm_eq, h.ni_eq, noSwait_congr h.cores_eq⟩

theorem calm_regPut (d : Dev) (off : Nat) (v : W32) (h : inCoreBlock off = false) : Calm d (regPut d off v) :=
  ⟨fun j hj => regGet_regPut_other d off j v (fun e => by rw [e, h] at hj; exact Bool.false_ne_true hj), rfl, rfl, fun _ hn => hn⟩

theorem calm_host (d : Dev) (h : HostState) : Calm d { d with host := h } := ⟨fun _ _ => rfl, rfl, rfl, fun _ hn => hn⟩

theorem calm_pwr (d : Dev) (p : PwrState) : Calm d { d with pwr := p } := ⟨fun _ _ => rfl, rfl, rfl, fun _ hn => hn⟩

/-- A core changed beside its contexts. -/
theorem calm_modCore (d : Dev) (n : Nat) (g : Core → Core) (hg : ∀ k, (g k).ctxs = k.ctxs) : Calm d (modCore d n g) := by
  refine ⟨fun _ _ => rfl, rfl, rfl, fun m hm e he k v dec => ?_⟩
  have hctx : ctxOf (coreOf (modCore d n g) m) e = ctxOf (coreOf d m) e := by
    by_cases h : m = n
    · subst h
      rw [coreOf_modCore_same, ctxOf, hg, ctxOf]
    · rw [coreOf_modCore_other _ _ _ _ h]
  rw [hctx]
  exact hm e he k v dec

/-- A context changed without beginning to wait in SWAIT. -/
theorem calm_modCtx (d : Dev) (n c : Nat) (g : Ctx → Ctx) (hg : ∀ x, (g x).wait = x.wait ∨ (g x).wait = .none) :
    Calm d (modCtx d n c g) := by
  refine ⟨fun _ _ => rfl, rfl, rfl, fun m hm e he k v dec => ?_⟩
  by_cases h : m = n
  · subst h
    rw [coreOf_modCtx_same]
    by_cases hc : e = c
    · subst hc
      rw [ctxOf_setCtx_same]
      rcases hg (ctxOf (coreOf d m) e) with h1 | h1
      · rw [h1]
        exact hm e he k v dec
      · rw [h1]
        exact fun h2 => Wait.noConfusion h2
    · rw [ctxOf_setCtx_other _ _ _ _ hc]
      exact hm e he k v dec
  · rw [coreOf_modCtx_other _ _ _ _ _ h]
    exact hm e he k v dec

/-! ### Completion queues (R511 to R516) -/

theorem calm_cqWrite (d : Dev) (q : Nat) (e : CqEntry) (hq : q < 16) : Calm d (cqWrite d q e) := by
  have hoff : inCoreBlock (qOff q + 0x24) = false :=
    decide_eq_false (by unfold qOff coreBase coreEnd; omega)
  have written : ∀ (a : Nat) (bs : List Byte) (v : Nat), Calm d (regPutField (hostWrite d a bs) (qOff q + 0x24) 0 16 v) :=
    fun a bs v => (reports_hostWrite d a bs).calm.trans (calm_regPut _ _ _ hoff)
  unfold cqWrite
  dsimp only
  split
  · exact ((written _ _ _).trans (calm_host _ _)).trans (reports_raiseVector _ _).calm
  · exact (written _ _ _).trans (calm_host _ _)

theorem calm_pushCq (d : Dev) (q : Nat) (e : CqEntry) : Calm d (pushCq d q e) := by
  unfold pushCq
  split
  · exact (reports_queueAt d _ _).calm
  · split
    · exact calm_host d _
    · exact calm_cqWrite d q e (by omega)

theorem calm_releaseFences (d : Dev) (q : Nat) (l : List HostCmd) : Calm d (releaseFences d q l) := by
  induction l generalizing d with
  | nil => exact calm_host d _
  | cons c t ih =>
    unfold releaseFences
    split
    · split
      · exact ((calm_host d _).trans (calm_pushCq _ _ _)).trans (ih _)
      · exact calm_refl d
    · exact ih d

theorem calm_completeRunning (d : Dev) (c : HostCmd) (status : Nat) : Calm d (completeRunning d c status) :=
  ((calm_host d _).trans (calm_pushCq _ _ _)).trans (calm_releaseFences _ _ _)

/-! ### Contexts (R136, R137, R513, R516) -/

theorem calm_ctxEndEntry (d : Dev) (n c status code seq : Nat) : Calm d (ctxEndEntry d n c status code seq) := by
  unfold ctxEndEntry
  dsimp only
  split
  · exact (calm_pushCq d _ _).trans (calm_modCtx _ _ _ _ fun _ => .inl rfl)
  · exact calm_refl d

theorem settleBeat_ctxs (k : Core) : (settleBeat k).ctxs = k.ctxs := by unfold settleBeat; split <;> rfl

theorem calm_endCtx (d : Dev) (n c st status code seq : Nat) : Calm d (endCtx d n c st status code seq) :=
  ((calm_modCtx d n c _ fun _ => .inr rfl).trans (calm_ctxEndEntry _ _ _ _ _ _)).trans
    (calm_modCore _ n _ fun k => (settleBeat_ctxs _).trans (settleCtx_ctxs k))

theorem calm_faultCtx (d : Dev) (n c pc ev cls : Nat) (detail : List Byte) : Calm d (faultCtx d n c pc ev cls detail) := by
  have hrec := (reports_postRecord d (coreRec n c pc ev cls detail)).calm
  unfold faultCtx
  dsimp only
  split
  · exact hrec.trans (calm_endCtx _ _ _ _ _ _ _)
  · exact hrec

theorem calm_advanceCtx (d : Dev) (n c : Nat) : Calm d (advanceCtx d n c) := by
  unfold advanceCtx
  dsimp only
  split
  · exact calm_modCtx d n c _ fun _ => .inr rfl
  · exact (calm_modCtx d n c _ fun _ => .inr rfl).trans (calm_faultCtx _ _ _ _ _ _ _)

theorem calm_settleStops (d : Dev) (n : Nat) (cs : List Nat) : Calm d (settleStops d n cs) := by
  induction cs generalizing d with
  | nil => exact calm_refl d
  | cons c t ih =>
    unfold settleStops
    dsimp only
    split
    · exact (calm_endCtx d n c 7 10 0 0).trans (ih _)
    · exact ih d

theorem calm_settleStopCmds (d : Dev) (l : List HostCmd) : Calm d (settleStopCmds d l) := by
  induction l generalizing d with
  | nil => exact calm_refl d
  | cons h t ih =>
    unfold settleStopCmds
    dsimp only
    split
    · exact (calm_completeRunning d h 0).trans (ih _)
    · exact ih d

/-! ### Beats (R100, R263, R540) -/

theorem setSreg_wait (x : Ctx) (i : Nat) (v : W64) : (setSreg x i v).wait = x.wait := by unfold setSreg; split <;> rfl

theorem calm_endSbeats (d : Dev) (n num : Nat) (cs : List Nat) : Calm d (endSbeats d n num cs) := by
  induction cs generalizing d with
  | nil => exact calm_refl d
  | cons c t ih =>
    unfold endSbeats
    split
    · exact ((calm_modCtx d n c _ fun x => .inl (setSreg_wait x _ _)).trans (calm_advanceCtx _ _ _)).trans (ih _)
    · exact ih d

theorem calm_settleBeatEnd (d : Dev) (n : Nat) : Calm d (settleBeatEnd d n) := by
  unfold settleBeatEnd
  dsimp only
  split
  · split
    · refine Calm.trans ?_ (calm_endSbeats _ _ _ _)
      exact calm_modCore d n _ fun _ => rfl
    · exact calm_modCore d n _ fun _ => rfl
  · split
    · exact calm_modCore d n _ fun _ => rfl
    · exact calm_refl d

theorem calm_gateIdle (d : Dev) (n : Nat) : Calm d (gateIdle d n) := by
  unfold gateIdle
  dsimp only
  split
  · exact calm_modCore d n (fun k => { k with gated := true }) fun _ => rfl
  · exact calm_refl d

theorem calm_afterWork (d : Dev) (n : Nat) : Calm d (afterWork d n) :=
  (((calm_settleStops d n _).trans (calm_settleStopCmds _ _)).trans (calm_settleBeatEnd _ n)).trans (calm_gateIdle _ n)

theorem calm_goOn (d : Dev) (n c : Nat) : Calm d (goOn d n c) := by
  have hadv := calm_advanceCtx d n c
  unfold goOn
  dsimp only
  split
  · exact hadv.trans (calm_afterWork _ n)
  · split
    · exact hadv.trans (calm_settleBeatEnd _ n)
    · exact hadv

/-! ### Core wake events (R541, R542) -/

theorem calm_leaveWaitm (d : Dev) (n : Nat) (cs : List Nat) : Calm d (leaveWaitm d n cs) := by
  induction cs generalizing d with
  | nil => exact calm_refl d
  | cons c t ih =>
    unfold leaveWaitm
    split
    · exact (calm_goOn d n c).trans (ih _)
    · exact ih d

theorem calm_beginExit (d : Dev) (src : Nat) : Calm d (beginExit d src) := by
  unfold beginExit
  dsimp only
  split
  · exact (calm_pwr d _).trans (reports_emit _ _).calm
  · exact calm_pwr d _

theorem calm_wakeDevice (d : Dev) (src : Nat) : Calm d (wakeDevice d src) := by
  unfold wakeDevice
  split
  · exact calm_refl d
  · split
    · split
      · exact calm_refl d
      · exact calm_pwr d _
    · split
      · exact calm_refl d
      · exact calm_beginExit d src

theorem calm_abandonEntry (d : Dev) (unit reason : Nat) : Calm d (abandonEntry d unit reason) :=
  (((calm_regPut d 0x380000C _ (by decide)).trans (calm_regPut _ 0x3800010 _ (by decide))).trans (calm_pwr _ _)).trans
    (reports_postRecord _ _).calm

theorem calm_wakeCore (d : Dev) (n : Nat) : Calm d (wakeCore d n) := by
  have hleave : Calm d (leaveWaitm (modCore d n (fun k => { k with gated := false })) n (rangeFrom 0 8)) :=
    (calm_modCore d n (fun k => { k with gated := false }) fun _ => rfl).trans (calm_leaveWaitm _ _ _)
  unfold wakeCore
  dsimp only
  split
  · exact hleave.trans (calm_abandonEntry _ _ _)
  · split
    · exact hleave.trans (calm_wakeDevice _ _)
    · exact hleave

/-! ### Event counters (R88, R102) -/

/-- Where no context waits in SWAIT, a counter's change ends no wait. -/
theorem settleSwaits_idle (d : Dev) (n k : Nat) (cs : List Nat) (hn : NoSwait d n) (hc : ∀ c ∈ cs, c < 8) :
    settleSwaits d n k cs = d := by
  induction cs with
  | nil => rfl
  | cons c t ih =>
    unfold settleSwaits
    split
    · rename_i k' v dec hw
      exact absurd hw (hn c (hc c (by simp)) k' v dec)
    · exact ih fun e he => hc e (by simp [he])

/-- The device whose event counter `k` of core `n` has `inc` added, which saturates (R88). -/
def addedEvent (d : Dev) (n k inc : Nat) : Dev :=
  let off := coreOff n (0x400 + 4 * k)
  let v := regNat d off + inc
  if v > 0xFFFFFFFF then regPutField (regPutNat d off 0xFFFFFFFF) (coreOff n (0x500 + 4 * (k / 32))) (k % 32) 1 1
  else regPutNat d off v

theorem addEvent_eq (d : Dev) (n k inc : Nat) :
    addEvent d n k inc = settleSwaits (wakeCore (addedEvent d n k inc) n) n k (rangeFrom 0 8) := rfl

theorem addedEvent_cores (d : Dev) (n k inc : Nat) : (addedEvent d n k inc).cores = d.cores := by
  unfold addedEvent
  dsimp only
  split <;> rfl

theorem drainOver_addedEvent (d : Dev) (n k inc peer : Nat) : drainOver (addedEvent d n k inc) peer = drainOver d peer := by
  unfold addedEvent
  dsimp only
  split <;> rfl

theorem evGet_addedEvent (d : Dev) (n k inc : Nat) (hk : k < 64) :
    evGet (addedEvent d n k inc) n k = min (evGet d n k + inc) 0xFFFFFFFF := by
  unfold addedEvent evGet
  dsimp only
  generalize hoff : coreOff n (0x400 + 4 * k) = off
  have hne : off ≠ coreOff n (0x500 + 4 * (k / 32)) := hoff ▸ coreOff_ne (by omega)
  generalize coreOff n (0x500 + 4 * (k / 32)) = o at hne ⊢
  split
  · rw [regNat_congr (regGet_regPutField_other _ _ _ _ _ _ hne), regNat_regPutNat_same]
    omega
  · rw [regNat_regPutNat_same]
    omega

/-- Where no context waits in SWAIT, a signal adds to its counter and ends no drain. -/
theorem addEvent_idle (d : Dev) (n k inc : Nat) (hn : n < 256) (hk : k < 64) (hw : NoSwait d n) :
    evGet (addEvent d n k inc) n k = min (evGet d n k + inc) 0xFFFFFFFF ∧
      ∀ peer, drainOver (addEvent d n k inc) peer = drainOver d peer := by
  have hcalm := calm_wakeCore (addedEvent d n k inc) n
  rw [addEvent_eq, settleSwaits_idle _ _ _ _ (hcalm.noSwait (noSwait_congr (addedEvent_cores d n k inc) n hw))
    fun c hc => by have := (mem_rangeFrom _ _ _).1 hc; omega]
  exact ⟨(hcalm.evGet_eq hn hk).trans (evGet_addedEvent d n k inc hk),
    fun peer => (hcalm.drainOver_eq peer).trans (drainOver_addedEvent d n k inc peer)⟩

end Sys2Proof.Machine
end

section
/-! CERTIFICATE. O32: board requests are served at their target. -/

namespace Sys2Proof.Machine

/-! ### What an access depends on (R25, R28, R336) -/

/-- Why an access fails is said by the part, the cores and the band words. -/
theorem accessReason_congr {a t : Dev} (hb : t.boot = a.boot) (hc : t.cores = a.cores)
    (hr : ∀ k, regGet t (0x2000100 + 4 * k) = regGet a (0x2000100 + 4 * k)) (x len : Nat) :
    accessReason t x len = accessReason a x len := by
  have hpresent : corePresent t = corePresent a := by
    funext n
    rw [corePresent, corePresent, coresTotal, coresTotal, coresPerDie, coresPerDie, coreOf, coreOf, hb, hc]
  have hband : bandLocal t = bandLocal a := by
    funext b
    rw [bandLocal, bandLocal, regNat_congr (hr _)]
  have hclash : viewClash t = viewClash a := by
    funext lo hi
    rw [viewClash, viewClash, bandsClash, bandsClash, bandsClash, bandsClash, hband]
  unfold accessReason
  rw [hb, hpresent, hclash]

/-- A present core is one of at most 192. -/
theorem core_lt_of_present {d : Dev} {n : Nat} (h : corePresent d n = true) : n < 192 := by
  have hlt : n < coresTotal d := by
    rw [corePresent, Bool.and_eq_true] at h
    exact of_decide_eq_true h.1
  unfold coresTotal coresPerDie at hlt
  split at hlt
  · omega
  · split at hlt <;> omega

/-! ### Answers (R336, R338) -/

/-- The answer to a store or a signal, as a packet. -/
theorem replies_answerReq {a d : Dev} (p : Packet) (sub ans : Nat) (h : drainOver d p.src = false)
    (hi : d.ni.inject = a.ni.inject) :
    if ans = 0 then Replies a (answerReq d p sub ans) p sub (leBytes 8 0)
      else Replies a (answerReq d p sub ans) p 4 (leBytes 8 (if ans = 5 then 1 else ans)) := by
  split
  · rename_i h0
    rw [h0, answerReq_ok]
    exact replies_sendReply p sub _ h hi
  · rename_i h0
    rw [answerReq_fault d p sub h0]
    exact replies_sendReply p 4 _ h hi

/-- A request answered as the first of its number: what is remembered, and what has changed. -/
theorem boardSeen_answered (d : Dev) (p : Packet) (sub ans : Nat) :
    boardSeen (answerReq (boardTaken d p ans) p sub ans) p = some ans :=
  (boardSeen_answerReq _ p sub ans).trans (boardSeen_boardTaken d p ans)

theorem regGet_answered (d : Dev) (p : Packet) (sub ans off : Nat) :
    regGet (answerReq (boardTaken d p ans) p sub ans) off = regGet d off := by
  obtain ⟨hregs, -, -⟩ := answerReq_keeps (boardTaken d p ans) p sub ans
  rw [regGet, hregs]
  rfl

theorem cores_answered (d : Dev) (p : Packet) (sub ans : Nat) :
    (answerReq (boardTaken d p ans) p sub ans).cores = d.cores := by
  obtain ⟨-, hcores, -⟩ := answerReq_keeps (boardTaken d p ans) p sub ans
  exact hcores

/-- An acknowledgement joins the packets to be injected, whatever else has. -/
theorem ack_injected (d : Dev) (p : Packet) (sub : Nat) (h : drainOver d p.src = false) :
    ∃ z ∈ (answerReq (boardTaken d p 0) p sub 0).ni.inject,
      z.2.typ = 5 ∧ z.2.sub = sub ∧ z.2.dst = p.src ∧ z.2.seq = p.seq := by
  obtain ⟨port, q, hq, htyp, hsub, hdst, hseq, -⟩ := replies_sendReply (a := d) (d := boardTaken d p 0) p sub (leBytes 8 0) h rfl
  rw [answerReq_ok, hq]
  exact ⟨(port, q), by simp, htyp, hsub, hdst, hseq⟩

section
variable {p : Packet} {s : State} {d : Dev}

/-- A duplicate is answered as it was. -/
theorem answered_again (sub ans : Nat) (hdrain : drainOver d p.src = false) :
    (answerReq (boardDup d) p sub ans).cores = d.cores ∧ Counts d (answerReq (boardDup d) p sub ans) 0x1100024 ∧
      if ans = 0 then Replies d (answerReq (boardDup d) p sub ans) p sub (leBytes 8 0)
        else Replies d (answerReq (boardDup d) p sub ans) p 4 (leBytes 8 (if ans = 5 then 1 else ans)) := by
  obtain ⟨hregs, hcores, -⟩ := answerReq_keeps (boardDup d) p sub ans
  refine ⟨hcores, ?_, replies_answerReq p sub ans hdrain rfl⟩
  have hcount := counts_boardDup d
  rwa [Counts, ← regNat_congr (b := answerReq (boardDup d) p sub ans) (by rw [regGet, hregs]; rfl)] at hcount

/-- A request that fails is answered with FAULT and its reason, which is remembered. -/
theorem answered_fault (sub : Nat) {r : Nat} (hr : r ≠ 0) (hdrain : drainOver d p.src = false) :
    (answerReq (boardTaken d p r) p sub r).cores = d.cores ∧ boardSeen (answerReq (boardTaken d p r) p sub r) p = some r ∧
      Replies d (answerReq (boardTaken d p r) p sub r) p 4 (leBytes 8 (if r = 5 then 1 else r)) := by
  have hreply := replies_answerReq (a := d) (d := boardTaken d p r) p sub r hdrain rfl
  rw [if_neg hr] at hreply
  exact ⟨cores_answered d p sub r, boardSeen_answered d p sub r, hreply⟩

/-! ### Loads (R336) -/

/-- The target once a load request is consumed. -/
def readTaken (d : Dev) (p : Packet) : Dev := if (boardSeen d p).isSome then boardDup d else boardTaken d p 0

/-- A load consumed changes nothing that its answer depends on. -/
theorem readTaken_keeps (d : Dev) (p : Packet) : drainOver (readTaken d p) p.src = drainOver d p.src ∧
    (readTaken d p).ni.inject = d.ni.inject ∧ (∀ a len, accessReason (readTaken d p) a len = accessReason d a len) ∧
    ∀ m a len, rangeBad (readTaken d p) m a len = rangeBad d m a len := by
  unfold readTaken
  split
  · exact ⟨rfl, rfl, accessReason_congr rfl rfl fun k => regGet_regPut_other _ _ _ _ (by omega), fun _ _ _ => rfl⟩
  · exact ⟨rfl, rfl, accessReason_congr rfl rfl fun _ => rfl, fun _ _ _ => rfl⟩

theorem exec_lsRead_served (ht : Taken s p 3 0 d) (h1 : 1 ≤ payNat p 0 2) (h2 : payNat p 0 2 ≤ 256)
    (hr : accessReason (readTaken d p) p.offset (payNat p 0 2) = 0) : exec (.lsRead p []) s = finish s
      (if rangeBad (readTaken d p) s.mem p.offset (payNat p 0 2) then
         sendReply (readTaken d p) p 3 (List.replicate (payNat p 0 2) 0#8)
       else sendReply (readTaken d p) p 0 (readAt s.mem p.offset (payNat p 0 2)), []) := by
  refine congrArg (finish s) ((onPacket_taken ht _).trans ?_)
  change (if payNat p 0 2 = 0 ∨ 256 < payNat p 0 2 then _
    else if accessReason (readTaken d p) p.offset (payNat p 0 2) != 0 then _ else _) = _
  rw [if_neg (by omega), hr, if_neg (by decide)]
  rfl

theorem exec_lsRead_refused (errs : List MemErr) (ht : Taken s p 3 0 d) (h1 : 1 ≤ payNat p 0 2) (h2 : payNat p 0 2 ≤ 256)
    (hr : accessReason (readTaken d p) p.offset (payNat p 0 2) ≠ 0) : exec (.lsRead p errs) s = finish s
      (faultReply (readTaken d p) p (accessReason (readTaken d p) p.offset (payNat p 0 2)), []) := by
  refine congrArg (finish s) ((onPacket_taken ht _).trans ?_)
  change (if payNat p 0 2 = 0 ∨ 256 < payNat p 0 2 then _
    else if accessReason (readTaken d p) p.offset (payNat p 0 2) != 0 then _ else _) = _
  rw [if_neg (by omega), if_pos (by simpa using hr)]
  rfl

/-! ### Stores (R217, R337, R338) -/

theorem exec_lsWrite_again (errs : List MemErr) {ans : Nat} (ht : Taken s p 4 0 d) (hseen : boardSeen d p = some ans) :
    exec (.lsWrite ⟨p, errs⟩) s = finish s (answerReq (boardDup d) p 1 ans, []) :=
  congrArg (finish s) ((onPacket_taken ht _).trans (by simp only [hseen]))

theorem exec_lsWrite_refused (errs : List MemErr) (ht : Taken s p 4 0 d) (hseen : boardSeen d p = none)
    (hr : accessReason d p.offset p.len ≠ 0) : exec (.lsWrite ⟨p, errs⟩) s = finish s
      (answerReq (boardTaken d p (accessReason d p.offset p.len)) p 1 (accessReason d p.offset p.len), []) :=
  congrArg (finish s) ((onPacket_taken ht _).trans (by simp only [hseen, bne_iff_ne, if_pos hr]))

/-- What an accepted store writes: bytes with their poison. -/
def storedBytes (d : Dev) (m : Mem) (p : Packet) : List MemOp × Option Nat :=
  storeCells d m ((p.payload.take p.len).zipIdx.map (fun b => (memKey (p.offset + b.2), b.1, decide (p.epoch = 4))))

/-- The reason with which a store is answered: 4 when some of it was dropped. -/
def dropReason (dropped : Bool) : Nat := if dropped then 4 else 0

theorem exec_lsWrite_bytes (ht : Taken s p 4 0 d) (hseen : boardSeen d p = none) (hr : accessReason d p.offset p.len = 0)
    (he : p.epoch = 0 ∨ p.epoch = 4) : exec (.lsWrite ⟨p, []⟩) s = finish s
      (answerReq (boardTaken d p (dropReason (storedBytes d s.mem p).2.isSome)) p 1
        (dropReason (storedBytes d s.mem p).2.isSome), (storedBytes d s.mem p).1) := by
  refine congrArg (finish s) ((onPacket_taken ht _).trans ?_)
  simp only [hseen, hr, if_pos he, portErrs, memApplyAll_nil, List.nil_append, bne_self_eq_false, Bool.false_eq_true, if_false]
  rfl

theorem exec_lsWrite_accumulates (ht : Taken s p 4 0 d) (hseen : boardSeen d p = none)
    (hr : accessReason d p.offset p.len = 0) (he : ¬ (p.epoch = 0 ∨ p.epoch = 4)) (hf : (accStores d s.mem p).fault = none) :
    exec (.lsWrite ⟨p, []⟩) s = finish s
      (answerReq (boardTaken (accStores d s.mem p).dev p 0) p 1 0, (accStores d s.mem p).ops) := by
  refine congrArg (finish s) ((onPacket_taken ht _).trans ?_)
  simp only [hseen, hr, if_neg he, portErrs, memApplyAll_nil, List.nil_append, bne_self_eq_false, Bool.false_eq_true, if_false,
    hf, Option.isSome_none]

/-- An accumulate-write changes neither time nor the network interface. -/
theorem accElem_keeps (t : TDesc) (a : AccRun) (e : Nat) (v : Nat × Bool) :
    ((accElem t a e v).dev.ni, (accElem t a e v).dev.tm) = (a.dev.ni, a.dev.tm) := by
  have hbump : ∀ (c : Bool) (off : Nat), ((if c then regBump a.dev off 1 else a.dev).ni,
      (if c then regBump a.dev off 1 else a.dev).tm) = (a.dev.ni, a.dev.tm) := fun c off => by cases c <;> rfl
  unfold accElem
  dsimp only
  split
  · rfl
  · split
    · rfl
    · split
      · rfl
      · exact hbump _ _

theorem drainOver_accStores (d : Dev) (m : Mem) (p : Packet) (peer : Nat) :
    drainOver (accStores d m p).dev peer = drainOver d peer := by
  have hkeeps : ((accStores d m p).dev.ni, (accStores d m p).dev.tm) = (d.ni, d.tm) :=
    foldl_keeps (fun a : AccRun => (a.dev.ni, a.dev.tm)) _ _ _ fun a c _ => accElem_keeps _ a c.1 c.2
  obtain ⟨hni, htm⟩ := Prod.mk.inj hkeeps
  rw [drainOver, drainOver, gtimeNs, gtimeNs, hni, htm]

/-! ### Signals (R103, R336) -/

theorem exec_signal_again {ans : Nat} (ht : Taken s p 9 0 d) (hseen : boardSeen d p = some ans) :
    exec (.signal p) s = finish s (answerReq (boardDup d) p 2 ans, []) :=
  congrArg (finish s) ((onPacket_taken ht _).trans (by simp only [hseen]))

theorem exec_signal_absent (ht : Taken s p 9 0 d) (hseen : boardSeen d p = none) (hn : corePresent d (payNat p 0 2) = false) :
    exec (.signal p) s = finish s (answerReq (boardTaken d p 2) p 2 2, []) :=
  congrArg (finish s) ((onPacket_taken ht _).trans (by simp only [hseen, hn, Bool.not_false, if_true]))

theorem exec_signal_counts (ht : Taken s p 9 0 d) (hseen : boardSeen d p = none) (hn : corePresent d (payNat p 0 2) = true) :
    exec (.signal p) s = finish s
      (answerReq (boardTaken (addEvent d (payNat p 0 2) (payNat p 2 1 % 64) (payNat p 4 2)) p 0) p 2 0, []) :=
  congrArg (finish s) ((onPacket_taken ht _).trans (by simp only [hseen, hn, Bool.not_true, Bool.false_eq_true, if_false]))

end

/-- Settles O32: each request in its cases, loads, stores and signals in turn. -/
theorem boardRequestsAreServed : Obligations.BoardRequestsAreServed := by
  intro p s d hdrain
  refine ⟨fun ht => ?_, fun ht => ?_, fun ht => ?_⟩
  · obtain ⟨hover, hinject, hreason, hbad⟩ := readTaken_keeps d p
    rw [← hover] at hdrain
    refine ⟨fun h1 h2 hr => ?_, fun errs r h1 h2 hr h0 => ?_⟩
    · refine does_finish (exec_lsRead_served ht h1 h2 ((hreason _ _).trans hr)) ⟨rfl, fun hb => ?_, fun hb => ?_⟩
      · rw [after_dev, hbad, hb]
        exact replies_sendReply p 0 _ hdrain hinject
      · rw [after_dev, hbad, hb]
        exact replies_sendReply p 3 _ hdrain hinject
    · subst hr
      rw [← hreason] at h0 ⊢
      exact does_finish (exec_lsRead_refused errs ht h1 h2 h0) ⟨rfl, replies_sendReply p 4 _ hdrain hinject⟩
  · refine ⟨fun errs ans hseen => ?_, fun hseen errs r hr h0 => ?_, fun hseen hr => ⟨fun he => ?_, fun h1 h3 hf => ?_⟩⟩
    · exact does_finish (exec_lsWrite_again errs ht hseen) ⟨rfl, answered_again 1 ans hdrain⟩
    · subst hr
      exact does_finish (exec_lsWrite_refused errs ht hseen h0) ⟨rfl, answered_fault 1 h0 hdrain⟩
    · have hexec := exec_lsWrite_bytes ht hseen hr he
      refine does_finish hexec ⟨rfl, fun off => regGet_answered d p 1 _ off, cores_answered d p 1 _, fun hw => ?_, fun hw => ?_⟩
      · rw [after_dev, show dropReason (storedBytes d s.mem p).2.isSome = 0 by rw [storedBytes, hw]; rfl]
        exact ⟨boardSeen_answered d p 1 0, replies_answerReq (a := d) p 1 0 hdrain rfl⟩
      · rw [after_dev, show dropReason (storedBytes d s.mem p).2.isSome = 4 by
          rw [storedBytes, Option.isSome_iff_ne_none.2 hw]; rfl]
        exact ⟨boardSeen_answered d p 1 4, replies_answerReq (a := d) p 1 4 hdrain rfl⟩
    · have he : ¬ (p.epoch = 0 ∨ p.epoch = 4) := by omega
      exact does_finish (exec_lsWrite_accumulates ht hseen hr he hf)
        ⟨rfl, boardSeen_answered _ p 1 0, ack_injected _ p 1 ((drainOver_accStores d s.mem p p.src).trans hdrain)⟩
  · refine ⟨fun ans hseen => ?_, fun hseen hn => ?_, fun hseen hn hw => ?_⟩
    · exact does_finish (exec_signal_again ht hseen) ⟨rfl, answered_again 2 ans hdrain⟩
    · exact does_finish (exec_signal_absent ht hseen hn) ⟨rfl, answered_fault 2 (by decide) hdrain⟩
    · have hlt := core_lt_of_present hn
      obtain ⟨hev, hover⟩ := addEvent_idle d (payNat p 0 2) (payNat p 2 1 % 64) (payNat p 4 2) (by omega) (by omega) hw
      refine does_finish (exec_signal_counts ht hseen hn) ⟨rfl, ?_, ack_injected _ p 2 ((hover p.src).trans hdrain)⟩
      exact (regNat_congr (regGet_answered _ p 2 0 _)).trans hev

end Sys2Proof.Machine
end

section
/-! SUPPORT. A long operation that issues: what it leaves of its core and of the rest of the block (R74, R79, R80). -/

namespace Sys2Proof.Machine

/-! ### Accumulator sets of a core -/

@[simp] theorem activeOf_setActive (k : Core) (a : AccSet) : activeOf (setActive k a) = a := by
  by_cases h : k.activeSet = 0 <;> simp [activeOf, setActive, h]
@[simp] theorem shadowOf_setActive (k : Core) (a : AccSet) : shadowOf (setActive k a) = shadowOf k := by
  by_cases h : k.activeSet = 0 <;> simp [shadowOf, setActive, h]
@[simp] theorem activeOf_setShadow (k : Core) (a : AccSet) : activeOf (setShadow k a) = activeOf k := by
  by_cases h : k.activeSet = 0 <;> simp [activeOf, setShadow, h]
@[simp] theorem shadowOf_setShadow (k : Core) (a : AccSet) : shadowOf (setShadow k a) = a := by
  by_cases h : k.activeSet = 0 <;> simp [shadowOf, setShadow, h]

/-- Core `k` has the contexts, the outstanding operations and the next operation number of `k0`. -/
def SameIssue (k0 k : Core) : Prop := k.ctxs = k0.ctxs ∧ k.ops = k0.ops ∧ k.nextOp = k0.nextOp

theorem SameIssue.trans {a b c : Core} (h : SameIssue a b) (g : SameIssue b c) : SameIssue a c := by
  obtain ⟨hx, ho, hn⟩ := h
  obtain ⟨gx, go, gn⟩ := g
  exact ⟨gx.trans hx, go.trans ho, gn.trans hn⟩

theorem sameIssue_issueCore (k : Core) : SameIssue k (issueCore k) :=
  ⟨issueCore_ctxs k, issueCore_ops k, (congrArg Core.nextOp (issueCore_body k k.ctxs k.cur k.swap) :)⟩

theorem sameIssue_setActive (k : Core) (a : AccSet) : SameIssue k (setActive k a) := by
  unfold setActive; split <;> exact ⟨rfl, rfl, rfl⟩

theorem sameIssue_setShadow (k : Core) (a : AccSet) : SameIssue k (setShadow k a) := by
  unfold setShadow; split <;> exact ⟨rfl, rfl, rfl⟩

theorem coreOf_atIssue (s : State) (n : Nat) : coreOf (atIssue s n) n = issueCore (coreOf s.dev n) := coreOf_modCore_same _ _ _

/-! ### The issue -/

/-- What follows from an effect holds of it too. -/
theorem Does.imp {i : Instr} {s : State} {P Q : State → Prop} (h : Does i s P) (hPQ : ∀ t, P t → Q t) : Does i s Q := by
  obtain ⟨t, ht, hp, hP⟩ := h
  exact ⟨t, ht, hp, hPQ t hP⟩

/-- Core `k` once operation `o` of context `c` has issued: the operation outstanding, its context gone on (R74, R96). -/
def started (k : Core) (c : Nat) (o : LongOp) : Core :=
  setCtx { k with ops := k.ops ++ [o], nextOp := k.nextOp + 1 } c (goesOn (ctxOf k c))

theorem started_ops (k : Core) (c : Nat) (o : LongOp) : (started k c o).ops = k.ops ++ [o] := rfl
theorem mem_started_ops (k : Core) (c : Nat) (o : LongOp) : o ∈ (started k c o).ops :=
  List.mem_append_right _ (List.mem_singleton_self o)
@[simp] theorem activeOf_started (k : Core) (c : Nat) (o : LongOp) : activeOf (started k c o) = activeOf k := rfl
@[simp] theorem shadowOf_started (k : Core) (c : Nat) (o : LongOp) : shadowOf (started k c o) = shadowOf k := rfl

theorem ctxOf_started_same (k : Core) (c : Nat) (o : LongOp) : ctxOf (started k c o) c = goesOn (ctxOf k c) :=
  ctxOf_setCtx_same _ _ _

theorem ctxOf_started_other (k : Core) (c e : Nat) (o : LongOp) (h : e ≠ c) : ctxOf (started k c o) e = ctxOf k e :=
  ctxOf_setCtx_other _ _ _ _ h

/-- Device `d` once `o` has been pushed and its context has gone on. -/
theorem goOn_pushOp (d : Dev) (n c : Nat) (o : LongOp) (hs : InStore (ctxOf (coreOf d n) c))
    (hw : (ctxOf (coreOf d n) c).st ≠ 5) : goOn (pushOp d n o) n c = modCore d n (fun k => started k c o) := by
  have hctx : ctxOf (coreOf (pushOp d n o) n) c = ctxOf (coreOf d n) c := by simp [pushOp, ctxOf]
  rw [goOn_inStore _ _ _ (by rwa [hctx]) (by rwa [hctx]), hctx, modCtx, pushOp, modCore_modCore]
  simp [modCore, started]

/-- The device at issue keeps registers, the other cores and what the core's issue reads (R71, R152). -/
theorem atIssue_keeps (s : State) (n : Nat) : (atIssue s n).regs = s.dev.regs ∧ (∀ m, m ≠ n → coreOf (atIssue s n) m = coreOf s.dev m) ∧
    SameIssue (coreOf s.dev n) (coreOf (atIssue s n) n) := by
  refine ⟨rfl, fun m hm => coreOf_modCore_other _ _ _ _ hm, ?_⟩
  rw [coreOf_atIssue]
  exact sameIssue_issueCore _

/-- Operation `o` is instruction `w` of context `c`, just issued, with these sources and destinations (R74, R80). -/
def IssuedOp (s : State) (n c : Nat) (w : W128) (srcs dsts : List Nat) (o : LongOp) : Prop :=
  o.id = (coreOf s.dev n).nextOp ∧ o.ctx = c ∧ o.pc = (ctxIn s n c).pc ∧ o.word = w ∧ o.srcs = srcs ∧ o.dsts = dsts

theorem issuedOp_newOp (s : State) (n c : Nat) (w : W128) (srcs dsts : List Nat) :
    IssuedOp s n c w srcs dsts (newOp (coreOf (atIssue s n) n) c (ctxIn s n c).pc w srcs dsts) := by
  obtain ⟨-, -, hnext⟩ := sameIssue_issueCore (coreOf s.dev n)
  exact ⟨by rw [newOp, coreOf_atIssue, hnext], rfl, rfl, rfl, rfl, rfl⟩

/-- An instruction whose body pushes operation `o` on a device `e` that differs from the one before in core `n`'s datapath and in
what is neither register nor core: the operation is outstanding, and memory and registers stay. -/
theorem does_startsOp {i : Instr} {s : State} {n c : Nat} {w : W128} {body : Dev → Nat → Ctx → IssueRes} {e : Dev} {o : LongOp}
    {srcs dsts : List Nat} (h : StandsAt s n w c) (hi : exec i s = finish s (issue s.dev n w body)) (hs : InStore (ctxIn s n c))
    (hb : body (atIssue s n) c (ctxIn s n c) = .next (pushOp e n o) []) (ho : IssuedOp s n c w srcs dsts o)
    (hregs : e.regs = s.dev.regs) (hother : ∀ m, m ≠ n → coreOf e m = coreOf s.dev m)
    (hcore : SameIssue (coreOf s.dev n) (coreOf e n)) :
    Does i s (fun t => Outstanding s t n c w srcs dsts ∧ SameMem s t ∧ SameRegs s t ∧
      coreOf t.dev n = started (coreOf e n) c o) := by
  obtain ⟨hctxs, hops, -⟩ := hcore
  have hctx : ∀ x, ctxOf (coreOf e n) x = ctxIn s n x := fun x => by rw [ctxIn, ctxOf, ctxOf, hctxs]
  have heff : issue s.dev n w body = (modCore e n (fun k => started k c o), []) := by
    rw [issue_next _ _ n c _ _ _ h hb, goOn_pushOp e n c o (by rwa [hctx]) (by rw [hctx]; exact issuer_st h)]
  have hn : coreOf (modCore e n (fun k => started k c o)) n = started (coreOf e n) c o := coreOf_modCore_same _ _ _
  refine ⟨_, hi.trans (congrArg (finish s) heff), rfl, ⟨?_, ?_, ?_, o, ?_, ho⟩, ⟨fun _ => rfl, rfl⟩, fun off => ?_, hn⟩
  · rw [ctxIn, hn, ctxOf_started_same, hctx]
  · intro x hx
    rw [ctxIn, hn, ctxOf_started_other _ _ _ _ hx, hctx]
  · intro m hm
    exact (coreOf_modCore_other _ _ _ _ hm).trans (hother m hm)
  · rw [hn, started_ops, hops]
  · rw [regGet, modCore_regs, hregs, regGet]

/-- An instruction that writes accumulators of its core by `g` and draws free values as it issues. -/
theorem does_startsOp_drawn {i : Instr} {s : State} {n c fr : Nat} {w : W128} {body : Dev → Nat → Ctx → IssueRes} {g : Core → Core}
    {o : LongOp} {srcs dsts : List Nat} (h : StandsAt s n w c) (hi : exec i s = finish s (issue s.dev n w body))
    (hs : InStore (ctxIn s n c)) (hg : ∀ k, SameIssue k (g k))
    (hb : body (atIssue s n) c (ctxIn s n c) = .next (pushOp { modCore (atIssue s n) n g with free := fr } n o) [])
    (ho : IssuedOp s n c w srcs dsts o) :
    Does i s (fun t => Outstanding s t n c w srcs dsts ∧ SameMem s t ∧ SameRegs s t ∧
      coreOf t.dev n = started (g (coreOf (atIssue s n) n)) c o) := by
  obtain ⟨-, hother, hcore⟩ := atIssue_keeps s n
  have hn : coreOf { modCore (atIssue s n) n g with free := fr } n = g (coreOf (atIssue s n) n) :=
    coreOf_modCore_same (atIssue s n) n g
  rw [← hn]
  refine does_startsOp h hi hs hb ho rfl (fun m hm => ?_) ?_
  · exact (coreOf_modCore_other (atIssue s n) n m g hm).trans (hother m hm)
  · rw [hn]
    exact hcore.trans (hg _)

theorem natBit_toNat {w : Nat} (x : BitVec w) (i : Nat) : natBit x.toNat i = x.getLsbD i := by
  rw [natBit_eq_testBit, BitVec.testBit_toNat]

/-- Conditions of which none holds, and the scoreboard ready: the body answers what it does. -/
theorem guarded_ready {cs : List Cond} {ready : Bool} (go : IssueRes) (hcs : Clean cs) (hr : ready = true) :
    guarded cs (whenReady ready go) = go := by
  rw [guarded_ok cs _ hcs, hr]
  rfl

/-- Elements without poison raise no fault. -/
theorem srcFault_clean (d : Dev) (t : TDesc) (es : List (Nat × Bool)) (h : ∀ e ∈ es, e.2 = false) : srcFault d t es = none := by
  have hnone : es.findIdx? (fun v => v.2) = none := List.findIdx?_eq_none_iff.2 h
  rw [srcFault, hnone]

/-- An element taken from a list without poison carries none. -/
theorem listGet_clean (es : List (Nat × Bool)) (h : ∀ e ∈ es, e.2 = false) (i : Nat) : (listGet es i (0, false)).2 = false := by
  induction es generalizing i with
  | nil => rfl
  | cons e t ih =>
    cases i with
    | zero => exact h e (by simp)
    | succ i => exact ih (fun x hx => h x (by simp [hx])) i

end Sys2Proof.Machine
end

section
/-! SUPPORT. The cells of an accumulator set after an operation has written a corner of it (R106, R109, R139, R149). -/

namespace Sys2Proof.Machine

/-- The finite 0 of a set with a tag, which a cell it does not list holds. -/
abbrev zeroCell (tag : Nat) : AccCell := if tag = 2 then .fp 0#32 else .int 0

/-- Row `i` of a corner of `n` columns, its cells given by `g`, put into the cells `acc`. -/
def putRow (tag n : Nat) (g : Nat → Nat → AccCell) (acc : SMap AccCell) (i : Nat) : SMap AccCell :=
  (List.range n).foldl (fun acc j => if cellZero tag (g i j) then acc else smapSet acc (128 * i + j) (g i j)) acc

theorem putCells_eq (tag m n : Nat) (old : SMap AccCell) (g : Nat → Nat → AccCell) :
    putCells tag m n old g =
      (List.range m).foldl (putRow tag n g) (smapDrop old (fun k => decide (k / 128 < m ∧ k % 128 < n))) := by
  rw [← rangeFrom_zero]
  unfold putRow
  rw [← rangeFrom_zero]
  rfl

section
variable (tag : Nat) (g : Nat → Nat → AccCell) (z : AccCell) (i j : Nat) (hj : j < 128)
include hj

theorem smapGet_putRow (n : Nat) (hn : n ≤ 128) (acc : SMap AccCell) (r : Nat) :
    smapGet (putRow tag n g acc r) (128 * i + j) z =
      if (i = r ∧ j < n) ∧ cellZero tag (g i j) = false then g i j else smapGet acc (128 * i + j) z := by
  induction n with
  | zero => simp [putRow]
  | succ n ih =>
    have hstep : putRow tag (n + 1) g acc r =
        if cellZero tag (g r n) then putRow tag n g acc r else smapSet (putRow tag n g acc r) (128 * r + n) (g r n) := by
      simp only [putRow, List.range_succ, List.foldl_append, List.foldl_cons, List.foldl_nil]
    by_cases hat : i = r ∧ j = n
    · obtain ⟨rfl, rfl⟩ := hat
      rw [hstep]
      cases hz : cellZero tag (g i j) <;> simp [hz, ih (by omega)]
    · have hkey : 128 * i + j ≠ 128 * r + n := by omega
      have hlt : (i = r ∧ j < n + 1) ↔ (i = r ∧ j < n) := by omega
      simp only [hlt]
      rw [hstep, ← ih (by omega)]
      split
      · rfl
      · exact smapGet_smapSet_other _ _ _ _ _ hkey

theorem smapGet_putRows (m n : Nat) (hn : n ≤ 128) (acc : SMap AccCell) :
    smapGet ((List.range m).foldl (putRow tag n g) acc) (128 * i + j) z =
      if (i < m ∧ j < n) ∧ cellZero tag (g i j) = false then g i j else smapGet acc (128 * i + j) z := by
  induction m with
  | zero => simp
  | succ m ih =>
    rw [List.range_succ, List.foldl_append, List.foldl_cons, List.foldl_nil, smapGet_putRow tag g z i j hj n hn, ih]
    by_cases hi : i = m
    · subst hi; simp
    · have hlt : i < m + 1 ↔ i < m := by omega
      simp [hi, hlt]

/-- A cell of the corner is what was put there; another one is as it was. -/
theorem smapGet_putCells (m n : Nat) (hn : n ≤ 128) (old : SMap AccCell) :
    smapGet (putCells tag m n old g) (128 * i + j) (zeroCell tag) =
      if i < m ∧ j < n then g i j else smapGet old (128 * i + j) (zeroCell tag) := by
  have hkey : (128 * i + j) / 128 = i ∧ (128 * i + j) % 128 = j := by omega
  rw [putCells_eq, smapGet_putRows tag g _ i j hj m n hn, smapGet_smapDrop, hkey.1, hkey.2]
  by_cases hin : i < m ∧ j < n
  · cases hz : cellZero tag (g i j)
    · simp [hin]
    · have hg : g i j = zeroCell tag := by simpa [cellZero] using hz
      simp [hin, hg]
  · simp [hin]

end

theorem cellAt_inside (tag m n : Nat) (old : SMap AccCell) (g : Nat → Nat → AccCell) (res : SMap Nat) {i j : Nat} (hn : n ≤ 128)
    (hi : i < m) (hj : j < n) : cellAt ⟨tag, putCells tag m n old g, res⟩ i j = g i j :=
  (smapGet_putCells tag g i j (by omega) m n hn old).trans (if_pos ⟨hi, hj⟩)

theorem cellAt_outside (tag m n : Nat) (old : SMap AccCell) (g : Nat → Nat → AccCell) (res res' : SMap Nat) {i j : Nat}
    (hn : n ≤ 128) (hj : j < 128) (hout : m ≤ i ∨ n ≤ j) :
    cellAt ⟨tag, putCells tag m n old g, res⟩ i j = cellAt ⟨tag, old, res'⟩ i j :=
  (smapGet_putCells tag g i j hj m n hn old).trans (if_neg (by omega))

end Sys2Proof.Machine
end

section
/-! SUPPORT. What the register tables and the parts of the device hold after reset (R30, R39, R87, R149). -/

namespace Sys2Proof.Machine

theorem regRows_reset_lt : ∀ r ∈ coreRows ++ regRows, r.reset < 2 ^ 32 := by decide +kernel

theorem rowFind_mem {rows : List RegRow} {off : Nat} {r : RegRow} (h : rowFind rows off = some r) : r ∈ rows := by
  induction rows with
  | nil => cases h
  | cons x t ih =>
    rw [rowFind] at h
    split at h
    · cases h
      exact List.mem_cons_self
    · exact List.mem_cons_of_mem _ (ih h)

/-- A register word's reset value fits 32 bits. -/
theorem regRow_reset_lt {off : Nat} {r : RegRow} (h : regRow off = some r) : r.reset < 2 ^ 32 := by
  unfold regRow at h
  split at h
  · exact regRows_reset_lt r (List.mem_append_left _ (rowFind_mem h))
  · split at h
    · cases h
      exact Nat.two_pow_pos 32
    · exact regRows_reset_lt r (List.mem_append_right _ (rowFind_mem h))

theorem regReset_toNat (off : Nat) : (regReset off).toNat = ((regRow off).map (fun r => r.reset)).getD 0 := by
  unfold regReset
  cases h : regRow off with
  | none => rfl
  | some r => exact (BitVec.toNat_ofNat _ _).trans (Nat.mod_eq_of_lt (regRow_reset_lt h))

/-- A register word after reset: START_COUNT 1, the others their reset values (assumption log 3). -/
theorem regNat_reset (off : Nat) :
    regNat devReset off = if off = 0x804 then 1 else ((regRow off).map (fun r => r.reset)).getD 0 := by
  have hlist : regNat devReset off = (if 0x804 = off then 1#32 else regReset off).toNat := rfl
  rw [hlist, ← regReset_toNat]
  by_cases h : off = 0x804
  · rw [if_pos h.symm, if_pos h]
    rfl
  · rw [if_neg (Ne.symm h), if_neg h]

theorem bookEntry_reset (cb4 : Bool) (book code : Nat) : bookEntry coreReset cb4 book code = 0 := by
  cases cb4 <;> rfl

theorem setsOf_reset {a : AccSet} (h : a ∈ [activeOf coreReset, shadowOf coreReset]) : a = ⟨0, [], []⟩ := by
  simpa [activeOf, shadowOf, coreReset] using h

theorem cellAt_empty (i j : Nat) : cellAt ⟨0, [], []⟩ i j = .int 0 := rfl

/-- Settles O60: the register words by their tables, every core as `coreReset` gives it, the rest read off `State.reset`. -/
theorem resetValues : Obligations.ResetValues := by
  refine ⟨rfl, fun _ => rfl, rfl, regNat_reset, rfl, rfl, rfl, rfl, rfl, rfl, fun n => ?_, rfl, rfl, rfl, rfl, rfl, rfl, rfl, rfl,
    rfl, rfl, rfl, rfl, rfl, rfl⟩
  refine ⟨fun _ => rfl, fun _ => rfl, bookEntry_reset, fun _ _ => rfl, rfl, rfl, fun a ha => ?_⟩
  rw [setsOf_reset ha]
  exact ⟨rfl, cellAt_empty⟩

end Sys2Proof.Machine
end

section
/-! SUPPORT. MOPA: the set it leaves, and its issue (R105, R106, R139, R147). -/

namespace Sys2Proof.Machine

theorem mopaShape_columns {a b : TDesc} (h : mopaShapeBad a b = false) : extOf b 0 ≤ 128 := by
  simp only [mopaShapeBad, Bool.or_eq_false_iff, decide_eq_false_iff_not] at h
  omega

theorem mopaSet_tag (d : Dev) (k : Core) (mode booka bookb : Nat) (zero bad : Bool) (m n kk : Nat) (ea eb : List (Nat × Bool)) :
    (mopaSet d k mode booka bookb zero bad m n kk ea eb).tag = modeTag mode := rfl

theorem mopaStart_tag (k : Core) (mode : Nat) (zero : Bool) : (mopaStart k mode zero).tag = modeTag mode := by
  unfold mopaStart; split <;> rfl

theorem zeroCell_modeTag (mode : Nat) : zeroCell (modeTag mode) = if mode = 2 then .fp 0#32 else .int 0 := by
  by_cases h : mode = 2 <;> simp [modeTag, h]

/-- A cell of the set a MOPA starts from: cleared, or the active set's. -/
theorem cellAt_mopaStart (k : Core) (mode : Nat) (zero : Bool) (i j : Nat) : cellAt (mopaStart k mode zero) i j =
    if zero then zeroCell (modeTag mode) else cellAt { activeOf k with tag := modeTag mode } i j := by
  cases zero <;> rfl

/-- A cell of its shape takes the products. -/
theorem cellAt_mopaSet_inside (d : Dev) (k : Core) (mode booka bookb : Nat) (zero : Bool) {m n : Nat} (kk : Nat)
    (ea eb : List (Nat × Bool)) {i j : Nat} (hn : n ≤ 128) (hi : i < m) (hj : j < n) :
    cellAt (mopaSet d k mode booka bookb zero false m n kk ea eb) i j =
      mopaCell k mode booka bookb (fun q => (listGet ea (q * m + i) (0, false)).1) (fun q => (listGet eb (q * n + j) (0, false)).1) kk
        (cellAt (mopaStart k mode zero) i j) :=
  cellAt_inside (modeTag mode) m n _ _ _ hn hi hj

/-- A cell outside it stays. -/
theorem cellAt_mopaSet_outside (d : Dev) (k : Core) (mode booka bookb : Nat) (zero : Bool) {m n : Nat} (kk : Nat)
    (ea eb : List (Nat × Bool)) {i j : Nat} (hn : n ≤ 128) (hj : j < 128) (hout : m ≤ i ∨ n ≤ j) :
    cellAt (mopaSet d k mode booka bookb zero false m n kk ea eb) i j = cellAt (mopaStart k mode zero) i j := by
  have hstart : mopaStart k mode zero = ⟨modeTag mode, (mopaStart k mode zero).cells, (mopaStart k mode zero).res⟩ := by
    rw [← mopaStart_tag k mode zero]
  rw [hstart]
  exact cellAt_outside (modeTag mode) m n _ _ _ _ hn hj hout

/-- The operation that a MOPA without poison in its operands leaves outstanding (R80, R161). -/
def mopaOp (d : Dev) (k : Core) (c pc : Nat) (w : W128) (srcs : List Nat) (mode booka bookb : Nat) (zero : Bool) (m n kk : Nat)
    (ea eb : List (Nat × Bool)) : LongOp :=
  { newOp k c pc w srcs [] with
    booksRead := if mode = 2 then [] else [bookReg (mode == 1) booka, bookReg (mode == 1) bookb]
    skip := mopaSkip d k mode booka bookb zero m n kk ea eb }

/-- What R105 asks of the book numbers in MODE 0, as the condition of its fault. -/
theorem mopaBooks_cond_false {mode booka bookb : Nat} (h : mode = 0 → booka < 8 ∧ bookb < 8) :
    (mode == 0 && (decide (7 < booka) || decide (7 < bookb))) = false := by
  by_cases h0 : mode = 0
  · obtain ⟨ha, hb⟩ := h h0
    simp [Nat.le_of_lt_succ ha, Nat.le_of_lt_succ hb]
  · simp [h0]

/-- What R106 asks of the active set's tag, as the condition of its fault. -/
theorem mopaTag_cond_false {zero : Bool} {cur tag : Nat} (h : zero = true ∨ cur = 0 ∨ cur = tag) :
    (!zero && cur != 0 && cur != tag) = false := by
  rcases h with h | h | h <;> simp [h]

/-- Settles O20: MOPA's conditions and waits pass, so it puts its set in place and stays outstanding; the set's cells are read off. -/
theorem matrixMultiplies : Obligations.MatrixMultiplies := by
  intro n c f o s hstands d k mode zero ra rb a b booka bookb ea eb srcs hf hmode honly hshape hbooks htag hclean hlong hbook
    hpoison htaint hstore
  have htagOf : (if mode = 2 then 2 else 1) = modeTag mode := rfl
  rw [htagOf] at htag
  have hzero : natBit f.toNat 2 = zero := natBit_toNat f 2
  have hflag : natBit f.toNat 3 = false := by
    rw [natBit_eq_testBit]
    exact Nat.testBit_lt_two_pow hf
  have hbad : (!zero && mopaTainted k) = false := by
    rcases htaint with h | h <;> simp [h]
  have hfa : srcFault d a ea = none := srcFault_clean d a ea fun e he => hpoison e (List.mem_append_left _ he)
  have hfb : srcFault d b eb = none := srcFault_clean d b eb fun e he => hpoison e (List.mem_append_right _ he)
  refine Does.imp (does_startsOp_drawn (fr := d.free + 16384) (srcs := srcs) (dsts := [])
    (g := fun k1 => setActive k1 (mopaSet d k mode booka bookb zero false (extOf a 0) (extOf b 0) (outerCount a) ea eb))
    (o := mopaOp d k c (ctxIn s n c).pc (mkWord 2 0x01 f o) srcs mode booka bookb zero (extOf a 0) (extOf b 0) (outerCount a) ea eb)
    hstands rfl hstore (fun _ => sameIssue_setActive _ _) ((guarded_ready _ ?conds ?ready).trans ?body)
    (issuedOp_newOp s n c _ srcs [])) ?effect
  case conds =>
    simp only [Clean, List.forall_mem_cons]
    refine ⟨?_, hshape, mopaBooks_cond_false hbooks, ?_, hclean⟩
    · rw [hflag, honly]
      simp [show f.toNat % 4 ≠ 3 from hmode]
    · rw [hzero]
      exact mopaTag_cond_false htag
  case ready =>
    rw [hlong, hbook]
    rfl
  case body =>
    dsimp only [applyErrs, memApplyAll]
    rw [hfa, hfb, hzero, hbad]
    rfl
  case effect =>
    rintro t ⟨hout, hmem, hregs, hcore⟩
    have hactive : activeOf (coreOf t.dev n) =
        mopaSet d k mode booka bookb zero false (extOf a 0) (extOf b 0) (outerCount a) ea eb := by
      rw [hcore, activeOf_started, activeOf_setActive]
    have hcols : extOf b 0 ≤ 128 := mopaShape_columns hshape
    refine ⟨hout, hmem, hregs, ?_, ?_, fun i j hi hj => ?_, fun i j hj hij => ?_⟩
    · rw [hactive, htagOf, mopaSet_tag]
    · rw [hcore, shadowOf_started, shadowOf_setActive]
    · rw [hactive, cellAt_mopaSet_inside _ _ _ _ _ _ _ _ _ hcols hi hj, cellAt_mopaStart, zeroCell_modeTag]
    · rw [hactive, cellAt_mopaSet_outside _ _ _ _ _ _ _ _ _ hcols hj hij, cellAt_mopaStart, zeroCell_modeTag]

end Sys2Proof.Machine
end

section
/-! SUPPORT. MDRN and MLDS: their conditions, what they leave of the shadow set, and their issue (R54, R108, R109, R150, R155). -/

namespace Sys2Proof.Machine

theorem drainShape_columns {t : TDesc} (h : drainShapeBad t = false) : extOf t 0 ≤ 128 := by
  simp only [drainShapeBad, Bool.or_eq_false_iff, decide_eq_false_iff_not] at h
  omega

/-- The operation that an MLDS without poison in its source leaves outstanding (R80). -/
def mldsOp (k : Core) (c pc : Nat) (w : W128) (srcs : List Nat) (ds : BitVec 512) : LongOp :=
  { newOp k c pc w srcs [] with ds := ds }

/-- The tag of the format that FMT of an MLDS names (R109). -/
abbrev mldsTag (fm : Nat) : Nat := if fm = 2 then 1 else 2

/-- The accumulator that an element of an MLDS loads (R52, R109). -/
def mldsCell (fm x : Nat) : AccCell := if fm = 2 then imageAcc x else .fp (wide (drainFmt fm) x)

/-- The cells of the shadow set that an MLDS without poison in its source loads. -/
def mldsCells (fm m n : Nat) (es : List (Nat × Bool)) : SMap AccCell :=
  putCells (mldsTag fm) m n [] (fun i j => mldsCell fm (listGet es (i * n + j) (0, false)).1)

/-- The shadow set that it leaves (R109, R155, R160). -/
def mldsSet (fm m n : Nat) (es : List (Nat × Bool)) : AccSet :=
  { tag := mldsTag fm, cells := mldsCells fm m n es
    res := ((mldsCells fm m n es).map (fun e => (e.1, cellRes e.2))).filter (fun e => e.2 != 0) }

theorem zeroCell_mldsTag (fm : Nat) : zeroCell (mldsTag fm) = if fm = 2 then .int 0 else .fp 0#32 := by
  by_cases h : fm = 2 <;> simp [h]

theorem cellAt_mldsSet_inside (fm : Nat) {m n : Nat} (es : List (Nat × Bool)) {i j : Nat} (hn : n ≤ 128) (hi : i < m) (hj : j < n) :
    cellAt (mldsSet fm m n es) i j = mldsCell fm (listGet es (i * n + j) (0, false)).1 :=
  cellAt_inside (mldsTag fm) m n _ _ _ hn hi hj

theorem cellAt_mldsSet_outside (fm : Nat) {m n : Nat} (es : List (Nat × Bool)) {i j : Nat} (hn : n ≤ 128) (hj : j < 128)
    (hout : m ≤ i ∨ n ≤ j) : cellAt (mldsSet fm m n es) i j = zeroCell (mldsTag fm) :=
  cellAt_outside (mldsTag fm) m n [] _ _ [] hn hj hout

/-- The cells that MLDS computes are those of `mldsCells`, where no element read is poisoned. -/
theorem mldsCells_eq (d : Dev) (fm m n : Nat) (es : List (Nat × Bool)) (h : ∀ e ∈ es, e.2 = false) :
    putCells (mldsTag fm) m n [] (fun i j =>
      if (listGet es (i * n + j) (0, false)).2 then freeCell (mldsTag fm) (Config.freeWord (d.free + 128 * i + j))
      else if fm = 2 then imageAcc (listGet es (i * n + j) (0, false)).1
        else .fp (wide (drainFmt fm) (listGet es (i * n + j) (0, false)).1)) = mldsCells fm m n es := by
  simp only [listGet_clean es h, Bool.false_eq_true, if_false]
  rfl

/-- What R108 asks of an MDRN's scaling, as the condition of its fault. -/
theorem mdrnScaling_cond_false {fm tag : Nat} {scol srow : Bool} (h2 : fm = 2 → scol = false ∧ srow = false ∧ tag ≠ 2)
    (h1 : fm ≠ 2 → tag = 1 → scol = true) :
    ((fm == 2 && (scol || srow)) || (fm == 2 && tag == 2) || (fm != 2 && tag == 1 && !scol)) = false := by
  by_cases hfm : fm = 2
  · obtain ⟨hc, hr, ht⟩ := h2 hfm
    simp [hc, hr, ht, hfm]
  · by_cases ht : tag = 1
    · simp [hfm, h1 hfm ht]
    · simp [hfm, ht]

/-- Settles O22: both instructions pass their conditions and waits. MDRN keeps the sets and the elements it will write; MLDS puts its
set in place, whose cells are read off. -/
theorem shadowDrainsAndLoads : Obligations.ShadowDrainsAndLoads := by
  intro n c f o s hstore hfm d k fmt
  refine ⟨?drain, ?load⟩
  case drain =>
    intro hstands scol srow sbc sbr t0 sh dsts honly hshape h2 h1 hclean hlong hbook hheld
    have hcol : natBit f.toNat 2 = scol := natBit_toNat f 2
    have hrow : natBit f.toNat 3 = srow := natBit_toNat f 3
    obtain ⟨hregs, hother, hcore⟩ := atIssue_keeps s n
    refine Does.imp (does_startsOp hstands rfl hstore (guarded_ready _ ?conds ?ready) (issuedOp_newOp s n c _ [] dsts)
      hregs hother hcore) ?effect
    case conds =>
      simp only [Clean, List.forall_mem_cons]
      rw [hcol, hrow, honly]
      exact ⟨by simp [hfm], hshape, mdrnScaling_cond_false h2 h1, hclean⟩
    case ready =>
      rw [hcol, hrow, hlong, hbook, hheld]
      rfl
    case effect =>
      rintro t ⟨hout, hmem, hregs', hcore'⟩
      refine ⟨hout, ?_, ?_, hmem, hregs', ?_⟩
      · rw [hcore', shadowOf_started]
      · rw [hcore', activeOf_started]
      · rw [hcore']
        refine ⟨_, mem_started_ops _ _ _, rfl, rfl, ?_⟩
        simp only [hcol, hrow]
        rfl
  case load =>
    intro hstands hf t0 es srcs honly hshape hclean hlong hfree hpoison
    have hmod : f.toNat % 4 = f.toNat := Nat.mod_eq_of_lt hf
    have hflt : srcFault d t0 es = none := srcFault_clean d t0 es hpoison
    refine Does.imp (does_startsOp_drawn (fr := d.free + 16384) (srcs := srcs) (dsts := [])
      (g := fun k1 => setShadow k1 (mldsSet (f.toNat % 4) (extOf t0 1) (extOf t0 0) es))
      (o := mldsOp k c (ctxIn s n c).pc (mkWord 2 0x04 f o) srcs (descOf k (fld o 96 8)))
      hstands rfl hstore (fun _ => sameIssue_setShadow _ _) ((guarded_ready _ ?conds ?ready).trans ?body)
      (issuedOp_newOp s n c _ srcs [])) ?effect
    case conds =>
      simp only [Clean, List.forall_mem_cons]
      rw [honly]
      exact ⟨by simp [hfm, hf], hshape, hclean⟩
    case ready =>
      rw [hlong, hfree]
      rfl
    case body =>
      dsimp only [applyErrs, memApplyAll]
      rw [hflt, mldsCells_eq d _ _ _ es hpoison]
      rfl
    case effect =>
      rintro t ⟨hout, hmem, hregs', hcore'⟩
      rw [hmod] at hcore'
      have hshadow : shadowOf (coreOf t.dev n) = mldsSet f.toNat (extOf t0 1) (extOf t0 0) es := by
        rw [hcore', shadowOf_started, shadowOf_setShadow]
      have hcols : extOf t0 0 ≤ 128 := drainShape_columns hshape
      refine ⟨hout, hmem, hregs', ?_, ?_, fun i j hi hj => ?_, fun i j hj hij => ?_⟩
      · rw [hcore', activeOf_started, activeOf_setShadow]
      · rw [hshadow]
        rfl
      · rw [hshadow, cellAt_mldsSet_inside _ _ hcols hi hj, mldsCell, ← hmod]
      · rw [hshadow, cellAt_mldsSet_outside _ _ hcols hj hij, zeroCell_mldsTag]

end Sys2Proof.Machine
end

section
/-! SUPPORT. The retirement of a core: completion entries and the faults of its contexts change neither bring-up's state nor
COMMIT_CFG, and with commits enabled the core waits for its spare (R457). -/

namespace Sys2Proof.Machine

/-! ### Cores, bring-up's state and COMMIT_CFG -/

/-- What decides on a retirement and what it changes beside registers: the cores, bring-up's state and COMMIT_CFG. -/
def retirementView (d : Dev) : SMap Core × BootState × W32 := (d.cores, d.boot, regGet d 0x1200010)

theorem retirementView_iff {a t : Dev} : retirementView t = retirementView a ↔
    t.cores = a.cores ∧ t.boot = a.boot ∧ regGet t 0x1200010 = regGet a 0x1200010 := by
  simp [retirementView]

theorem Reports.retirementView_eq {a t : Dev} (h : Reports a t) : retirementView t = retirementView a :=
  retirementView_iff.2 ⟨h.cores_eq, h.boot_eq, h.regGet_eq (by decide)⟩

theorem retirementView_regPutField (d : Dev) (off lo w v : Nat) (h : off ≠ 0x1200010) :
    retirementView (regPutField d off lo w v) = retirementView d :=
  retirementView_iff.2 ⟨rfl, rfl, regGet_regPutField_other _ _ _ _ _ _ h.symm⟩

theorem retirementView_cqWrite (d : Dev) (q : Nat) (e : CqEntry) (hq : q < 16) :
    retirementView (cqWrite d q e) = retirementView d := by
  have hoff : qOff q + 0x24 ≠ 0x1200010 := by unfold qOff; omega
  have written : ∀ (a : Nat) (bs : List Byte) (v : Nat),
      retirementView (regPutField (hostWrite d a bs) (qOff q + 0x24) 0 16 v) = retirementView d := fun a bs v =>
    (retirementView_regPutField _ _ _ _ _ hoff).trans (reports_hostWrite d a bs).retirementView_eq
  unfold cqWrite
  dsimp only
  split
  · exact (reports_raiseVector _ _).retirementView_eq.trans (written _ _ _)
  · exact written _ _ _

theorem retirementView_pushCq (d : Dev) (q : Nat) (e : CqEntry) : retirementView (pushCq d q e) = retirementView d := by
  unfold pushCq
  split
  · exact (reports_queueAt d _ _).retirementView_eq
  · split
    · rfl
    · exact retirementView_cqWrite d q e (by omega)

theorem retirementView_releaseFences (d : Dev) (q : Nat) (l : List HostCmd) :
    retirementView (releaseFences d q l) = retirementView d := by
  induction l generalizing d with
  | nil => rfl
  | cons c t ih =>
    unfold releaseFences
    split
    · split
      · exact (ih _).trans (retirementView_pushCq _ _ _)
      · rfl
    · exact ih d

theorem retirementView_completeRunning (d : Dev) (c : HostCmd) (status : Nat) :
    retirementView (completeRunning d c status) = retirementView d :=
  (retirementView_releaseFences _ _ _).trans (retirementView_pushCq _ _ _)

theorem retirementView_settleStopCmds (d : Dev) (l : List HostCmd) :
    retirementView (settleStopCmds d l) = retirementView d := by
  induction l generalizing d with
  | nil => rfl
  | cons h t ih =>
    unfold settleStopCmds
    dsimp only
    split
    · exact (ih _).trans (retirementView_completeRunning d h 0)
    · exact ih d

/-! ### The faults of a core's contexts -/

theorem coreOf_congr {a t : Dev} (h : t.cores = a.cores) (n : Nat) : coreOf t n = coreOf a n := by rw [coreOf, h, coreOf]

theorem ops_modCtx (d : Dev) (n c : Nat) (g : Ctx → Ctx) : (coreOf (modCtx d n c g) n).ops = (coreOf d n).ops := by
  rw [coreOf_modCtx_same]
  rfl

theorem ctxOf_modCtx (d : Dev) (n c e : Nat) (g : Ctx → Ctx) : ctxOf (coreOf (modCtx d n c g) n) e =
    if e = c then g (ctxOf (coreOf d n) c) else ctxOf (coreOf d n) e := by
  rw [coreOf_modCtx_same]
  split
  · next h => rw [h, ctxOf_setCtx_same]
  · next h => exact ctxOf_setCtx_other _ _ _ _ h

theorem settleBeat_ops (k : Core) : (settleBeat k).ops = k.ops := by unfold settleBeat; split <;> rfl

theorem ctxOf_settled (k : Core) (e : Nat) : ctxOf (settleBeat (settleCtx k)) e = ctxOf k e := by
  rw [ctxOf, settleBeat_ctxs, settleCtx_ctxs, ctxOf]

/-- Of what a retirement looks at, only the states of core `n`'s contexts change from `a` to `t`: that of context `e` is then
`st e`. -/
def OnlyStates (a t : Dev) (n : Nat) (st : Nat → Nat) : Prop :=
  (coreOf t n).ops = (coreOf a n).ops ∧ t.boot = a.boot ∧ regGet t 0x1200010 = regGet a 0x1200010 ∧
    ∀ e, (ctxOf (coreOf t n) e).st = st e

theorem onlyStates_ctxEndEntry (d : Dev) (n c status code seq : Nat) :
    OnlyStates d (ctxEndEntry d n c status code seq) n (fun e => (ctxOf (coreOf d n) e).st) := by
  unfold ctxEndEntry
  dsimp only
  split
  · rename_i q cid _
    obtain ⟨hc, hb, hr⟩ := retirementView_iff.1 (retirementView_pushCq d q
      ⟨cid, status, 1, n, c, code, seq, (ctxOf (coreOf d n) c).pc, false⟩)
    have hcore := coreOf_congr hc n
    refine ⟨?_, hb, hr, fun e => ?_⟩
    · rw [ops_modCtx, hcore]
    · rw [ctxOf_modCtx, hcore]
      split
      · next he => rw [he]
      · rfl
  · exact ⟨rfl, rfl, rfl, fun _ => rfl⟩

theorem onlyStates_endCtx (d : Dev) (n c st status code seq : Nat) :
    OnlyStates d (endCtx d n c st status code seq) n (fun e => if e = c then st else (ctxOf (coreOf d n) e).st) := by
  obtain ⟨hops, hb, hr, hst⟩ := onlyStates_ctxEndEntry
    (modCtx d n c (fun x => { x with st := st, hold := 0, wait := .none, stopping := false })) n c status code seq
  unfold endCtx
  refine ⟨?_, hb, hr, fun e => ?_⟩
  · rw [coreOf_modCore_same, settleBeat_ops, settleCtx_ops, hops, ops_modCtx]
  · have hx := ctxOf_modCtx d n c e (fun x => { x with st := st, hold := 0, wait := .none, stopping := false })
    rw [coreOf_modCore_same, ctxOf_settled]
    exact (hst e).trans ((congrArg Ctx.st hx).trans (apply_ite Ctx.st _ _ _))

theorem onlyStates_faultAll (d : Dev) (n seq : Nat) (cs : List Nat) : OnlyStates d (faultAll d n seq cs) n
    (fun e => if e ∈ cs ∧ ctxLive (ctxOf (coreOf d n) e) = true then 6 else (ctxOf (coreOf d n) e).st) := by
  induction cs generalizing d with
  | nil => exact ⟨rfl, rfl, rfl, fun e => by simp [faultAll]⟩
  | cons c t ih =>
    unfold faultAll
    by_cases hl : ctxLive (ctxOf (coreOf d n) c) = true
    · rw [if_pos hl]
      obtain ⟨hops, hb, hr, hst⟩ := onlyStates_endCtx d n c 6 9 0 seq
      obtain ⟨iops, ib, ir, ist⟩ := ih (endCtx d n c 6 9 0 seq)
      refine ⟨iops.trans hops, ib.trans hb, ir.trans hr, fun e => ?_⟩
      rw [ist]
      by_cases he : e = c
      · subst he
        have hpos : 1 ≤ (ctxOf (coreOf d n) e).st ∧ (ctxOf (coreOf d n) e).st ≤ 5 := of_decide_eq_true hl
        simp [ctxLive, hst, hpos]
      · simp [ctxLive, hst, he]
    · rw [if_neg hl]
      obtain ⟨iops, ib, ir, ist⟩ := ih d
      refine ⟨iops, ib, ir, fun e => ?_⟩
      rw [ist]
      by_cases he : e = c
      · subst he
        simp [hl]
      · simp [he]

/-! ### Retirement (R457) -/

theorem mem_keyInsert_self (l : List Nat) (k : Nat) : k ∈ keyInsert l k := by
  induction l with
  | nil => simp [keyInsert]
  | cons x t ih =>
    unfold keyInsert
    split
    · simp
    · split
      · simp [*]
      · simp [ih]

/-- The device of a retirement before its contexts fault: the physical core is out of service and the record is posted. -/
def retiring (d : Dev) (n : Nat) (r : RecArgs) : Dev :=
  let p := physOf d n
  let dup := d.boot.retired.contains p
  postRecord (if dup then d else retirePhys d p r.ev) { r with ledger := !dup }

theorem retiring_keeps (d : Dev) (n : Nat) (r : RecArgs) : (retiring d n r).cores = d.cores ∧
    regGet (retiring d n r) 0x1200010 = regGet d 0x1200010 ∧ physOf d n ∈ (retiring d n r).boot.retired := by
  have hrep : Reports (if d.boot.retired.contains (physOf d n) then d else retirePhys d (physOf d n) r.ev) (retiring d n r) :=
    reports_postRecord _ _
  rw [hrep.cores_eq, hrep.boot_eq, hrep.regGet_eq (by decide)]
  split
  · next h => exact ⟨rfl, rfl, List.contains_iff_mem.1 h⟩
  · exact ⟨rfl, rfl, mem_keyInsert_self _ _⟩

/-- The device of a retirement once its live contexts have faulted and its operations are gone. -/
def retiredCore (d : Dev) (n : Nat) (r : RecArgs) : Dev :=
  faultAll (modCore (retiring d n r) n (fun k => { k with
    ops := [], health := { k.health with mopaTry := noRetry, shadowTry := noRetry, vecTry := noRetry } })) n
    (lastSeq (retiring d n r)) (rangeFrom 0 8)

/-- The device of a retirement in which the core waits for its spare and CORE_STOPs that waited for its contexts complete. -/
def retirePending (d : Dev) (n : Nat) (r : RecArgs) : Dev :=
  let d4 := modCore (retiredCore d n r) n (fun k => { k with mapState := 1, stopped := true })
  settleStopCmds { d4 with boot := { d4.boot with voteRetired := true } } d4.host.running

theorem retireCore_eq (d : Dev) (m : Mem) (n : Nat) (r : RecArgs) : retireCore d m n r =
    if commitEnabled (retirePending d n r) then (retirePending d n r, []) else stepBoundary (retirePending d n r) m := by
  unfold retireCore retirePending retiredCore retiring
  dsimp only

theorem retiredCore_keeps (d : Dev) (n : Nat) (r : RecArgs) : (coreOf (retiredCore d n r) n).ops = [] ∧
    physOf d n ∈ (retiredCore d n r).boot.retired ∧ regGet (retiredCore d n r) 0x1200010 = regGet d 0x1200010 ∧
    ∀ e, e < 8 → (ctxOf (coreOf (retiredCore d n r) n) e).st =
      if ctxLive (ctxOf (coreOf d n) e) then 6 else (ctxOf (coreOf d n) e).st := by
  obtain ⟨hc, hr, hp⟩ := retiring_keeps d n r
  have hcore : coreOf (retiring d n r) n = coreOf d n := coreOf_congr hc n
  obtain ⟨iops, ib, ir, ist⟩ := onlyStates_faultAll (modCore (retiring d n r) n (fun k => { k with
    ops := [], health := { k.health with mopaTry := noRetry, shadowTry := noRetry, vecTry := noRetry } })) n
    (lastSeq (retiring d n r)) (rangeFrom 0 8)
  rw [coreOf_modCore_same] at iops ist
  rw [hcore] at ist
  refine ⟨iops, ?_, ir.trans hr, fun e he => (ist e).trans ?_⟩
  · rw [retiredCore, ib]
    exact hp
  · have hmem : e ∈ rangeFrom 0 8 := (mem_rangeFrom 0 8 e).2 ⟨Nat.zero_le e, by omega⟩
    simp only [hmem, true_and]
    rfl

theorem retirementView_voting (d : Dev) (l : List HostCmd) :
    retirementView (settleStopCmds { d with boot := { d.boot with voteRetired := true } } l) =
      (d.cores, { d.boot with voteRetired := true }, regGet d 0x1200010) :=
  retirementView_settleStopCmds _ l

theorem retirePending_keeps (d : Dev) (n : Nat) (r : RecArgs) :
    coreOf (retirePending d n r) n = { coreOf (retiredCore d n r) n with mapState := 1, stopped := true } ∧
      (retirePending d n r).boot = { (retiredCore d n r).boot with voteRetired := true } ∧
      regGet (retirePending d n r) 0x1200010 = regGet (retiredCore d n r) 0x1200010 := by
  unfold retirePending
  generalize retiredCore d n r = e
  obtain ⟨hc, hv⟩ := Prod.mk.inj (retirementView_voting (modCore e n (fun k => { k with mapState := 1, stopped := true }))
    (modCore e n (fun k => { k with mapState := 1, stopped := true })).host.running)
  obtain ⟨hb, hr⟩ := Prod.mk.inj hv
  exact ⟨(coreOf_congr hc n).trans (coreOf_modCore_same _ _ _), hb, hr⟩

/-- With commits enabled a retirement changes no memory, and the core waits for its spare. -/
theorem retireCore_waits {d : Dev} {n : Nat} (m : Mem) (r : RecArgs) (h : commitEnabled d = true) :
    retireCore d m n r = (retirePending d n r, []) := by
  obtain ⟨-, -, hreg, -⟩ := retiredCore_keeps d n r
  obtain ⟨-, -, hreg'⟩ := retirePending_keeps d n r
  have hc : commitEnabled (retirePending d n r) = true := by
    rw [commitEnabled, regNat_congr (hreg'.trans hreg)]
    exact h
  rw [retireCore_eq, if_pos hc]

/-- A command whose effect is the retirement of core `n`, from a device with the same contexts on the same physical core. -/
theorem does_retires {i : Instr} {s : State} {n : Nat} {d : Dev} {m : Mem} {r : RecArgs}
    (h : exec i s = finish s (retireCore d m n r)) (hc : commitEnabled d = true) (hp : physOf d n = physOf s.dev n)
    (hx : (coreOf d n).ctxs = (coreOf s.dev n).ctxs) : Does i s (fun t => t.mem = s.mem ∧ Retired s t n) := by
  rw [retireCore_waits m r hc] at h
  obtain ⟨hops, hmem, -, hst⟩ := retiredCore_keeps d n r
  obtain ⟨hcore, hboot, -⟩ := retirePending_keeps d n r
  have hctx : ∀ e, ctxOf (coreOf d n) e = ctxIn s n e := fun e => by rw [ctxIn, ctxOf, hx, ctxOf]
  refine ⟨_, h, rfl, rfl, ?_⟩
  generalize retirePending d n r = e at hcore hboot
  generalize retiredCore d n r = e' at hcore hboot hops hmem hst
  rw [hp] at hmem
  simp only [Retired, ctxIn, hcore, hboot, true_and]
  refine ⟨hops, hmem, fun i hi => ?_⟩
  rw [← ctxIn, ← hctx i]
  exact hst i hi

end Sys2Proof.Machine
end

section
/-! SUPPORT. Upsets of a core: what a mismatch of a cell or a lane, a failing word of scratchpad and a bad instruction word come to
(R164 to R167, R208 to R210, R219, R472). -/

namespace Sys2Proof.Machine

/-! ### A mismatch that is noted (R166, R167, R210) -/

/-- The device that has noted a mismatch of core `n`: its physical core's day, a register word and the core's new health. -/
def noted (d : Dev) (n off v : Nat) (h : CoreHealth) : Dev :=
  setCore (regPutNat (coreDay d n) (coreOff n off) v) n { coreOf d n with health := h }

theorem coreOf_coreDay (d : Dev) (n m : Nat) : coreOf (coreDay d n) m = coreOf d m := rfl

/-- The device once the work is done again: a record, and the counts of the core and of the day. -/
def retried (d : Dev) (n : Nat) (r : RecArgs) (cnt day : Nat) : Dev :=
  dayBump (regBump (postRecord d r) (coreOff n cnt) 1) day 1

theorem coreOff_not_report (n : Nat) {o : Nat} (h1 : 0x300 ≤ o) (h2 : o < 0x1000) : coreOff n o ∉ reportOffs := by
  unfold coreOff coreBase
  simp only [reportOffs, List.mem_cons, List.not_mem_nil, or_false]
  omega

theorem coreOf_noted (d : Dev) (n off v : Nat) (h : CoreHealth) :
    coreOf (noted d n off v h) n = { coreOf d n with health := h } :=
  coreOf_setCore_same _ _ _

theorem coreOf_retried (d : Dev) (n m : Nat) (r : RecArgs) (cnt day : Nat) : coreOf (retried d n r cnt day) m = coreOf d m :=
  coreOf_congr (reports_postRecord d r).cores_eq m

theorem regNat_noted (d : Dev) (n off v : Nat) (h : CoreHealth) {j : Nat} (hj : j ≠ coreOff n off) :
    regNat (noted d n off v h) j = regNat d j :=
  regNat_regPutNat_other (coreDay d n) _ _ _ hj

theorem regNat_retried (d : Dev) (n : Nat) (r : RecArgs) {cnt : Nat} (day : Nat) (h1 : 0x300 ≤ cnt) (h2 : cnt < 0x1000) :
    regNat (retried d n r cnt day) (coreOff n cnt) = satAdd32 (regNat d (coreOff n cnt)) 1 := by
  have hrep := (reports_postRecord d r).regNat_eq (coreOff_not_report n h1 h2)
  have hput : regNat (retried d n r cnt day) (coreOff n cnt) = satAdd32 (regNat (postRecord d r) (coreOff n cnt)) 1 % 2 ^ 32 :=
    regNat_regPutNat_same (postRecord d r) _ _
  rw [hput, hrep, satAdd32]
  omega

/-- A noted mismatch leaves what a retirement starts from. -/
theorem does_retires_noted {i : Instr} {s : State} {n off v : Nat} {h' : CoreHealth} {m : Mem} {r : RecArgs}
    (h : exec i s = finish s (retireCore (noted s.dev n off v h') m n r)) (ho : 0x300 ≤ off) (ho' : off < 0x1000)
    (hc : commitEnabled s.dev = true) : Does i s (fun t => t.mem = s.mem ∧ Retired s t n) := by
  have hoff : 0x1200010 ≠ coreOff n off := by unfold coreOff coreBase; omega
  have hcore := coreOf_noted s.dev n off v h'
  refine does_retires h ?_ ?_ ?_
  · rw [commitEnabled, regNat_noted _ _ _ _ _ hoff]
    exact hc
  · rw [physOf, hcore]
    rfl
  · rw [hcore]

/-- A noted mismatch whose work is done again: counted, and the core is left as it was but for its health. -/
theorem does_retries {i : Instr} {s : State} {n off v cnt day : Nat} {h' : CoreHealth} {r : RecArgs}
    (h : exec i s = finish s (retried (noted s.dev n off v h') n r cnt day, [])) (h1 : 0x300 ≤ cnt) (h2 : cnt < 0x1000)
    (hne : cnt ≠ off) : Does i s (fun t => t.mem = s.mem ∧
      coreOf t.dev n = { coreOf s.dev n with health := h' } ∧
      regNat t.dev (coreOff n cnt) = satAdd32 (regNat s.dev (coreOff n cnt)) 1) := by
  refine does_finish h ⟨rfl, (coreOf_retried _ _ _ _ _ _).trans (coreOf_noted _ _ _ _ _), ?_⟩
  rw [after_dev, regNat_retried _ _ _ _ h1 h2, regNat_noted _ _ _ _ _ (coreOff_ne hne)]

/-! ### Mismatches and their attempts (R164 to R167, R208 to R210) -/

/-- The attempt in which an operation's mismatch is found; `same` says whether the retry state is that operation's. -/
def attemptOf (t : Retry) (same : Bool) : Nat := if same then t.attempt else 1

/-- The retry state that a mismatch of unit `u` leaves. -/
def triedAgain (t : Retry) (same : Bool) (id cycle u : Nat) : Retry :=
  ⟨some id, cycle, u :: (if same then t.units else []), attemptOf t same + 1⟩

/-- Whether a mismatch of unit `u`, its `misses`-th, retires the core: the unit mismatched in an earlier attempt too, this is
the third attempt, or the limit is reached. -/
def retiresAt (t : Retry) (same : Bool) (u limit misses : Nat) : Bool :=
  same && t.units.contains u || decide (3 ≤ attemptOf t same) || decide (limit ≤ misses)

theorem retiresAt_second {t : Retry} {u : Nat} (limit misses : Nat) (h : u ∈ t.units) :
    retiresAt t true u limit misses = true := by
  simp [retiresAt, h]

theorem retiresAt_first (t : Retry) (u : Nat) {limit misses : Nat} (h : misses < limit) :
    retiresAt t false u limit misses = false := by
  simp [retiresAt, attemptOf, h]

theorem smapGet_smapMod_same {α : Type} (m : SMap α) (k : Nat) (d : α) (f : α → α) :
    smapGet (smapMod m k d f) k d = f (smapGet m k d) := smapGet_smapSet_same _ _ _ _

/-- A core's health once a cell has mismatched under operation `id`. -/
def cellMissed (id cell : Nat) (h : CoreHealth) : CoreHealth :=
  { h with
    cellMiss := smapMod h.cellMiss cell 0 (fun x => x + 1)
    mopaTry := triedAgain h.mopaTry (h.mopaTry.op == some id) id 0 cell }

/-- A mismatch of one cell that the oldest MOPA compares. -/
theorem exec_cellMismatch {s : State} {n row col : Nat} {op : LongOp} (hop : oldestMopa (coreOf s.dev n) = some op)
    (hf : op.fault = none) (hr : row < 128) (hc : col < 128) (hs : 128 * row + col ∉ op.skip) {same : Bool}
    (hsame : ((coreOf s.dev n).health.mopaTry.op == some op.id) = same) :
    exec (.matrixResidueMismatch n 0 (row, col) []) s = finish s
      (let h := (coreOf s.dev n).health
       let detail := mtxDetail 0 row col (attemptOf h.mopaTry same)
       let d := noted s.dev n 0x60C (row + 128 * col + 2 ^ 16 * (attemptOf h.mopaTry same % 4))
         (cellMissed op.id (128 * row + col) h)
       if retiresAt h.mopaTry same (128 * row + col) (max 1 (regField s.dev (coreOff n 0x610) 0 4))
           (smapGet h.cellMiss (128 * row + col) 0 + 1) then
         retireCore d s.mem n (retireRec n 0x0141 detail)
       else (retried d n { recOf 0x0140 0 n detail with lcore := n, ctx := op.ctx, pc := op.pc } 0x608 0, [])) := by
  subst hsame
  have hret : retriedOp (coreOf s.dev n) 0 = some op := by simp [retriedOp, hop, hf]
  have hcmp : comparedUnits s.dev op 0 [(row, col)] = [(row, col)] := by simp [comparedUnits, hr, hc, hs]
  show execMatrixResidueMismatch n 0 (row, col) [] s = _
  unfold execMatrixResidueMismatch
  simp [hret, hcmp, putTry, unitTry, modCore, noted, retried, retiresAt, cellMissed, triedAgain, attemptOf,
    smapGet_smapMod_same, coreOf_coreDay]

/-- A core's health once a lane has mismatched in stream cycle `cycle` of operation `id`. -/
def laneMissed (id cycle lane : Nat) (h : CoreHealth) : CoreHealth :=
  { h with
    laneMiss := smapMod h.laneMiss lane 0 (fun x => x + 1)
    vecTry := triedAgain h.vecTry (h.vecTry.op == some id && h.vecTry.cycle == cycle) id cycle lane }

/-- A mismatch of one lane in a stream cycle of the oldest VEC instruction. -/
theorem exec_laneMismatch {s : State} {n cycle lane : Nat} {op : LongOp} (hop : oldestVec (coreOf s.dev n) = some op)
    (hk : laneChecked op.word = true) (hl : lane < 128) {same : Bool}
    (hsame : ((coreOf s.dev n).health.vecTry.op == some op.id && (coreOf s.dev n).health.vecTry.cycle == cycle) = same) :
    exec (.vectorResidueRetry n cycle [lane]) s = finish s
      (let h := (coreOf s.dev n).health
       let detail := vecDetail lane (opCode op.word) (attemptOf h.vecTry same)
       let d := noted s.dev n 0x648 (lane + 128 * (opCode op.word % 16) + 2 ^ 11 * (attemptOf h.vecTry same % 4))
         (laneMissed op.id cycle lane h)
       if retiresAt h.vecTry same lane (max 1 (regField s.dev (coreOff n 0x64C) 0 4)) (smapGet h.laneMiss lane 0 + 1) then
         retireCore d s.mem n (retireRec n 0x0241 detail)
       else (retried d n { recOf 0x0240 0 n detail with lcore := n, ctx := op.ctx, pc := op.pc } 0x644 1, [])) := by
  subst hsame
  have hret : (oldestVec (coreOf s.dev n)).filter (fun o => laneChecked o.word) = some op := by simp [hop, hk]
  have hlane : [lane].filter (fun l => decide (l < 128)) = [lane] := by simp [hl]
  show execVectorResidueRetry n cycle [lane] s = _
  unfold execVectorResidueRetry
  simp [hret, hlane, distinct, modCore, noted, retried, retiresAt, laneMissed, triedAgain, attemptOf,
    smapGet_smapMod_same, coreOf_coreDay]

/-! ### Words of scratchpad and of the instruction store (R219, R472) -/

/-- A scratchpad word above its limit retires a core in service. -/
theorem exec_spadWordFail_over {s : State} {n word : Nat} (hs : coreInService s.dev n = true)
    (h : max 1 (regField s.dev (coreOff n 0x690) 0 8) < smapGet (coreOf s.dev n).health.wordCe word 0) :
    exec (.spadWordFail n word) s = finish s (retireCore s.dev s.mem n (retireRec n 0x0442 (leBytes 4 word))) := by
  show execSpadWordFail n word s = _
  unfold execSpadWordFail
  simp only [hs, h, decide_true, Bool.true_or, Bool.and_true, if_true]

/-- The instruction store with word `w` at an index; a word of zeros is not listed. -/
def storeWord (m : SMap W128) (index : Nat) (w : W128) : SMap W128 :=
  if w = 0#128 then smapDrop m (fun i => i == index) else smapSet m index w

theorem smapGet_storeWord (m : SMap W128) (index i : Nat) (w : W128) :
    smapGet (storeWord m index w) i 0#128 = if i = index then w else smapGet m i 0#128 := by
  unfold storeWord
  split
  · next hw => simp [smapGet_smapDrop, hw]
  · exact smapGet_smapSet m index i w _

/-- A core with an instruction word loaded again at time `now`. -/
def wordReloaded (index : Nat) (w : W128) (now : Nat) (k : Core) : Core :=
  { k with istore := storeWord k.istore index w, health := { k.health with reloaded := smapSet k.health.reloaded index now } }

section
variable {s : State} {n index : Nat} (hs : coreInService s.dev n = true)
  (hpc : (ctxOf (coreOf s.dev n) (coreOf s.dev n).cur).pc = index)
  (hlive : ctxLive (ctxOf (coreOf s.dev n) (coreOf s.dev n).cur) = true)
include hs hpc hlive

/-- The first time in 24 hours, the word comes from the program image. -/
theorem exec_istoreReload_first {a len : Nat} (ht : within24h s.dev (smapFind (coreOf s.dev n).health.reloaded index) = false)
    (him : (coreOf s.dev n).image = some (a, len)) (hlen : index < len) :
    exec (.istoreReload n index) s = finish s (postRecord
      (modCore s.dev n (wordReloaded index
        (BitVec.ofNat 128 (leNat ((rangeFrom (a + 16 * index) 16).map (fun x => memByte s.mem (memKey x))))) (gtimeNs s.dev)))
      { retireRec n 0x0340 (leBytes 2 index) with cls := 0, ctx := (coreOf s.dev n).cur, pc := index }, []) := by
  show execIstoreReload n index s = _
  unfold execIstoreReload
  simp only [hs, hpc, hlive, ht, him, hlen, beq_self_eq_true, Bool.and_self, if_true, Bool.false_eq_true, if_false]
  rfl

/-- A second time, the core is retired. -/
theorem exec_istoreReload_second (ht : within24h s.dev (smapFind (coreOf s.dev n).health.reloaded index) = true) :
    exec (.istoreReload n index) s = finish s (retireCore s.dev s.mem n (retireRec n 0x0341 (leBytes 2 index))) := by
  show execIstoreReload n index s = _
  unfold execIstoreReload
  simp only [hs, hpc, hlive, ht, beq_self_eq_true, Bool.and_self, if_true]

end

/-- What the reload leaves: one word of the store is the image's, and no context or other core has changed. -/
theorem does_istoreReload_first {s : State} {n index now : Nat} {w : W128} {r : RecArgs}
    (h : exec (.istoreReload n index) s = finish s (postRecord (modCore s.dev n (wordReloaded index w now)) r, [])) :
    Does (.istoreReload n index) s (fun t => t.mem = s.mem ∧ SameOtherCores s t n ∧
      smapGet (coreOf t.dev n).istore index 0#128 = w ∧
      (∀ i, i ≠ index → smapGet (coreOf t.dev n).istore i 0#128 = smapGet (coreOf s.dev n).istore i 0#128) ∧
      ∀ e, ctxIn t n e = ctxIn s n e) := by
  have hcores := (reports_postRecord (modCore s.dev n (wordReloaded index w now)) r).cores_eq
  have hcore := (coreOf_congr hcores n).trans (coreOf_modCore_same _ _ _)
  have hget := smapGet_storeWord (coreOf s.dev n).istore index
  refine does_finish h ⟨rfl, fun m hm => ?_, ?_, fun i hi => ?_, fun e => ?_⟩
  · exact (coreOf_congr hcores m).trans (coreOf_modCore_other _ _ _ _ hm)
  · rw [after_dev, hcore]
    exact (hget index w).trans (if_pos rfl)
  · rw [after_dev, hcore]
    exact (hget i w).trans (if_neg hi)
  · rw [ctxIn, after_dev, hcore]
    rfl

end Sys2Proof.Machine
end

section
/-! CERTIFICATE. O24: a core's upsets are retried and counted, or retire the core. -/

namespace Sys2Proof.Machine

/-- Settles O24: each upset's command in its cases; one that retires the core ends in `retireCore`, with commits enabled. -/
theorem coreUpsets : Obligations.CoreUpsets := by
  refine ⟨?mismatches, ?instructions⟩
  case' mismatches =>
    intro n s op
    refine ⟨?cellFirst, ?cellSecond, ?laneSecond, ?laneFirst, ?word⟩
  case' instructions =>
    intro n index a len w s hs k hpc hlive
    refine ⟨?reload, ?reloadSecond⟩
  case cellFirst =>
    intro row col hop hf hr hc hskip hnew hlim
    have hexec := exec_cellMismatch hop hf hr hc hskip (beq_false_of_ne hnew)
    simp only [retiresAt_first _ _ hlim, Bool.false_eq_true, if_false] at hexec
    refine Does.imp (does_retries hexec (by decide) (by decide) (by decide)) ?_
    rintro t ⟨hmem, hcore, hcnt⟩
    rw [hcore]
    exact ⟨hmem, rfl, rfl, hcnt, smapGet_smapMod_same _ _ _ _⟩
  case cellSecond =>
    intro row col hop hf hr hc hskip hold hmem hcom
    have hexec := exec_cellMismatch hop hf hr hc hskip (beq_iff_eq.2 hold)
    simp only [retiresAt_second _ _ hmem, if_true] at hexec
    exact does_retires_noted hexec (by decide) (by decide) hcom
  case laneSecond =>
    intro cycle lane hop hk hl hold hcyc hmem hcom
    have hexec := exec_laneMismatch hop hk hl (Bool.and_eq_true_iff.2 ⟨beq_iff_eq.2 hold, beq_iff_eq.2 hcyc⟩)
    simp only [retiresAt_second _ _ hmem, if_true] at hexec
    exact does_retires_noted hexec (by decide) (by decide) hcom
  case laneFirst =>
    intro cycle lane hop hk hl hnew hlim
    have hexec := exec_laneMismatch (cycle := cycle) hop hk hl (Bool.and_eq_false_imp.2 fun h => absurd (beq_iff_eq.1 h) hnew)
    simp only [retiresAt_first _ _ hlim, Bool.false_eq_true, if_false] at hexec
    refine Does.imp (does_retries hexec (by decide) (by decide) (by decide)) ?_
    rintro t ⟨hmem, hcore, hcnt⟩
    rw [hcore]
    exact ⟨hmem, rfl, rfl, hcnt, smapGet_smapMod_same _ _ _ _⟩
  case word =>
    intro word hs hcom hlim
    exact does_retires (exec_spadWordFail_over hs hlim) hcom rfl rfl
  case reload =>
    intro ht him hlen hw
    rw [hw]
    exact does_istoreReload_first (exec_istoreReload_first hs hpc hlive ht him hlen)
  case reloadSecond =>
    intro ht hc
    exact does_retires (exec_istoreReload_second hs hpc hlive ht) hc rfl rfl

end Sys2Proof.Machine
end
